-- ==== Sys2Proof/Word.lean ====
section
/-! DEFINITION. The words of the Belsar 2280: the numbers that name its parts, a sector's bytes, and
tables indexed by such numbers. -/

namespace Sys2Proof

/-- Table 2-1: the number by which the host interface device identifies a live request. -/
abbrev Tag := Fin 16
/-- Table 0-2: one of the optical drives on drive links 0–3. -/
abbrev Drive := Fin 4
/-- Table 0-2: a shelf position for one cartridge. -/
abbrev Slot := Fin 64
/-- R13: one face of one cartridge, `2 × slot + face`. -/
abbrev Side := Fin 128
/-- R3: a record book, 0–126. -/
abbrev Book := Fin 127
/-- Table 2-1: the requesting desk or copy station. -/
abbrev Station := Fin 16
/-- R10: a line of the fee schedule. -/
abbrev FeeClass := Fin 8
/-- R1: a block address of the library volume; the field is no wider than the volume. -/
abbrev BlockAddress := Fin 33554432

/-- The 1024 bytes of one sector; byte `i` stands in bits `8i` to `8i + 7`. -/
abbrev Sector := BitVec 8192

/-- A sector of zero bytes (R60). -/
def Sector.zeros : Sector := 0#8192

/-- Table 0-2: one of the two faces of a cartridge. -/
inductive Face where
  | a
  | b
deriving DecidableEq, Repr

/-- The entry of a table at an index. -/
def look {α : Type} {n : Nat} (t : Vector α n) (i : Fin n) : α := t[i]

/-- The table with one entry replaced. -/
def put {α : Type} {n : Nat} (t : Vector α n) (i : Fin n) (x : α) : Vector α n := t.set i x

/-- The table with one entry changed by a function. -/
def upd {α : Type} {n : Nat} (t : Vector α n) (i : Fin n) (f : α → α) : Vector α n :=
  put t i (f (look t i))

end Sys2Proof
end

