-- ==== Sys2Proof/Config.lean ====
section
/-! DEFINITION. What the part fixes: the sizes, limits and times of the specification, and the one value
that it leaves open. -/

namespace Sys2Proof.Config

/-- R1: sectors of one book. -/
def sectorsPerBook : Nat := 262144
/-- R1: sectors of one frame. -/
def sectorsPerFrame : Nat := 64
/-- R4: frames of one book; a filing mark at this value makes the book full. -/
def framesPerBook : Nat := 4096
/-- R2: the first block of the service book. -/
def serviceBase : Nat := 33292288
/-- R34: the last block address of the volume. -/
def lastBlock : Nat := 33554431
/-- R33: the largest count of a FETCH. -/
def maxFetch : Nat := 512
/-- R35: the largest count of a FILE. -/
def maxFile : Nat := 64
/-- Table 3-1: staging slots. -/
def stagingSlots : Nat := 1024
/-- Table 3-1: intake slots. -/
def intakeSlots : Nat := 1024
/-- R50: intake slots of one tag's share. -/
def intakeShare : Nat := 64
/-- Table 3-1: twin hold slots. -/
def holdSlots : Nat := 5120
/-- Table 3-1: slots of the re-read half of copy staging. -/
def rereadSlots : Nat := 512
/-- Table 3-1: slots of the rescue half of copy staging. -/
def rescueSlots : Nat := 512
/-- R56: escalation turns on at this held-sector total. -/
def escalateOn : Nat := 4096
/-- R56: escalation turns off below this held-sector total. -/
def escalateOff : Nat := 3584
/-- R109: the command limit, in seconds. -/
def commandLimit : Nat := 10
/-- R108, R110: the spin-up and spin-down limits, in seconds. -/
def spinLimit : Nat := 20
/-- R118: the move limit, in seconds. -/
def moveLimit : Nat := 30
/-- R110: the idle time of a READY drive, in seconds. -/
def idleLimit : Nat := 300
/-- R131: the dwell, in seconds. -/
def dwell : Nat := 20
/-- R128: the demand age limit, in seconds. -/
def ageLimit : Nat := 90
/-- R136: the patrol idle time, in seconds. -/
def patrolIdle : Nat := 180
/-- R166: the most sides the rescue queue holds. -/
def queueSlots : Nat := 8
/-- R170: frames of a rescue batch; R96: frames of a re-read window. -/
def batchFrames : Nat := 8
/-- R143: the most frames of a recent-page list. -/
def recentPages : Nat := 32
/-- The maximum of a one-byte saturating count. -/
def max8 : Nat := 255
/-- The maximum of a two-byte saturating count, and the last day number (R157). -/
def max16 : Nat := 65535
/-- The maximum of a four-byte saturating amount. -/
def max32 : Nat := 4294967295

/-- FREE VALUE. What the two FOUR-byte fields of the order page (Table 11-8: A and the seconds since the
last charge) read as when no order is open. R185 gives what an absent value reads as in a one-byte and in a
two-byte field and states nothing for a four-byte one. The argument tells the two fields apart (log entry 12). -/
opaque absentFourBytes : Nat → BitVec 32

end Sys2Proof.Config
end

