-- ==== Sys2Proof/Syntax.lean ====
section
/-! DEFINITION. The commands of the 2280: one constructor for each row of the table of operations and events.
A command carries what the event brings from outside the part: a record, a sector, an outcome, a report, the reading
of an input line, or the choice that the specification leaves to the event. -/

namespace Sys2Proof

/-- Table 2-1: the fee treatment that a FETCH asks for. -/
inductive ChargeMode where
  | none
  | copy
  | certified
deriving DecidableEq, Repr

/-- Table 2-1: whether a filed page begins an instrument or continues one. -/
inductive InstrumentFlag where
  | head
  | cont
deriving DecidableEq, Repr

/-- Table 2-1: a request record. The operation is the command that brings the record. -/
structure RequestRecord where
  tag : Tag
  addr : BlockAddress
  count : Fin 1024
  station : Station
  mode : ChargeMode
  flag : InstrumentFlag
  cls : FeeClass
deriving DecidableEq, Repr

/-- Table 4-5: the result of one sector of a read or verify outcome, with the data it gives. -/
inductive ReadResult where
  | ok (data : Sector)
  | corrected (data : Sector)
  | uncorrectable
  | blank
deriving DecidableEq, Repr

/-- R187: the position of the schedule key, read at the event that checks a keyed write. -/
inductive KeyPosition where
  | opened
  | locked
deriving DecidableEq, Repr

/-- R180: the cause of a reset. -/
inductive ResetCause where
  | powerOn
  | resetLine
deriving DecidableEq, Repr

/-- Table 11-9: one class's line in the data of a schedule write, as the bytes carry it. -/
structure ScheduleLine where
  fee : Nat
  threshold : Nat
  rate : Nat
  cap : Nat
deriving DecidableEq, Repr

/-- Table 11-9: the data of a schedule write, as the bytes carry it. -/
structure ScheduleData where
  lines : Vector ScheduleLine 8
  surcharge : Nat
  timeout : Nat
deriving DecidableEq, Repr

/-- What start-up reads on the input lines and asks of the mechanism (R183): the drive count straps, the presence lines,
the power warning line, whether Record Memory still holds what it held (so that the format marker is found, if it had been
written), and the picker's fault report (R123). `cut` is `some n` when a further reset comes during this start-up, once `n` of its
changes have been written to Record Memory (R184; log entry 57). -/
structure ResetInputs where
  straps : Nat
  presence : Vector Bool 64
  warning : Bool
  memoryKept : Bool
  grip : Bool
  cut : Option Nat
deriving DecidableEq, Repr

/-- R181: the sector that is in transfer when the power warning is asserted, in the burst that is next on the Front Link: `sent` sectors of that burst have been
sent before it, and `offerFirst` says whether the offer that it makes, if it makes one, is taken before the assertion (R152: either order; log entry 7). -/
structure InTransfer where
  sent : Nat
  offerFirst : Bool
deriving DecidableEq, Repr

/-- The commands. Each docstring names the rule of the table's row. -/
inductive Instr where
  /-- R33: a FETCH request record is presented. -/
  | fetchRequest (r : RequestRecord)
  /-- R35: a FILE request record is presented. -/
  | fileRequest (r : RequestRecord)
  /-- R27: the Request Port issues the pull that is next on the link. -/
  | pull
  /-- R81: one sector of a FILE's burst arrives; the key position is read only when the sector is a keyed service write. -/
  | fileBurstArrival (tag : Tag) (data : Sector) (key : KeyPosition)
  /-- R26: the Request Port sends the burst that is next on the link, of at most `count` sectors. -/
  | burstSent (count : Nat)
  /-- R28: the response that is next is sent. -/
  | responseSent
  /-- R64: the outcome of a fetch read, one result for each sector of the command. -/
  | fetchReadOutcome (drive : Drive) (results : List ReadResult)
  /-- R83: a primary write verifies OK. -/
  | primaryWriteOk (drive : Drive)
  /-- R85: a primary write ends WRITE_FAIL. -/
  | primaryWriteFail (drive : Drive)
  /-- R99: a twin write verifies OK. -/
  | twinWriteVerified (drive : Drive)
  /-- R100: a twin write ends WRITE_FAIL. -/
  | twinWriteFail (drive : Drive)
  /-- R97: the outcome of a twin re-read. -/
  | rereadOutcome (drive : Drive) (results : List ReadResult)
  /-- R170: the outcome of a rescue read. -/
  | rescueReadOutcome (drive : Drive) (results : List ReadResult)
  /-- R173: a rescue target write verifies OK. -/
  | rescueWriteVerified (drive : Drive)
  /-- R174: a rescue target write ends WRITE_FAIL. -/
  | rescueWriteFail (drive : Drive)
  /-- R164: the outcome of a patrol verify. -/
  | patrolVerifyOutcome (drive : Drive) (results : List ReadResult)
  /-- R112: the 10 s command limit expires. -/
  | commandLimitExpiry (drive : Drive)
  /-- R112: a drive reports a hardware fault. -/
  | hardwareFaultReport (drive : Drive)
  /-- R108: the 20 s spin-up limit expires. -/
  | spinUpLimitExpiry (drive : Drive)
  /-- R110: the 20 s spin-down limit expires. -/
  | spinDownLimitExpiry (drive : Drive)
  /-- R108: a drive reports ready. -/
  | readyReport (drive : Drive)
  /-- R110: a drive reports stopped. -/
  | stoppedReport (drive : Drive)
  /-- R110: a READY drive has been idle for 300 s. -/
  | idleSpinDown (drive : Drive)
  /-- R120, R123: a drive reports caddy seated or caddy empty. -/
  | caddyReport (drive : Drive) (seated : Bool)
  /-- R119: the picker reports that the move is complete. -/
  | moveCompletion
  /-- R120: the 30 s move limit expires; the report the picker gives in answer to stop, and the caddy reading of a LOAD's drive. -/
  | moveLimitExpiry (grip : Bool) (caddy : Bool)
  /-- R120: the picker reports a fault: whether the grip holds the cartridge, and the caddy reading of a LOAD's drive. -/
  | pickerFaultReport (grip : Bool) (caddy : Bool)
  /-- R19: a slot's presence line changes. -/
  | presenceChange (slot : Slot) (seated : Bool)
  /-- R131: the dwell of a drive runs out. -/
  | dwellExpiry (drive : Drive)
  /-- R128: the item of a side placed at a time reaches 90 s of age. -/
  | demandAgeLimit (side : Side) (placed : Nat)
  /-- R136: the library has been quiet for 180 s. -/
  | patrolIdleTime
  /-- R150: a station's order timer expires. -/
  | orderTimerExpiry (station : Station)
  /-- R181: the power warning is asserted; the sector of a FETCH, if any, that is in transfer on the Front Link. -/
  | powerWarning (inTransfer : Option InTransfer)
  /-- R182: the power warning is withdrawn. -/
  | holdEnd
  /-- R183: a power-on reset or an assertion of the RESET line. -/
  | reset (cause : ResetCause) (inputs : ResetInputs)
  /-- R158: the sector of a day close arrives. -/
  | dayClose (tag : Tag) (day : Nat)
  /-- R179: the sector of a clear faults command arrives. -/
  | clearFaults (tag : Tag)
  /-- R179: the sector of a set mask command arrives. -/
  | setMask (tag : Tag) (mask : BitVec 16)
  /-- R179: the sector of a clear causes command arrives. -/
  | clearCauses (tag : Tag)
  /-- R122: the sector of a picker clear arrives. -/
  | pickerClear (tag : Tag)
  /-- R151: the sector of a write to an order block arrives. -/
  | orderClose (tag : Tag)
  /-- R141: the sector of a schedule write arrives. -/
  | scheduleWrite (tag : Tag) (key : KeyPosition) (data : ScheduleData)
  /-- R15: the sector of a pool write with action 1 arrives. -/
  | poolAddition (tag : Tag) (key : KeyPosition) (count : Nat) (sides : List Nat)
  /-- R15: the sector of a pool write with action 2 arrives. -/
  | poolRemoval (tag : Tag) (key : KeyPosition) (count : Nat) (sides : List Nat)
  /-- R166: the sector of a threshold write arrives. -/
  | thresholdWrite (tag : Tag) (key : KeyPosition) (value : Nat)
  /-- R6: the sector of book table command 1 arrives. -/
  | assignment (tag : Tag) (key : KeyPosition) (primary twin : Nat)
  /-- R7: the sector of book table command 2 arrives. -/
  | twinAddition (tag : Tag) (key : KeyPosition) (twin : Nat)
  /-- R8: the sector of book table command 3 arrives. -/
  | twinRemoval (tag : Tag) (key : KeyPosition)
  /-- R5: the sector of book table command 4 arrives. -/
  | closeBook (tag : Tag) (key : KeyPosition)
  /-- R186: the sector of a service write arrives that its block does not take. -/
  | serviceWriteRefused (tag : Tag) (key : KeyPosition) (data : Sector)
deriving DecidableEq, Repr

end Sys2Proof
end

