-- ==== Sys2Proof/Machine/State.lean ====
section
/-! DEFINITION. The state of the 2280: everything the specification names, as plain data, with its reset value. The state is cut into
the queue of waiting commands, `Env` (what the reactions inside one event only read), `Fee` (the Fee Unit's accounts) and
`Library` (the blocks that react to one another inside an event). -/

namespace Sys2Proof.Machine

/-! ## Codes and outcomes -/

/-- Table 2-4: the outcome codes. -/
inductive Outcome where
  | done
  | inProgress
  | badRequest
  | outOfVolume
  | bookUnassigned
  | bookClosed
  | notAtMark
  | badContinuation
  | unreadable
  | fileFailed
  | sideUnavailable
  | powerHold
  | protected_
  | dayMismatch
  | tableRefused
deriving DecidableEq, Repr

/-- Table 2-2: the notes of a request, a set. -/
structure Notes where
  corrected : Bool
  fromTwin : Bool
  fromHold : Bool
  blankFill : Bool
  charged : Bool
deriving DecidableEq, Repr

/-- R74: no note. -/
def Notes.empty : Notes := ⟨false, false, false, false, false⟩

/-- Table 2-2: a response record. -/
structure Response where
  tag : Tag
  outcome : Outcome
  moved : Nat
  stopAddress : Nat
  remaining : Nat
  notes : Notes
  amount : Nat
deriving DecidableEq, Repr

/-- Table 10-1: the fault kinds. -/
inductive FaultKind where
  | pickerFault
  | driveFailed
  | readUncorrectable
  | writeFailed
  | frameLost
  | noBlank
  | rescueQueueFull
  | cartridgeMissing
  | tallySaturated
  | powerWarning
  | recordMemoryBlank
deriving DecidableEq, Repr

/-- R191: a set of fault kinds; bit `k - 1` is the kind of code `k` of Table 11-2. -/
abbrev KindSet := BitVec 11

/-! ## Books, frames, sides -/

/-- R10, R11: one entry of a frame directory: the fee class and length of a HEAD or CONT entry, the retained kind and class
of a LOST one. -/
inductive Frame where
  | blank
  | head (cls : FeeClass) (len : Nat)
  | cont (cls : FeeClass) (len : Nat)
  | void
  | lost (wasHead : Bool) (cls : FeeClass)
deriving DecidableEq, Repr

/-- Table 1-2: the state of a book. -/
inductive BookState where
  | unassigned
  | opened
  | closed
deriving DecidableEq, Repr

/-- R3: a book table entry. -/
structure BookEntry where
  state : BookState
  primary : Option Side
  twin : Option Side
  filing : Nat
  intake : Nat
  twinMark : Nat
deriving DecidableEq, Repr

/-- R3: the entry after a blank marker. -/
def BookEntry.unassigned : BookEntry := ⟨.unassigned, none, none, 0, 0, 0⟩

/-- R13: a side's role, with its book where the role has one. -/
inductive Role where
  | unlisted
  | blank
  | primary (book : Book)
  | twin (book : Book)
  | rescueTarget (book : Book)
  | retired (book : Book)
deriving DecidableEq, Repr

/-- R16: the location of a cartridge. -/
inductive Location where
  | inSlot
  | inDrive (drive : Drive) (face : Face)
  | inPicker
  | absent
deriving DecidableEq, Repr

/-! ## Requests -/

/-- R58: where a requested sector's data came from. -/
inductive Source where
  | none
  | primary
  | twin
  | hold
  | zero
deriving DecidableEq, Repr

/-- R58: one requested sector of a window: its source, whether the drive corrected it, whether a side that was read for it gave
UNCORRECTABLE or BLANK (R71), and its data. -/
structure SectorState where
  source : Source
  corrected : Bool
  failed : Bool
  data : Sector
deriving DecidableEq, Repr

/-- R58: a requested sector before it has a source. -/
def SectorState.empty : SectorState := ⟨.none, false, false, Sector.zeros⟩

/-- R60: a zero-filled sector. -/
def SectorState.zero : SectorState := ⟨.zero, false, false, Sector.zeros⟩

/-- Table 4-1: the window states. -/
inductive WindowState where
  | unopened
  | pending
  | sourcing
  | staged
  | stopped
deriving DecidableEq, Repr

/-- R42: a recorded stop: the sector-in-frame and the outcome. -/
structure Stop where
  sector : Nat
  outcome : Outcome
deriving DecidableEq, Repr

/-- R58: a window record. `resolved` is the directory entry found when the window was resolved; `onTwin` says which copy the
window's item or read command is for; `opened` orders the openings (R47). -/
structure Window where
  book : Book
  frame : Nat
  first : Nat
  last : Nat
  resolved : Frame
  state : WindowState
  sectors : List SectorState
  item : Option Side
  onTwin : Bool
  reading : Bool
  stop : Option Stop
  opened : Nat
deriving DecidableEq, Repr

/-- R39: a segment: its book, first block address and sector count, and whether its book has been checked (R40). -/
structure Segment where
  book : Book
  first : Nat
  count : Nat
  checked : Bool
deriving DecidableEq, Repr

/-- R29: what the entry of a FETCH holds: its segments, its windows not yet delivered (lowest first: the head is the delivery
window, the next the look-ahead window), and how the request ends when they have all been delivered. -/
structure Fetching where
  segments : List Segment
  windows : List Window
  finish : Outcome
deriving DecidableEq, Repr

/-- R80: the filing phases. -/
inductive FilePhase where
  | intake
  | queued
  | writing
deriving DecidableEq, Repr

/-- R29: what the entry of a FILE holds, with the sectors in its intake slots and whether its pull has been sent. -/
structure Filing where
  book : Book
  frame : Nat
  isHead : Bool
  cls : FeeClass
  len : Nat
  phase : FilePhase
  pulled : Bool
  received : List Sector
deriving DecidableEq, Repr

/-- The work of a live request: a FETCH in the record books, a FETCH in the service book, a FILE in the record books, a service
write (with whether its pull has been sent), or none for a request refused at arrival. -/
inductive Job where
  | refused
  | fetch (f : Fetching)
  | servicePages
  | file (f : Filing)
  | serviceWrite (pulled : Bool)
deriving DecidableEq, Repr

/-- R29: a LIVE entry of the Request Table. `ended` holds the outcome from the end of the request until its response is sent;
`discard` counts the sectors of the burst of an ended FILE that are still to be taken from the link (R50). -/
structure Entry where
  record : RequestRecord
  job : Job
  moved : Nat
  stopAddress : Nat
  notes : Notes
  amount : Nat
  ended : Option Outcome
  discard : Nat
deriving DecidableEq, Repr

/-- R28: a burst ready to send or a pull ready to issue. -/
inductive LinkJob where
  | pull (tag : Tag)
  | burst (tag : Tag)
deriving DecidableEq, Repr

/-- The Request Port (chapter 2): the Request Table, the jobs ready on the link in the order in which they became ready, the responses
to send, those of requests that end at the present event, and the tag whose FILE burst is arriving. -/
structure Front where
  table : Vector (Option Entry) 16
  ready : List LinkJob
  responses : List Response
  ending : List Response
  linkBurst : Option Tag
deriving DecidableEq, Repr

/-! ## The Sector Buffer -/

/-- R53: an entry of the twin hold list; its length is the number of its sectors. -/
structure HoldEntry where
  book : Book
  frame : Nat
  data : List Sector
deriving DecidableEq, Repr

/-- R47: a delivery window that waits for the slots of displaced windows whose reads are in progress: its tag, the slots that it holds already,
and the drives at whose outcomes further slots pass to it, with their numbers. -/
structure DeliveryWait where
  tag : Tag
  held : Nat
  due : List (Drive × Nat)
deriving DecidableEq, Repr

/-- The Sector Buffer (chapter 3): the twin hold list oldest first, the escalation flag, the tags whose look-ahead window waits (R48),
the delivery windows that wait for displaced slots (R47), the re-read waiting list (R52), and the count of openings. The
slots of the pools are held by windows, filings, hold entries, re-read records and the batch, and are counted from them. -/
structure Buffer where
  hold : List HoldEntry
  escalation : Bool
  lookWait : List Tag
  deliveryWait : List DeliveryWait
  rereadWait : List (Book × Nat)
  openings : Nat
deriving DecidableEq, Repr

/-! ## The Twin Writer -/

/-- Table 5-3: the twin states. -/
inductive TwinState where
  | none
  | caughtUp
  | working
  | paused
  | blocked
deriving DecidableEq, Repr

/-- R96: the states of a re-read record. -/
inductive RereadState where
  | asked
  | granted
  | reading
  | ready
deriving DecidableEq, Repr

/-- R96: a re-read record. -/
structure Reread where
  frame : Nat
  len : Nat
  state : RereadState
  data : List Sector
deriving DecidableEq, Repr

/-- R94: the twin write in progress: its frame and whether its data is the hold entry's. -/
structure TwinWrite where
  frame : Nat
  fromHold : Bool
deriving DecidableEq, Repr

/-- R94: the twin record of a book. -/
structure TwinRecord where
  state : TwinState
  failed : Option Nat
  rereads : List Reread
  writing : Option TwinWrite
deriving DecidableEq, Repr

/-- R94: the record of a book that has no twin. -/
def TwinRecord.none : TwinRecord := ⟨.none, Option.none, [], Option.none⟩

/-! ## Demand -/

/-- Table 7-1: the kinds of demand item with the identity of each. -/
inductive ItemKind where
  | fetch (tag : Tag) (book : Book) (frame : Nat)
  | file (tag : Tag)
  | twinWrite (book : Book)
  | twinReread (book : Book)
  | rescueRead
  | rescueWrite
  | patrol
deriving DecidableEq, Repr

/-- R125: a demand item with its placement time; the side is the one on whose list it stands. -/
structure Item where
  kind : ItemKind
  placed : Nat
deriving DecidableEq, Repr

/-- R109: a sector command in progress, by the work it serves. `live` turns false when the window, record, batch or data source that it
served is gone: the command then keeps the slots until its outcome, whose data is discarded (R47, R49, R52). -/
inductive Command where
  | fetchRead (tag : Tag) (book : Book) (frame : Nat) (sectors : List Nat) (live : Bool) (slots : Nat)
  | primaryWrite (tag : Tag) (book : Book) (frame : Nat)
  | twinWrite (book : Book) (frame : Nat) (len : Nat) (fromHold : Bool) (live : Bool)
  | reread (book : Book) (frame : Nat) (len : Nat) (live : Bool)
  | rescueRead (book : Book) (frame : Nat) (sectors : List Nat) (live : Bool)
  | rescueWrite (book : Book) (frame : Nat) (live : Bool)
  | patrolVerify (book : Book) (frame : Nat) (len : Nat)
deriving DecidableEq, Repr

/-- R107: the item in service of a drive, the side it was issued on, its command and the time of issue. -/
structure InService where
  item : Item
  side : Side
  command : Command
  issued : Nat
deriving DecidableEq, Repr

/-! ## Drives and picker -/

/-- R107: the drive states. -/
inductive DriveState where
  | empty
  | loading
  | spinUp
  | ready
  | active
  | stopped
  | spinDown
  | unloading
  | failed
deriving DecidableEq, Repr

/-- R118: why a RETURN is asked: a drive's unload, a drive's failure, or a cartridge left in the grip, found at a picker clear (R122) or at
start-up (R123, R139). -/
inductive ReturnReason where
  | unload
  | failure
  | held
  | startUp
deriving DecidableEq, Repr

/-- R107, R115: a Drive Controller. `limitStart` is when the running spin-up or spin-down limit started; `askAgain` holds the RETURN that
was dropped at a seated home slot and is asked again when the slot reads vacant (R118); `expired` is the time of the last expiry of a command
limit whose command may still answer (R109). -/
structure DriveRecord where
  state : DriveState
  unload : Bool
  failures : Nat
  mountTime : Nat
  lastUse : Nat
  service : Option InService
  corrected : Nat
  uncorrectable : Nat
  commandFailures : Nat
  limitStart : Nat
  askAgain : Option ReturnReason
  expired : Option Nat
deriving DecidableEq, Repr

/-- R117: the picker states. -/
inductive PickerState where
  | idle
  | moving
  | retry
  | faulted
deriving DecidableEq, Repr

/-- R117: a move. A RETURN of a cartridge in the grip names no drive. -/
inductive Move where
  | load (slot : Slot) (face : Face) (drive : Drive)
  | back (slot : Slot) (drive : Option Drive) (reason : ReturnReason)
deriving DecidableEq, Repr

/-- R16, R117: the Picker Controller: state, move list, move record, cartridge location records with the presence readings, the start of
the running move limit, whether a retry waits for the drive's caddy report (R120), and the time of the last expiry of the move limit whose
attempt may still answer (R119). -/
structure Picker where
  state : PickerState
  moves : List Move
  record : Option Move
  locations : Vector Location 64
  presence : Vector Bool 64
  limitStart : Nat
  awaitCaddy : Bool
  expired : Option Nat
deriving DecidableEq, Repr

/-- R125, R130: the Mount Scheduler. `decisionDue` registers that an event of R131 has called for a decision. -/
structure Scheduler where
  lists : Vector (List Item) 128
  escalation : Bool
  patrolMount : Option Side
  quiet : Nat
  decisionDue : Bool
deriving DecidableEq, Repr

/-! ## Fees -/

/-- Table 8-1: one class's line of the fee schedule: P, T, R and C. -/
structure FeeLine where
  fee : Nat
  threshold : Nat
  rate : Nat
  cap : Nat
deriving DecidableEq, Repr

/-- R140: the fee schedule; the order timeout is in minutes. -/
structure Schedule where
  lines : Vector FeeLine 8
  surcharge : Nat
  timeout : Nat
deriving DecidableEq, Repr

/-- R142: an order record. -/
structure Order where
  book : Book
  head : Nat
  cls : FeeClass
  certified : Bool
  pages : Nat
  amount : Nat
  surcharged : Bool
  lastCharge : Nat
deriving DecidableEq, Repr

/-- Table 8-6: the accumulators of one station. -/
structure StationTally where
  amount : Nat
  pages : Nat
  orders : Nat
deriving DecidableEq, Repr

/-- Table 8-6: the accumulators of one class. -/
structure ClassTally where
  amount : Nat
  pages : Nat
deriving DecidableEq, Repr

/-- R153: the tallies but for the day number. -/
structure Tallies where
  stations : Vector StationTally 16
  classes : Vector ClassTally 8
  amount : Nat
  pages : Nat
  orders : Nat
  certified : Nat
  saturated : Bool
deriving DecidableEq, Repr

/-- R158: every accumulator at 0 and the flag clear. -/
def Tallies.zero : Tallies :=
  ⟨Vector.replicate 16 ⟨0, 0, 0⟩, Vector.replicate 8 ⟨0, 0⟩, 0, 0, 0, 0, false⟩

/-- The Fee Unit (chapter 8): the schedule, each station's order and recent-page list, the tallies of the current day, and the closed-day
tally with its day number (0 when no day has been closed). The current day number stands in `Env`. -/
structure Fee where
  schedule : Schedule
  orders : Vector (Option Order) 16
  recent : Vector (List Nat) 16
  tallies : Tallies
  closedTallies : Tallies
  closedDay : Nat
deriving DecidableEq, Repr

/-! ## Care -/

/-- R160: a health record. -/
structure Health where
  corrected : Nat
  uncorrectable : Nat
  patrolMark : Nat
  lastPass : Option Nat
deriving DecidableEq, Repr

/-- R160: both counts 0, patrol mark 0, last full pass none. -/
def Health.zero : Health := ⟨0, 0, 0, none⟩

/-- R168: the rescue record; `ofTwin` says that the source's role is TWIN. The target is absent while a new one is sought (R174). -/
structure RescueRecord where
  source : Side
  ofTwin : Bool
  book : Book
  target : Option Side
  copyMark : Nat
  stopped : Bool
deriving DecidableEq, Repr

/-- Table 9-2: the frame states of a rescue batch. -/
inductive BatchState where
  | skipped
  | toRead
  | ready
  | writing
  | written
  | lost
deriving DecidableEq, Repr

/-- R171: the side copies of a frame: the source, and the book's other side. -/
inductive Copy where
  | source
  | other
deriving DecidableEq, Repr

/-- R170: a frame record of the batch: the frame's length, its state, the data of its sectors, the copy it waits on, whether its
sectors have failed on the source and on the other side, and whether a read command for it is in progress. -/
structure BatchFrame where
  frame : Nat
  len : Nat
  state : BatchState
  data : List (Option Sector)
  waits : Option Copy
  sourceFailed : Bool
  otherFailed : Bool
  reading : Bool
deriving DecidableEq, Repr

/-- The Care Unit (chapter 9): health records, patrol cursor and the side it last named, rescue queue, rescue record, batch, whether a
rescue wait stands (R169). `seekDue` and `patrolDue` register the events of R168 and R163. The rescue threshold stands in `Env`. -/
structure Care where
  health : Vector Health 128
  cursor : Option Side
  lastCursor : Option Side
  queue : List Side
  rescue : Option RescueRecord
  batch : Option (List BatchFrame)
  waiting : Bool
  seekDue : Bool
  patrolDue : Bool
deriving DecidableEq, Repr

/-! ## The Fault Log -/

/-- Table 10-1: the fields of the first-fault record. -/
structure FaultRecord where
  kind : FaultKind
  book : Option Book
  side : Option Side
  frame : Option Nat
  drive : Option Drive
  slot : Option Slot
  tag : Option Tag
  day : Nat
deriving DecidableEq, Repr

/-- R178: the first-fault record, the later set and the later count. The mask, the reset-cause set and the hold marker stand in `Env`. -/
structure FaultLog where
  first : Option FaultRecord
  later : KindSet
  laterCount : Nat
deriving DecidableEq, Repr

/-- R180: the reset-cause set. -/
structure ResetCauses where
  powerOn : Bool
  resetLine : Bool
  afterWarning : Bool
deriving DecidableEq, Repr

/-! ## Output -/

/-- What the part puts on its links: the Front Link (R25 to R28), the drive links (R108 to R113) and the picker link (R118, R120, R123). -/
inductive Output where
  | accept (tag : Tag)
  | pull (tag : Tag) (count : Nat)
  | burst (tag : Tag) (address : Nat) (sectors : List Sector)
  | response (r : Response)
  | spinUp (drive : Drive)
  | spinDown (drive : Drive)
  | stop (drive : Drive)
  | read (drive : Drive) (sideSectors : List Nat)
  | write (drive : Drive) (firstSector : Nat) (data : List Sector)
  | verify (drive : Drive) (sideSectors : List Nat)
  | move (m : Move)
  | pickerStop
  | askFaultReport
  | askCaddy (drive : Drive)
deriving DecidableEq, Repr

/-! ## The whole -/

/-- R183: a start-up that is not over: the drive whose caddy report step 4 waits for (R123), absent in one that a further reset is to
break off (R184); the power warning line; and after how many changes that further reset comes. -/
structure StartUp where
  drive : Option Drive
  warning : Bool
  cut : Option Nat
deriving DecidableEq, Repr

/-- What the reactions inside one event only read: the time in seconds since the model's start, the day number (R157), HOLD, the
configured drives, the frame directories (sparse: key `4096 × book + frame`, BLANK entries unlisted), the rescue threshold, the
fault mask, the reset-cause set, the hold marker, the format marker, and a start-up that is not over. -/
structure Env where
  now : Nat
  day : Nat
  hold : Bool
  configured : Nat
  directory : List (Nat × Frame)
  threshold : Nat
  mask : KindSet
  causes : ResetCauses
  holdMarker : Bool
  formatMarker : Bool
  startUp : Option StartUp
deriving DecidableEq, Repr

/-- The blocks that react to one another inside an event, and what the event has put on the links. -/
structure Library where
  front : Front
  books : Vector BookEntry 127
  roles : Vector Role 128
  buffer : Buffer
  twins : Vector TwinRecord 127
  drives : Vector DriveRecord 4
  picker : Picker
  scheduler : Scheduler
  care : Care
  log : FaultLog
  out : List Output
deriving DecidableEq, Repr

/-- The state of the 2280 with the queue of the commands that wait, first in first out. -/
structure State where
  pending : List Instr
  env : Env
  fee : Fee
  lib : Library
deriving DecidableEq, Repr

/-- No command of the 2280 stops the machine: a report that answers nothing is discarded (R112) and a request that cannot be
served ends with an outcome code (R38), so no fault is raised by any meaning. -/
inductive Fault where
deriving DecidableEq, Repr

/-- Why the model has no meaning for a command. -/
inductive Refusal where
  /-- Raised by `exec` alone for a command without a meaning yet (safe: nothing is claimed of it). -/
  | notModelled (mnemonic : String)
deriving DecidableEq, Repr

/-! ## Reset -/

/-- R45, R30: the Request Port at reset. -/
def Front.reset : Front := ⟨Vector.replicate 16 none, [], [], [], none⟩

/-- R45: the Sector Buffer at reset. -/
def Buffer.reset : Buffer := ⟨[], false, [], [], [], 0⟩

/-- R107: an EMPTY drive at a reset taken at time `now`. -/
def DriveRecord.empty (now : Nat) : DriveRecord := ⟨.empty, false, 0, now, now, none, 0, 0, 0, now, none, none⟩

/-- R125, R130: the Mount Scheduler at a reset taken at time `now`. -/
def Scheduler.reset (now : Nat) : Scheduler := ⟨Vector.replicate 128 [], false, none, now, false⟩

/-- R140: the schedule after a blank marker. -/
def Schedule.blank : Schedule := ⟨Vector.replicate 8 ⟨0, 0, 0, 0⟩, 0, 10⟩

/-- R140, R142, R143, R153, R156: the Fee Unit after a blank marker. -/
def Fee.blank : Fee :=
  ⟨.blank, Vector.replicate 16 none, Vector.replicate 16 [], Tallies.zero, Tallies.zero, 0⟩

/-- R160, R167, R168: the Care Unit after a blank marker. -/
def Care.blank : Care := ⟨Vector.replicate 128 .zero, none, none, [], none, none, false, false, false⟩

/-- R178: the Fault Log after a blank marker. -/
def FaultLog.blank : FaultLog := ⟨none, 0, 0⟩

/-- The machine after its first power-on reset, with the format marker absent (R22, R183): every persistent record at its default, the
marker written, RECORD_MEMORY_BLANK recorded on day 1 and POWER_ON in the reset-cause set. The input lines as they are read there
are DESIGN CHOICES (log entry 2): four drives configured, every slot vacant, the power warning withdrawn. -/
def State.reset : State where
  pending := []
  env :=
    { now := 0, day := 1, hold := false, configured := 4, directory := [], threshold := 200, mask := 0
      causes := ⟨true, false, false⟩, holdMarker := false, formatMarker := true, startUp := none }
  fee := Fee.blank
  lib :=
    { front := Front.reset
      books := Vector.replicate 127 .unassigned
      roles := Vector.replicate 128 .unlisted
      buffer := Buffer.reset
      twins := Vector.replicate 127 .none
      drives := Vector.replicate 4 (.empty 0)
      picker := ⟨.idle, [], none, Vector.replicate 64 .absent, Vector.replicate 64 false, 0, false, none⟩
      scheduler := Scheduler.reset 0
      care := Care.blank
      log := ⟨some ⟨.recordMemoryBlank, none, none, none, none, none, none, 1⟩, 0, 0⟩
      out := [] }

end Sys2Proof.Machine
end

