-- ==== Sys2Proof/Machine/Ops.lean ====
section
/-! DEFINITION. The operations over the state that every block shares: reading and replacing the entries of the tables, the frame
directories, the numbers of sides and blocks, side availability (R20), the Fault Log's recording (R178), and the demand
lists (R125 to R127). -/

namespace Sys2Proof.Machine

/-! ## Enumerations -/

/-- The tags in ascending order. -/
def allTags : List Tag := List.finRange 16
/-- The books in ascending order. -/
def allBooks : List Book := List.finRange 127
/-- The sides in ascending order. -/
def allSides : List Side := List.finRange 128
/-- The slots in ascending order. -/
def allSlots : List Slot := List.finRange 64
/-- The drives in ascending order. -/
def allDrives : List Drive := List.finRange 4
/-- The stations in ascending order. -/
def allStations : List Station := List.finRange 16

/-! ## Entries of the tables -/

def Library.entry (l : Library) (t : Tag) : Option Entry := look l.front.table t
def Library.book (l : Library) (b : Book) : BookEntry := look l.books b
def Library.role (l : Library) (s : Side) : Role := look l.roles s
def Library.twin (l : Library) (b : Book) : TwinRecord := look l.twins b
def Library.drive (l : Library) (d : Drive) : DriveRecord := look l.drives d
def Library.items (l : Library) (s : Side) : List Item := look l.scheduler.lists s
def Library.health (l : Library) (s : Side) : Health := look l.care.health s
def Library.location (l : Library) (s : Slot) : Location := look l.picker.locations s
def Library.seated (l : Library) (s : Slot) : Bool := look l.picker.presence s

def Library.setEntry (l : Library) (t : Tag) (x : Option Entry) : Library :=
  { l with front := { l.front with table := put l.front.table t x } }
def Library.setBook (l : Library) (b : Book) (x : BookEntry) : Library := { l with books := put l.books b x }
def Library.setRole (l : Library) (s : Side) (x : Role) : Library := { l with roles := put l.roles s x }
def Library.setTwin (l : Library) (b : Book) (x : TwinRecord) : Library := { l with twins := put l.twins b x }
def Library.setDrive (l : Library) (d : Drive) (x : DriveRecord) : Library := { l with drives := put l.drives d x }
def Library.setItems (l : Library) (s : Side) (x : List Item) : Library :=
  { l with scheduler := { l.scheduler with lists := put l.scheduler.lists s x } }
def Library.setHealth (l : Library) (s : Side) (x : Health) : Library :=
  { l with care := { l.care with health := put l.care.health s x } }
def Library.setLocation (l : Library) (s : Slot) (x : Location) : Library :=
  { l with picker := { l.picker with locations := put l.picker.locations s x } }
def Library.setSeated (l : Library) (s : Slot) (x : Bool) : Library :=
  { l with picker := { l.picker with presence := put l.picker.presence s x } }
/-- What the part puts on a link joins what the event has put there. -/
def Library.emit (l : Library) (o : Output) : Library := { l with out := l.out ++ [o] }
/-- An event of R131 has called for a decision. -/
def Library.callDecision (l : Library) : Library := { l with scheduler := { l.scheduler with decisionDue := true } }
/-- An event of R163 has called for an examination of the patrol cursor. -/
def Library.callPatrol (l : Library) : Library := { l with care := { l.care with patrolDue := true } }
/-- An event of R168 at which a rescue can begin. -/
def Library.callRescue (l : Library) : Library := { l with care := { l.care with seekDue := true } }

/-! ## Numbers -/

/-- A saturating increase (the document conventions). -/
def satAdd (max a k : Nat) : Nat := min max (a + k)

/-- R154: the increase is greater than the room left below the maximum. -/
def saturates (max a k : Nat) : Bool := decide (max < a + k)

/-- The time moves on to a deadline that an expiry event reports; it never moves back (log entry 3). -/
def Env.reach (e : Env) (deadline : Nat) : Env := { e with now := max e.now deadline }

/-- R13: the slot of a side's cartridge. -/
def slotOf (s : Side) : Slot := ⟨s.val / 2, by omega⟩
/-- R13: the face of a side. -/
def faceOf (s : Side) : Face := if s.val % 2 = 0 then .a else .b
/-- R13: the number of a face. -/
def Face.number : Face → Nat
  | .a => 0
  | .b => 1
/-- R13: the side of a face of a slot's cartridge. -/
def sideOf (s : Slot) : Face → Side
  | .a => ⟨2 * s.val, by omega⟩
  | .b => ⟨2 * s.val + 1, by omega⟩
/-- R13: the two sides of a slot's cartridge. -/
def sidesOf (s : Slot) : List Side := [sideOf s .a, sideOf s .b]

/-- R1: the book of a block address; none for the service book (R2). -/
def bookOf (a : Nat) : Option Book :=
  let n := a / Config.sectorsPerBook
  if h : n < 127 then some ⟨n, h⟩ else none
/-- R1: the frame of a block address. -/
def frameOf (a : Nat) : Nat := a % Config.sectorsPerBook / Config.sectorsPerFrame
/-- R1: the sector-in-frame of a block address. -/
def sectorOf (a : Nat) : Nat := a % Config.sectorsPerFrame
/-- R1: the first block address of a frame. -/
def frameAddress (b : Book) (f : Nat) : Nat := b.val * Config.sectorsPerBook + f * Config.sectorsPerFrame
/-- R2: the service block of a block address. -/
def serviceBlock (a : Nat) : Nat := a - Config.serviceBase

/-! ## Frame directories -/

/-- R10: the key of a frame in the sparse directory. -/
def frameKey (b : Book) (f : Nat) : Nat := Config.framesPerBook * b.val + f

/-- The entry at a key; an unlisted key reads as BLANK. -/
def dirGet : List (Nat × Frame) → Nat → Frame
  | [], _ => .blank
  | (k, x) :: rest, n => if n = k then x else dirGet rest n

/-- The directory without the entry at a key. -/
def dirErase (d : List (Nat × Frame)) (n : Nat) : List (Nat × Frame) := d.filter (fun p => p.1 != n)

/-- The directory with an entry put in its place; an entry of the same key is replaced. -/
def dirInsert : List (Nat × Frame) → Nat → Frame → List (Nat × Frame)
  | [], n, x => [(n, x)]
  | (k, y) :: rest, n, x =>
    if n < k then (n, x) :: (k, y) :: rest
    else if n = k then (n, x) :: rest
    else (k, y) :: dirInsert rest n x

/-- One entry of the directories is changed; BLANK is kept by listing nothing. -/
def dirPut (d : List (Nat × Frame)) (n : Nat) (x : Frame) : List (Nat × Frame) :=
  if x = .blank then dirErase d n else dirInsert d n x

/-- R6: every entry of a book's directory becomes BLANK. -/
def dirClear (d : List (Nat × Frame)) (b : Book) : List (Nat × Frame) :=
  d.filter (fun p => p.1 / Config.framesPerBook != b.val)

/-- R10: the directory entry of a frame. -/
def Env.frame (e : Env) (b : Book) (f : Nat) : Frame := dirGet e.directory (frameKey b f)

/-- The directory entry of a frame is changed (Table 1-4). -/
def Env.setFrame (e : Env) (b : Book) (f : Nat) (x : Frame) : Env :=
  { e with directory := dirPut e.directory (frameKey b f) x }

/-- The form of the directories: keys strictly rising, and no BLANK entry listed. -/
def dirWf (d : List (Nat × Frame)) : Bool :=
  d.all (fun p => p.2 != .blank) && decide ((d.map Prod.fst).Pairwise (· < ·))

/-- R65: the sectors below a frame's length; none but for HEAD and CONT. -/
def Frame.length : Frame → Nat
  | .head _ n => n
  | .cont _ n => n
  | _ => 0

/-- R12: HEAD or CONT. -/
def Frame.filed : Frame → Bool
  | .head _ _ => true
  | .cont _ _ => true
  | _ => false

/-- R95: VOID or LOST. -/
def Frame.skipped : Frame → Bool
  | .void => true
  | .lost _ _ => true
  | _ => false

/-- R11: LOST. -/
def Frame.isLost : Frame → Bool
  | .lost _ _ => true
  | _ => false

/-- R12: how a frame counts when a head is looked for. -/
inductive HeadMark where
  | head (cls : FeeClass)
  | cont
  | pass
  | none
deriving DecidableEq, Repr

/-- R12: a HEAD, or a LOST entry that was one, is a head; CONT, VOID and LOST entries that were CONT are passed over. -/
def Frame.mark : Frame → HeadMark
  | .blank => .none
  | .head c _ => .head c
  | .cont _ _ => .cont
  | .void => .pass
  | .lost true c => .head c
  | .lost false _ => .pass

/-- R12: the head found by looking down from the frame below `n`, with its class. -/
def headSearch (mark : Nat → HeadMark) : Nat → Option (Nat × FeeClass)
  | 0 => none
  | n + 1 =>
    match mark n with
    | .head c => some (n, c)
    | .cont => headSearch mark n
    | .pass => headSearch mark n
    | .none => none

/-- R12, R77: the head frame of a filed frame, from the directory. -/
def Env.headOf (e : Env) (b : Book) (f : Nat) : Option (Nat × FeeClass) :=
  headSearch (fun n => (e.frame b n).mark) (f + 1)

/-! ## Drives, sides and availability -/

/-- R107: the straps configure drives 0 to n − 1. -/
def Env.hasDrive (e : Env) (d : Drive) : Bool := decide (d.val < e.configured)

/-- R107: the side mounted in a drive, read from the location records. -/
def Library.mountedSide (l : Library) (d : Drive) : Option Side :=
  allSlots.findSome? fun s =>
    match l.location s with
    | .inDrive d' f => if d' = d then some (sideOf s f) else none
    | _ => none

/-- R16: the drive in which a side is mounted, face up. -/
def Library.mountedIn (l : Library) (s : Side) : Option Drive :=
  match l.location (slotOf s) with
  | .inDrive d f => if f = faceOf s then some d else none
  | _ => none

/-- R117: the slot that a move names. -/
def Move.slot : Move → Slot
  | .load s _ _ => s
  | .back s _ _ => s

/-- R117: the drive that a move names. -/
def Move.drive? : Move → Option Drive
  | .load _ _ d => some d
  | .back _ d _ => d

/-- R139: a RETURN that start-up has placed. -/
def Move.atStartUp : Move → Bool
  | .back _ _ .startUp => true
  | _ => false

/-- R134: only LOADs are asked by the Mount Scheduler. -/
def Move.byScheduler : Move → Bool
  | .load _ _ _ => true
  | .back _ _ _ => false

/-- R124: a move from or to a slot is in progress while the move record names the slot. -/
def Library.moving (l : Library) (s : Slot) : Bool :=
  match l.picker.record with
  | some m => decide (m.slot = s)
  | none => false

/-- R20, Table 1-7: the availability of a face of a slot's cartridge, from its location and the slot's reading. -/
def Library.reachable (e : Env) (l : Library) (s : Slot) (f : Face) (x : Location) (seated : Bool) : Bool :=
  match x with
  | .inDrive d up =>
    e.hasDrive d && (l.drive d).state != .failed && (up == f || l.picker.state != .faulted)
  | .inSlot => l.moving s || (seated && l.picker.state != .faulted)
  | .inPicker => false
  | .absent => false

/-- R20: side availability. -/
def Library.available (e : Env) (l : Library) (s : Side) : Bool :=
  l.reachable e (slotOf s) (faceOf s) (l.location (slotOf s)) (l.seated (slotOf s))

/-- R15: the blank pool, the sides in role BLANK in ascending order. -/
def Library.pool (l : Library) : List Side := allSides.filter fun s => l.role s == .blank

/-- R13: the book a side holds as PRIMARY or TWIN. -/
def Role.holds : Role → Option Book
  | .primary b => some b
  | .twin b => some b
  | _ => none

/-- R177: the book of a side's role, if any. -/
def Role.book? : Role → Option Book
  | .primary b => some b
  | .twin b => some b
  | .rescueTarget b => some b
  | .retired b => some b
  | _ => none

/-- R17: PRIMARY, TWIN or RESCUE_TARGET. -/
def Role.inUse : Role → Bool
  | .primary _ => true
  | .twin _ => true
  | .rescueTarget _ => true
  | _ => false

/-! ## The Fault Log -/

/-- Table 11-2: the code of a fault kind. -/
def FaultKind.code : FaultKind → Nat
  | .pickerFault => 1
  | .driveFailed => 2
  | .readUncorrectable => 3
  | .writeFailed => 4
  | .frameLost => 5
  | .noBlank => 6
  | .rescueQueueFull => 7
  | .cartridgeMissing => 8
  | .tallySaturated => 9
  | .powerWarning => 10
  | .recordMemoryBlank => 11

/-- R191: a set holds a kind when the bit of its code is set. -/
def KindSet.has (s : KindSet) (k : FaultKind) : Bool := s.getLsbD (k.code - 1)

/-- R191: a kind joins a set. -/
def KindSet.with (s : KindSet) (k : FaultKind) : KindSet := s ||| (1#11 <<< (k.code - 1))

/-- Table 10-1: a record of a kind with every field absent. -/
def FaultRecord.of (e : Env) (k : FaultKind) : FaultRecord :=
  ⟨k, none, none, none, none, none, none, e.day⟩

/-- R178: a fault is recorded: nothing when its kind is masked; else it fills an empty record, or joins the later set. -/
def FaultLog.record (mask : KindSet) (g : FaultLog) (r : FaultRecord) : FaultLog :=
  if KindSet.has mask r.kind then g
  else match g.first with
    | none => { g with first := some r }
    | some _ => { g with later := KindSet.with g.later r.kind, laterCount := satAdd Config.max8 g.laterCount 1 }

/-- R178: a fault is recorded. -/
def Library.fault (e : Env) (l : Library) (r : FaultRecord) : Library := { l with log := l.log.record e.mask r }

/-- R178: ATTN is asserted while the first-fault record is full. -/
def Library.attn (l : Library) : Bool := l.log.first.isSome

/-! ## Demand lists -/

/-- R126: the order of the kinds. -/
def ItemKind.rank : ItemKind → Nat
  | .fetch _ _ _ => 0
  | .file _ => 1
  | .twinWrite _ => 2
  | .twinReread _ => 2
  | .rescueRead => 3
  | .rescueWrite => 3
  | .patrol => 4

/-- R126: at equal kind and placement time, ascending tag, then book, then frame. -/
def ItemKind.rest : ItemKind → List Nat
  | .fetch t b f => [t.val, b.val, f]
  | .file t => [t.val]
  | .twinWrite b => [b.val]
  | .twinReread b => [b.val]
  | .rescueRead => []
  | .rescueWrite => []
  | .patrol => []

/-- R126: the place of an item in its list. -/
def Item.key (i : Item) : List Nat := i.kind.rank :: i.placed :: i.kind.rest

/-- The lexicographic order of keys. -/
def keyBefore : List Nat → List Nat → Bool
  | [], [] => false
  | [], _ :: _ => true
  | _ :: _, [] => false
  | a :: as, b :: bs => if a < b then true else if b < a then false else keyBefore as bs

/-- R126: an item takes its place in a list. -/
def insertItem (i : Item) : List Item → List Item
  | [] => [i]
  | j :: rest => if keyBefore i.key j.key then i :: j :: rest else j :: insertItem i rest

/-- R125: a list holds no item twice; an item already on the list keeps its placement time. -/
def joinItem (i : Item) (xs : List Item) : List Item :=
  if xs.any (fun j => j.kind == i.kind) then xs else insertItem i xs

/-- R136: a patrol item gives no demand. -/
def ItemKind.isPatrol : ItemKind → Bool
  | .patrol => true
  | _ => false

/-- R125: an item of a kind stands on a list. -/
def listed (k : ItemKind) (xs : List Item) : Bool := xs.any fun j => j.kind == k

/-- R127: placement; an item that stands on the list already is not placed again. The placing of an item that is not a patrol item sets the
quiet time (R130). -/
def Library.place (e : Env) (l : Library) (s : Side) (k : ItemKind) : Library :=
  let sch := l.scheduler
  { l with scheduler :=
    { sch with lists := put sch.lists s (joinItem ⟨k, e.now⟩ (look sch.lists s))
               quiet := if k.isPatrol || listed k (look sch.lists s) then sch.quiet else e.now } }

/-- R127: return, and R127: move, with the original placement time. -/
def Library.giveBack (l : Library) (s : Side) (i : Item) : Library := l.setItems s (joinItem i (l.items s))

/-- R127: withdrawal of an item from a side's list, and issue. -/
def Library.withdraw (l : Library) (s : Side) (k : ItemKind) : Library :=
  l.setItems s ((l.items s).filter fun i => i.kind != k)

/-- R127: withdrawal from every list of the items that a condition names. -/
def Library.withdrawAll (l : Library) (p : ItemKind → Bool) : Library :=
  { l with scheduler := { l.scheduler with lists := l.scheduler.lists.map fun xs => xs.filter fun i => !p i.kind } }

/-- R128: an item in service that is not a patrol item gives the mounted side demand. -/
def Library.serviceItem (l : Library) (s : Side) : Option Item :=
  allDrives.findSome? fun d =>
    match (l.drive d).service with
    | some v => if v.item.kind.isPatrol then none else if l.mountedIn s = some d then some v.item else none
    | none => none

/-- R128: the items that give a side demand, those of its list and the one in service. -/
def Library.demand (l : Library) (s : Side) : List Item :=
  (l.serviceItem s).toList ++ (l.items s).filter fun i => !i.kind.isPatrol

/-- R128: a side has demand with the items of its list. -/
def Library.wants (l : Library) (s : Side) (items : List Item) : Bool :=
  items.any (fun i => !i.kind.isPatrol) || (l.serviceItem s).isSome

/-- R128: a side has demand. -/
def Library.hasDemand (l : Library) (s : Side) : Bool := l.wants s (l.items s)

/-- R107: a drive's command in progress, changed in place. -/
def Library.mapCommands (l : Library) (f : Command → Command) : Library :=
  { l with drives := l.drives.map fun r =>
      { r with service := r.service.map fun v => { v with command := f v.command } } }

end Sys2Proof.Machine
end

