-- ==== Sys2Proof/Machine/Requests.lean ====
section
/-! DEFINITION. The Request Table and the Front Link: the response of a request (R24, R31), the end of a request (R44), the jobs that are
ready on the link (R28), and the windows of a FETCH as the Request Table holds them (R58). -/

namespace Sys2Proof.Machine

/-! ## Windows -/

/-- R46: the staging slots of a window, one for each requested sector. -/
def Window.size (w : Window) : Nat := w.last + 1 - w.first

/-- R46: a window that holds its slots. -/
def Window.isOpen (w : Window) : Bool := w.state != .unopened

/-- R42: the first sector-in-frame of the window that is not to be delivered. -/
def Window.limit (w : Window) : Nat :=
  match w.stop with
  | some st => st.sector
  | none => w.last + 1

/-- The state of a requested sector, given as a sector-in-frame. -/
def Window.sector (w : Window) (i : Nat) : SectorState := (w.sectors[i - w.first]?).getD .empty

/-- R64: the requested sectors below the frame's length that have no source yet. -/
def Window.missing (w : Window) : List Nat :=
  (List.range' w.first (min (w.last + 1) w.resolved.length - w.first)).filter fun i => (w.sector i).source == .none

/-- R75: the sectors that have their data from a sector-in-frame on, up to the first that has not or the recorded stop. -/
def Window.run (w : Window) (pos : Nat) : List SectorState :=
  ((w.sectors.take (w.limit - w.first)).drop (pos - w.first)).takeWhile fun s => s.source != .none

/-- R75, R26: the sectors of a burst of at most `count` sectors from a sector-in-frame on: zero-filled sectors beyond the frame's length go in the same
burst as the sectors below it, and no burst carries more than a frame. -/
def Window.burst (w : Window) (pos count : Nat) : List SectorState :=
  ((w.run pos).take count ++
    if 0 < count ∧ w.resolved.filed = true then ((w.run pos).drop count).takeWhile fun s => s.source == .zero else []).take
      Config.sectorsPerFrame

/-- R58: the state of a window that has been resolved, from what it still lacks. A window that was displaced with a stop is STOPPED again when every
sector below its frame's length has its data (log entry 38). -/
def Window.judge (w : Window) : Window :=
  { w with state :=
      if w.missing.isEmpty then (if w.stop.isSome then .stopped else .staged) else .sourcing }

/-- R58, R47: a window returned to UNOPENED; a stop it had recorded is kept. -/
def Window.close (w : Window) : Window :=
  { w with state := .unopened, resolved := .blank, sectors := [], item := none, onTwin := false, reading := false }

/-- R39: an unopened window of a frame. -/
def Window.fresh (b : Book) (f first last : Nat) : Window :=
  ⟨b, f, first, last, .blank, .unopened, [], none, false, false, none, 0⟩

/-- The block address of a sector of a window. -/
def Window.address (w : Window) (i : Nat) : Nat := frameAddress w.book w.frame + i

/-- R44: the request has not ended. -/
def Entry.live (x : Entry) : Bool := x.ended.isNone

/-- R58: the windows of a FETCH that has not ended. -/
def Entry.windows (x : Entry) : List Window :=
  if x.live then
    match x.job with
    | .fetch g => g.windows
    | _ => []
  else []

/-- R29: the windows of a FETCH that has not ended, replaced. -/
def Entry.setWindows (x : Entry) (ws : List Window) : Entry :=
  if x.live then
    match x.job with
    | .fetch g => { x with job := .fetch { g with windows := ws } }
    | _ => x
  else x

/-- The windows of a tag. -/
def Library.windows (l : Library) (t : Tag) : List Window :=
  match l.entry t with
  | some x => x.windows
  | none => []

/-- The windows of a tag, replaced. -/
def Library.setWindows (l : Library) (t : Tag) (ws : List Window) : Library :=
  match l.entry t with
  | some x => l.setEntry t (some (x.setWindows ws))
  | none => l

/-- Two records of the same window. -/
def Window.same (w v : Window) : Bool := w.book == v.book && w.frame == v.frame

/-- One window of a tag is replaced by a record of the same window. -/
def Library.setWindow (l : Library) (t : Tag) (w : Window) : Library :=
  l.setWindows t ((l.windows t).map fun v => if v.same w then w else v)

/-- R44, R49: the read command of a window that is released keeps the slots it fills until its outcome, whose data is discarded. -/
def Command.orphanFetch (t : Tag) (w : Window) (slots : Option Nat) : Command → Command
  | .fetchRead t' b f ss live k =>
    if live && t' == t && b == w.book && f == w.frame then .fetchRead t' b f ss false (slots.getD ss.length)
    else .fetchRead t' b f ss live k
  | c => c

/-- R47, R49: a window is released: its demand item is withdrawn and its read command, if any, is left to its outcome. The slots that the
command keeps are those it fills, or the number given (R47: all of a displaced window's). -/
def Library.release (l : Library) (t : Tag) (w : Window) (slots : Option Nat) : Library :=
  let l := match w.item with
    | some s => l.withdraw s (.fetch t w.book w.frame)
    | none => l
  if w.reading then l.mapCommands (Command.orphanFetch t w slots) else l

/-! ## The end of a request -/

/-- R24: the stop address of a request that ends. -/
def stopAddressOf (outcome : Outcome) (addr moved : Nat) : Nat :=
  if outcome = .done then addr + moved - 1 else addr + moved

/-- R24: the response of an entry with an outcome. -/
def Entry.response (x : Entry) (outcome : Outcome) : Response :=
  ⟨x.record.tag, outcome, x.moved, x.stopAddress, x.record.count.val - x.moved, x.notes, x.amount⟩

/-- R44: what an ended request's entry still holds of its work: nothing of its windows or of its sectors. -/
def Job.clear : Job → Job
  | .fetch g => .fetch { g with windows := [] }
  | .file f => .file { f with received := [] }
  | j => j

/-- R44: the items of a request. -/
def ItemKind.ofTag (t : Tag) : ItemKind → Bool
  | .fetch t' _ _ => t' == t
  | .file t' => t' == t
  | _ => false

/-- R28: the link job of a tag. -/
def LinkJob.tag : LinkJob → Tag
  | .pull t => t
  | .burst t => t

/-- R44: the end of a request: its fields are fixed with the sectors moved, its slots are released, its items withdrawn and its response
queued. `discard` is the number of sectors of its burst that are still to be taken from the link. -/
def Library.endRequest (l : Library) (t : Tag) (outcome : Outcome) (moved discard : Nat) : Library :=
  match l.entry t with
  | none => l
  | some x =>
    let l := x.windows.foldl (fun l w => l.release t w none) l
    let l := l.withdrawAll (ItemKind.ofTag t)
    let y := { x with moved := moved, stopAddress := stopAddressOf outcome x.record.addr.val moved, job := x.job.clear
                      ended := some outcome, discard := discard }
    { l with
      front := { l.front with
        table := put l.front.table t (some y)
        ready := l.front.ready.filter fun j => j.tag != t
        ending := l.front.ending ++ [y.response outcome] }
      buffer := { l.buffer with
        lookWait := l.buffer.lookWait.filter fun u => u != t
        deliveryWait := l.buffer.deliveryWait.filter fun u => u.tag != t } }

/-- R31: a duplicate tag is answered at once from the live request's entry. -/
def Library.answerDuplicate (l : Library) (x : Entry) : Library := l.emit (.response (x.response .inProgress))

/-- R42: a stop recorded in a window: the lower of two governs. -/
def Window.withStop (w : Window) (st : Stop) : Window :=
  match w.stop with
  | some old => if old.sector ≤ st.sector then w else { w with stop := some st }
  | none => { w with stop := some st }

/-- R42: the windows above a window, which its stop releases without delivery. -/
def windowsAbove (w : Window) : List Window → List Window
  | [] => []
  | v :: rest => if v.same w then rest else windowsAbove w rest

/-- R42: the windows up to a window. -/
def windowsUpTo (w : Window) : List Window → List Window
  | [] => []
  | v :: rest => if v.same w then [w] else v :: windowsUpTo w rest

/-- R42, R71: a stop is recorded in a window: the window becomes STOPPED, and the windows above it are released. -/
def Library.recordStop (l : Library) (t : Tag) (w : Window) (st : Stop) : Library :=
  let w' := { w.withStop st with state := .stopped, item := none, reading := false }
  let ws := l.windows t
  let l := (windowsAbove w ws).foldl (fun l v => l.release t v none) l
  let l := l.setWindows t (windowsUpTo w' ws)
  { l with buffer := { l.buffer with
      lookWait := if (windowsAbove w ws).isEmpty then l.buffer.lookWait else l.buffer.lookWait.filter fun u => u != t } }

/-! ## The link -/

/-- R26, R27: whether a tag has a pull ready to issue or a burst ready to send. -/
def Entry.readyJob (t : Tag) (x : Entry) : Option LinkJob :=
  if x.live then
    match x.job with
    | .fetch g =>
      match g.windows with
      | w :: _ => if (w.run (sectorOf (x.record.addr.val + x.moved))).isEmpty then none else some (.burst t)
      | [] => none
    | .servicePages => if x.moved < x.record.count.val then some (.burst t) else none
    | .file f => if f.pulled then none else some (.pull t)
    | .serviceWrite pulled => if pulled then none else some (.pull t)
    | .refused => none
  else none

/-- R28: the job of a tag, if it has one ready. -/
def Library.readyJob (l : Library) (t : Tag) : Option LinkJob :=
  match l.entry t with
  | some x => x.readyJob t
  | none => none

/-- R28: jobs stay in the order in which they became ready; those that became ready at this event follow in ascending tag order. -/
def Library.refreshReady (l : Library) : Library :=
  let kept := l.front.ready.filter fun j => l.readyJob j.tag == some j
  let fresh := (allTags.filterMap l.readyJob).filter fun j => !kept.contains j
  { l with front := { l.front with ready := kept ++ fresh } }

/-- R28: responses of requests that end at one event go out in ascending tag order. -/
def insertResponse (r : Response) : List Response → List Response
  | [] => [r]
  | q :: rest => if r.tag.val < q.tag.val then r :: q :: rest else q :: insertResponse r rest

/-- R28: the responses of the event join the queue. -/
def Library.queueResponses (l : Library) : Library :=
  { l with front := { l.front with
      responses := l.front.responses ++ l.front.ending.foldr insertResponse []
      ending := [] } }

/-- The end of every event: its responses are queued and the jobs that it made ready join the link's order (R28). -/
def Library.finish (l : Library) : Library := l.queueResponses.refreshReady

/-- R29: the FILE of a tag, in a record book and not ended, with its entry. -/
def Library.fileOf (l : Library) (t : Tag) : Option (Entry × Filing) :=
  match l.entry t with
  | some x =>
    if x.live then
      match x.job with
      | .file g => some (x, g)
      | _ => none
    else none
  | none => none

/-- R50, R45: the intake slots that a tag's share has reserved. -/
def Library.shareUsed (l : Library) (t : Tag) : Nat :=
  match l.entry t with
  | some x =>
    if x.live then
      match x.job with
      | .file g => g.len
      | .serviceWrite _ => 1
      | _ => 0
    else 0
  | none => 0

/-- R45: the intake slots reserved. -/
def Library.intakeUsed (l : Library) : Nat := (allTags.map l.shareUsed).sum

/-- R45: the intake slots free. -/
def Library.intakeFree (l : Library) : Nat := Config.intakeSlots - l.intakeUsed

/-- R4: the FILEs of a book that have not ended. -/
def Library.liveFiles (l : Library) (b : Book) : Nat :=
  (allTags.filter fun t => (l.fileOf t).any fun p => p.2.book == b).length

end Sys2Proof.Machine
end

