-- ==== Sys2Proof/Machine/Staging.lean ====
section
/-! DEFINITION. Staging (chapter 3.2) and the sourcing of fetch windows (chapter 4): resolution (R59), the turns from primary to twin
to held data (R64 to R71), the opening of delivery and look-ahead windows with displacement (R46 to R48), and the course
of a request through its windows (R40, R42, R43, R75). -/

namespace Sys2Proof.Machine

/-! ## Sources -/

/-- R69: the twin hold list entry of a frame. -/
def Library.held (l : Library) (b : Book) (f : Nat) : Option HoldEntry :=
  l.buffer.hold.find? fun h => h.book == b && h.frame == f

/-- R69: every sector still without a source is copied from the hold entry. -/
def Window.fillFrom (w : Window) (h : HoldEntry) : Window :=
  let need := w.missing
  { w with sectors := w.sectors.mapIdx fun j s =>
      if need.contains (w.first + j) then { s with source := .hold, data := (h.data[w.first + j]?).getD Sector.zeros } else s }

/-- R71: the stop of a window that no copy serves, at its lowest sector without a source: UNREADABLE when a side was read for that
sector and failed, SIDE_UNAVAILABLE when none could be read. -/
def Window.stopAt (w : Window) (i : Nat) : Stop :=
  ⟨i, if (w.sector i).failed then .unreadable else .sideUnavailable⟩

/-- R69, R71: the hold fallback. -/
def Library.holdFallback (l : Library) (t : Tag) (w : Window) : Library :=
  let w := { w with item := none, reading := false }
  match w.missing with
  | [] => l.setWindow t w.judge
  | i :: _ =>
    match l.held w.book w.frame with
    | some h => l.setWindow t (w.fillFrom h).judge
    | none => l.recordStop t w (w.stopAt i)

/-- R67: the twin fallback, under its three conditions; otherwise the hold fallback. -/
def Library.twinFallback (e : Env) (l : Library) (t : Tag) (w : Window) : Library :=
  if w.missing.isEmpty then l.setWindow t { w with item := none, reading := false }.judge
  else match (l.book w.book).twin with
    | some s =>
      if w.frame < (l.book w.book).twinMark ∧ l.available e s then
        (l.place e s (.fetch t w.book w.frame)).setWindow t
          { w with item := some s, onTwin := true, reading := false, state := .sourcing }
      else l.holdFallback t w
    | none => l.holdFallback t w

/-- R64, R70: a window that enters SOURCING asks the primary side, or turns at once when that side is unavailable. -/
def Library.source (e : Env) (l : Library) (t : Tag) (w : Window) : Library :=
  if w.missing.isEmpty then l.setWindow t w.judge
  else match (l.book w.book).primary with
    | some s =>
      if l.available e s then
        (l.place e s (.fetch t w.book w.frame)).setWindow t
          { w with item := some s, onTwin := false, reading := false, state := .sourcing }
      else l.twinFallback e t w
    | none => l.twinFallback e t w

/-- R60: every requested sector of a window is zero-filled. -/
def Window.zeroFill (w : Window) : Window :=
  { w with sectors := List.replicate w.size .zero, item := none, reading := false }

/-- R59: the requested sectors of a HEAD or CONT frame: those at or beyond its length are zero-filled. -/
def Window.split (w : Window) (len : Nat) : Window :=
  { w with sectors := (List.range' w.first w.size).map fun i => if i < len then .empty else .zero }

/-- R59, R61, R63: a window is resolved from its frame's directory entry and the book's marks. -/
def Library.resolve (e : Env) (l : Library) (t : Tag) (w : Window) : Library :=
  let entry := e.frame w.book w.frame
  let w := { w with resolved := entry, item := none, onTwin := false, reading := false }
  match entry with
  | .blank =>
    if (l.book w.book).filing ≤ w.frame ∧ w.frame < (l.book w.book).intake then
      l.setWindow t { w with state := .pending, sectors := List.replicate w.size .empty }
    else l.setWindow t w.zeroFill.judge
  | .void => l.setWindow t w.zeroFill.judge
  | .lost _ _ => l.recordStop t { w with sectors := List.replicate w.size .empty } ⟨w.first, .unreadable⟩
  | .head _ n => l.source e t (w.split n)
  | .cont _ n => l.source e t (w.split n)

/-! ## Staging slots -/

/-- R45: the slots that orphaned read commands keep. -/
def Command.stagingSlots : Command → Nat
  | .fetchRead _ _ _ _ live k => if live then 0 else k
  | _ => 0

/-- R45, R47: the staging slots that the command of a drive keeps for a window which has let it go. -/
def Library.slotsKept (l : Library) (d : Drive) : Nat :=
  match (l.drive d).service with
  | some v => v.command.stagingSlots
  | none => 0

/-- R45: the staging slots reserved: those of open windows, those that commands keep, and those that waiting delivery windows hold. -/
def Library.stagingUsed (l : Library) : Nat :=
  (allTags.map fun t => ((l.windows t).map fun w => if w.isOpen then w.size else 0).sum).sum +
  (allDrives.map l.slotsKept).sum + (l.buffer.deliveryWait.map DeliveryWait.held).sum

/-- R45: the staging slots free. -/
def Library.stagingFree (l : Library) : Nat := Config.stagingSlots - l.stagingUsed

/-- R46, R59: a window is opened and resolved. -/
def Library.openWindow (e : Env) (l : Library) (t : Tag) (w : Window) : Library :=
  let w := { w with opened := l.buffer.openings, state := .sourcing }
  ({ l with buffer := { l.buffer with openings := l.buffer.openings + 1 } }.setWindow t w).resolve e t w

/-- R46: the look-ahead window of a tag. -/
def Library.lookAhead (l : Library) (t : Tag) : Option Window :=
  match l.windows t with
  | _ :: v :: _ => some v
  | _ => none

/-- R47: among the open look-ahead windows of other requests, with a read in progress or without, the one opened last. -/
def Library.lastLookAhead (l : Library) (t : Tag) (reading : Bool) : Option (Tag × Window) :=
  allTags.foldl (fun best u =>
    match l.lookAhead u with
    | some v =>
      if u != t && v.isOpen && v.reading == reading then
        match best with
        | some (_, b) => if b.opened < v.opened then some (u, v) else best
        | none => some (u, v)
      else best
    | none => best) none

/-- R47, R48: a look-ahead window is displaced and joins the waiting list at its tail. -/
def Library.displace (l : Library) (u : Tag) (v : Window) : Library :=
  let l := (l.release u v (some v.size)).setWindow u v.close
  { l with buffer := { l.buffer with lookWait := l.buffer.lookWait ++ [u] } }

/-- R47: look-ahead windows without a read in progress are displaced, the last opened first, until `need` slots are free. -/
def Library.displaceIdle (need : Nat) (t : Tag) : Nat → Library → Library
  | 0, l => l
  | n + 1, l =>
    if need ≤ l.stagingFree then l
    else match l.lastLookAhead t false with
      | some (u, v) => Library.displaceIdle need t n (l.displace u v)
      | none => l

/-- The read command of a window. -/
def Command.reads (t : Tag) (w : Window) : Command → Bool
  | .fetchRead t' b f _ live _ => live && t' == t && b == w.book && f == w.frame
  | _ => false

/-- The drive at which a window's read is in progress. -/
def Library.readerOf (l : Library) (t : Tag) (w : Window) : Option Drive :=
  allDrives.find? fun d => (l.drive d).service.any fun v => v.command.reads t w

/-- R47: the slots that are to come to a waiting window from outcomes. -/
def dueSlots (due : List (Drive × Nat)) : Nat := (due.map Prod.snd).sum

/-- R47: then those with a read in progress, until `need` slots are to come from their outcomes. -/
def Library.displaceReading (need : Nat) (t : Tag) : Nat → List (Drive × Nat) → Library → List (Drive × Nat) × Library
  | 0, due, l => (due, l)
  | n + 1, due, l =>
    if need ≤ dueSlots due then (due, l)
    else match l.lastLookAhead t true with
      | some (u, v) =>
        let more := ((l.readerOf u v).map fun d => (d, min v.size (need - dueSlots due))).toList
        Library.displaceReading need t n (due ++ more) (l.displace u v)
      | none => (due, l)

/-- R47: a delivery window is opened. Where slots are to come from displaced windows whose reads are in progress, it takes the free ones and waits for
the outcomes. -/
def Library.openDelivery (e : Env) (l : Library) (t : Tag) (w : Window) : Library :=
  let l := Library.displaceIdle w.size t 16 l
  let free := l.stagingFree
  if w.size ≤ free then l.openWindow e t w
  else
    let r := Library.displaceReading (w.size - free) t 16 [] l
    { r.2 with buffer := { r.2.buffer with deliveryWait := r.2.buffer.deliveryWait ++ [⟨t, free, r.1⟩] } }

/-- R47: the slots of the displaced windows whose outcomes have been taken pass to the delivery window that displaced them. -/
def DeliveryWait.collect (l : Library) (x : DeliveryWait) : DeliveryWait :=
  { x with held := x.held + dueSlots (x.due.filter fun p => l.slotsKept p.1 == 0)
           due := x.due.filter fun p => l.slotsKept p.1 != 0 }

/-- R47: a waiting delivery window takes free slots for those that it neither holds nor has to come. -/
def DeliveryWait.take (free size : Nat) (x : DeliveryWait) : DeliveryWait :=
  { x with held := x.held + min free (size - (x.held + dueSlots x.due)) }

/-- The size of a tag's delivery window. -/
def Library.deliverySize (l : Library) (t : Tag) : Nat :=
  match l.windows t with
  | w :: _ => w.size
  | [] => 0

/-- R47: free slots go to the waiting delivery windows in the order in which they wait. -/
def Library.takeSlots (l : Library) : Nat → List DeliveryWait → List DeliveryWait
  | _, [] => []
  | free, x :: rest =>
    let y := x.take free (l.deliverySize x.tag)
    y :: Library.takeSlots l (free - (y.held - x.held)) rest

/-- R47: slots pass to the waiting delivery windows. -/
def Library.passSlots (l : Library) : Library :=
  let l := { l with buffer := { l.buffer with deliveryWait := l.buffer.deliveryWait.map (DeliveryWait.collect l) } }
  { l with buffer := { l.buffer with deliveryWait := l.takeSlots l.stagingFree l.buffer.deliveryWait } }

/-- R47: a delivery window that has waited is opened when it holds all its slots. -/
def Library.openWaitingDelivery (e : Env) (l : Library) (x : DeliveryWait) : Library :=
  let left := { l with buffer := { l.buffer with deliveryWait := l.buffer.deliveryWait.filter fun y => y.tag != x.tag } }
  match l.windows x.tag with
  | w :: _ => if w.size ≤ x.held then left.openWindow e x.tag w else l
  | [] => left

/-- R48: one window of the look-ahead waiting list is tried. -/
def Library.openLookAhead (e : Env) (l : Library) (t : Tag) : Library :=
  let left := { l with buffer := { l.buffer with lookWait := l.buffer.lookWait.filter fun u => u != t } }
  match l.lookAhead t with
  | some v =>
    if v.isOpen then left
    else if v.size ≤ l.stagingFree then left.openWindow e t v
    else l
  | none => left

/-! ## The course of a request -/

/-- R40: the segment of a window has been checked. -/
def Fetching.checked (g : Fetching) (w : Window) : Bool := g.segments.any fun s => s.book == w.book && s.checked

/-- R40: a segment's book is found OPEN or CLOSED. -/
def Fetching.check (g : Fetching) (w : Window) : Fetching :=
  { g with segments := g.segments.map fun s => if s.book == w.book then { s with checked := true } else s }

/-- R40: the request takes the boundary below a window's book as its stop. -/
def Fetching.cut (g : Fetching) (w : Window) : Fetching :=
  { g with windows := g.windows.filter fun v => v.book != w.book, finish := .bookUnassigned }

/-- R46, R40: the look-ahead window above the delivery window joins the waiting list, once the book of its segment has been checked. A second segment's
book is checked here, as its first window joins the list, and not when slots come free for that window (log entry 58). -/
def Library.wantLookAhead (l : Library) (t : Tag) (x : Entry) (g : Fetching) (v : Window) : Library :=
  if v.isOpen || l.buffer.lookWait.contains t then l
  else
    let wait := { l with buffer := { l.buffer with lookWait := l.buffer.lookWait ++ [t] } }
    if g.checked v then wait
    else if (l.book v.book).state = .unassigned then l.setEntry t (some { x with job := .fetch (g.cut v) })
    else wait.setEntry t (some { x with job := .fetch (g.check v) })

/-- R42, R43, R46, R75: a request takes its course: a delivered window is released, the end of its windows or a recorded stop at the
next sector ends it, an unopened delivery window is opened, and the look-ahead window is asked for once the delivery window is open
(log entry 49). -/
def Library.progress (e : Env) (t : Tag) : Nat → Library → Library
  | 0, l => l
  | n + 1, l =>
    match l.entry t with
    | none => l
    | some x =>
      match x.ended, x.job with
      | none, .fetch g =>
        match g.windows with
        | [] => l.endRequest t g.finish x.moved 0
        | w :: rest =>
          let next := x.record.addr.val + x.moved
          if w.address w.last < next then
            let l := l.setEntry t (some (x.setWindows rest))
            Library.progress e t n
              { l with buffer := { l.buffer with lookWait := l.buffer.lookWait.filter fun u => u != t } }
          else if w.stop.map (fun st => w.address st.sector) = some next then
            l.endRequest t ((w.stop.map Stop.outcome).getD .unreadable) x.moved 0
          else if w.state = .unopened then
            if l.buffer.deliveryWait.any (fun y => y.tag == t) then l else Library.progress e t n (l.openDelivery e t w)
          else match w.stop, rest with
            | none, v :: _ => l.wantLookAhead t x g v
            | _, _ => l
      | _, _ => l

/-- Every request takes its course, in ascending tag order. -/
def Library.progressAll (e : Env) (l : Library) : Library :=
  allTags.foldl (fun l t => Library.progress e t 24 l) l

/-- R46 to R49: what the staging pool does at an event that has changed its requests or released its slots. -/
def Library.stage (e : Env) (l : Library) : Library :=
  let l := (l.passSlots.progressAll e).passSlots
  let l := l.buffer.deliveryWait.foldl (fun l x => l.openWaitingDelivery e x) l
  let l := l.progressAll e
  l.buffer.lookWait.foldl (fun l t => l.openLookAhead e t) l

/-! ## Events at a window -/

/-- Each window of a tag is treated in turn, as its record then stands; a window that an earlier one's stop has released is gone. -/
def Library.eachWindow (l : Library) (t : Tag) (f : Library → Window → Library) : Library :=
  (l.windows t).foldl (fun l w =>
    match (l.windows t).find? fun v => v.same w with
    | some v => f l v
    | none => l) l

/-- R61: a PENDING window whose FILE has ended is resolved again. -/
def Library.resolvePending (e : Env) (l : Library) (t : Tag) : Library :=
  l.eachWindow t fun l w =>
    if w.state = .pending ∧ ¬ ((l.book w.book).filing ≤ w.frame ∧ w.frame < (l.book w.book).intake)
    then l.resolve e t w else l

/-- R70: a window whose item waits on a side that is unavailable withdraws it and turns. A window whose frame became LOST during a read that failed turns in the same way when the
side of its returned item is unavailable, and may stop SIDE_UNAVAILABLE where R63 has UNREADABLE for an outcome (log entry 66). -/
def Library.turnWindows (e : Env) (l : Library) (t : Tag) : Library :=
  l.eachWindow t fun l w =>
    match w.item with
    | some s =>
      if w.reading || l.available e s then l
      else
        let l := l.withdraw s (.fetch t w.book w.frame)
        if w.onTwin then l.holdFallback t w else l.twinFallback e t w
    | none => l

/-- R65, R68: the sectors of an outcome are placed in the window's slots. -/
def Window.receive (w : Window) (sectors : List Nat) (results : List ReadResult) : Window :=
  let src := if w.onTwin then Source.twin else .primary
  { w with sectors := w.sectors.mapIdx fun j s =>
      match (sectors.zip results).find? fun p => p.1 == w.first + j with
      | some (_, .ok x) => { s with source := src, data := x }
      | some (_, .corrected x) => { s with source := src, corrected := true, data := x }
      | some (_, .uncorrectable) => { s with failed := true }
      | some (_, .blank) => { s with failed := true }
      | none => s }

/-- R63: the stop of a window whose frame has become LOST. -/
def Library.stopLost (l : Library) (t : Tag) (w : Window) : Library :=
  match w.missing with
  | [] => l.setWindow t { w with item := none, reading := false }.judge
  | i :: _ => l.recordStop t w ⟨i, .unreadable⟩

/-- R64, R67, R68: the outcome of a window's read: the sectors that it leaves without a source turn to the next copy, or stop the window
when the frame has become LOST meanwhile (R63). -/
def Library.windowOutcome (e : Env) (l : Library) (t : Tag) (w : Window) (sectors : List Nat) (results : List ReadResult) :
    Library :=
  let w := { w.receive sectors results with reading := false, item := none }
  if (e.frame w.book w.frame).isLost then l.stopLost t w
  else if w.onTwin then l.holdFallback t w else l.twinFallback e t w

/-- R63: a frame becomes LOST while windows of it are open. -/
def Library.windowsLost (l : Library) (t : Tag) (b : Book) (f : Nat) : Library :=
  l.eachWindow t fun l w =>
    if w.book = b ∧ w.frame = f ∧ w.state = .sourcing ∧ w.reading = false then
      (l.release t w none).stopLost t w
    else l

/-- R66: a read that ended in a drive command failure returns its item, with its former age, to the side it was issued on. A window whose frame has
become LOST meanwhile stays SOURCING and stops at the outcome of the repeated read (R63; log entry 39), or turns when its side is unavailable (log entry 66). -/
def Library.windowFailed (l : Library) (t : Tag) (w : Window) (s : Side) (i : Item) : Library :=
  (l.giveBack s i).setWindow t { w with reading := false, item := some s }

end Sys2Proof.Machine
end

