-- ==== Sys2Proof/Machine/TwinWriter.lean ====
section
/-! DEFINITION. The twin hold list and escalation (R53 to R56), the re-read half (R52), and the Twin Writer's examination of a book
(R94 to R97). -/

namespace Sys2Proof.Machine

/-! ## Escalation -/

/-- R53: the held-sector total. -/
def Library.heldTotal (l : Library) : Nat := (l.buffer.hold.map fun h => h.data.length).sum

/-- R56: the flag that a held-sector total leaves. -/
def escalationAfter (was : Bool) (total : Nat) : Bool :=
  if was then decide (Config.escalateOff ≤ total) else decide (Config.escalateOn ≤ total)

/-- R56, R128: the total is tested, and a change is passed to the Mount Scheduler's copy and calls for a decision. -/
def Library.testEscalation (l : Library) : Library :=
  let flag := escalationAfter l.buffer.escalation l.heldTotal
  if flag = l.buffer.escalation then l
  else
    { l with buffer := { l.buffer with escalation := flag }
             scheduler := { l.scheduler with escalation := flag, decisionDue := true } }

/-! ## The re-read half -/

/-- R52: the re-read slots that a command keeps after its owner has let them go. -/
def Command.rereadSlots : Command → Nat
  | .reread _ _ n live => if live then 0 else n
  | .twinWrite _ _ n fromHold live => if live || fromHold then 0 else n
  | _ => 0

/-- R54, R55: the twin hold slots that a command keeps after its entry has left the list. -/
def Command.holdSlots : Command → Nat
  | .twinWrite _ _ n fromHold live => if live || !fromHold then 0 else n
  | _ => 0

/-- The slots that the commands in progress keep, by a measure of a command. -/
def Library.commandSlots (l : Library) (f : Command → Nat) : Nat :=
  (allDrives.map fun d => match (l.drive d).service with
    | some v => f v.command
    | none => 0).sum

/-- R52: the slots of a re-read record; a record that is only asked holds none. -/
def Reread.slots (r : Reread) : Nat := if r.state = .asked then 0 else r.len

/-- R45: the re-read slots free. -/
def Library.rereadFree (l : Library) : Nat :=
  Config.rereadSlots -
    ((allBooks.map fun b => ((l.twin b).rereads.map Reread.slots).sum).sum + l.commandSlots Command.rereadSlots)

/-- R45: the twin hold slots free. -/
def Library.holdFree (l : Library) : Nat := Config.holdSlots - (l.heldTotal + l.commandSlots Command.holdSlots)

/-- R96: a re-read record takes its place in ascending frame order. -/
def insertReread (r : Reread) : List Reread → List Reread
  | [] => [r]
  | q :: rest => if r.frame < q.frame then r :: q :: rest else q :: insertReread r rest

/-- R96: the re-read records of a book are changed. -/
def Library.mapRereads (l : Library) (b : Book) (f : List Reread → List Reread) : Library :=
  let t := l.twin b
  l.setTwin b { t with rereads := f t.rereads }

/-- R97: while a book has GRANTED records its re-read item stands on its primary side's list; otherwise none does. -/
def Library.syncReread (e : Env) (l : Library) (b : Book) : Library :=
  match (l.book b).primary with
  | some s =>
    if (l.twin b).rereads.any fun r => r.state == .granted then l.place e s (.twinReread b)
    else l.withdraw s (.twinReread b)
  | none => l

/-- R52: reservations are granted from the head of the waiting list as long as the head fits. -/
def Library.grantFrom (e : Env) : List (Book × Nat) → Library → Library
  | [], l => { l with buffer := { l.buffer with rereadWait := [] } }
  | (b, f) :: rest, l =>
    match (l.twin b).rereads.find? fun r => r.frame == f with
    | none => Library.grantFrom e rest l
    | some r =>
      if r.len ≤ l.rereadFree then
        Library.grantFrom e rest
          ((l.mapRereads b fun rs => rs.map fun q => if q.frame = f then { q with state := .granted } else q).syncReread e b)
      else { l with buffer := { l.buffer with rereadWait := (b, f) :: rest } }

/-- R52: re-read slots have been released. -/
def Library.grantRereads (e : Env) (l : Library) : Library := Library.grantFrom e l.buffer.rereadWait l

/-- R96, R52: a reservation of a frame's length is asked: granted at once when the half has enough free slots, else it joins the waiting
list. -/
def Library.askReread (e : Env) (l : Library) (b : Book) (f len : Nat) : Library :=
  if len ≤ l.rereadFree then
    (l.mapRereads b (insertReread ⟨f, len, .granted, []⟩)).syncReread e b
  else
    let l := l.mapRereads b (insertReread ⟨f, len, .asked, []⟩)
    { l with buffer := { l.buffer with rereadWait := l.buffer.rereadWait ++ [(b, f)] } }

/-- R52: reservations in ascending book number, then ascending frame. -/
def insertReservation (r : Book × Nat) : List (Book × Nat) → List (Book × Nat)
  | [] => [r]
  | q :: rest => if keyBefore [r.1.val, r.2] [q.1.val, q.2] then r :: q :: rest else q :: insertReservation r rest

/-- R52: the reservations that have joined the waiting list at one event stand in ascending book number, then ascending frame, behind those that waited. -/
def Library.orderReservations (was l : Library) : Library :=
  let waited := was.buffer.rereadWait.contains
  { l with buffer := { l.buffer with
    rereadWait := l.buffer.rereadWait.takeWhile waited ++ (l.buffer.rereadWait.dropWhile waited).foldr insertReservation [] } }

/-- R52: the command of a re-read record that is removed keeps the slots until its outcome, whose data is discarded. -/
def Command.orphanReread (b : Book) (gone : Nat → Bool) : Command → Command
  | .reread b' f n live => if b' == b && gone f then .reread b' f n false else .reread b' f n live
  | c => c

/-- R52, R96: the re-read records that a condition names are removed, with their slots or their places on the waiting list. Reservations are granted from the head of the list
as it then stands, also when the removal released no slots and only withdrew one that waited before them (log entry 65). -/
def Library.dropRereads (e : Env) (l : Library) (b : Book) (gone : Nat → Bool) : Library :=
  let l := (l.mapRereads b fun rs => rs.filter fun r => !gone r.frame).mapCommands (Command.orphanReread b gone)
  let l := { l with buffer := { l.buffer with
    rereadWait := l.buffer.rereadWait.filter fun p => !(p.1 == b && gone p.2) } }
  (l.syncReread e b).grantRereads e

/-! ## The twin record -/

/-- R96, R100, R102: a book whose twin work stops: its twin items are withdrawn and its re-read records removed. -/
def Library.stopTwinWork (e : Env) (l : Library) (b : Book) : Library :=
  (l.withdrawAll fun k => k == .twinWrite b || k == .twinReread b).dropRereads e b fun _ => true

/-- R95: VOID and LOST frames at the twin mark are passed over, in one event. -/
def Library.skipFrames (e : Env) (b : Book) : Nat → Library → Library
  | 0, l => l
  | n + 1, l =>
    let k := l.book b
    if k.twinMark < k.filing ∧ (e.frame b k.twinMark).skipped = true then
      Library.skipFrames e b n (l.setBook b { k with twinMark := k.twinMark + 1 })
    else l

/-- R94: the state of a book that has a twin and is not PAUSED, as its marks and its failed frame give it. -/
def twinStateOf (k : BookEntry) (failed : Option Nat) : TwinState :=
  if k.twinMark = k.filing then .caughtUp
  else if failed = some k.twinMark then .blocked
  else .working

/-- R96: the frames of a book's re-read window. -/
def rereadWindow (k : BookEntry) (failed : Option Nat) : List Nat :=
  let top := min (min (k.twinMark + Config.batchFrames) k.filing) (failed.getD k.filing)
  List.range' k.twinMark (top - k.twinMark)

/-- R96: reservations are asked for the filed frames of the window that are neither held nor recorded, in ascending frame order. -/
def Library.askWindow (e : Env) (l : Library) (b : Book) : Library :=
  (rereadWindow (l.book b) (l.twin b).failed).foldl (fun l f =>
    let entry := e.frame b f
    if entry.filed && (l.held b f).isNone && !(l.twin b).rereads.any (fun r => r.frame == f)
    then l.askReread e b f entry.length else l) l

/-- R95: the data of a frame for a twin write: held, or re-read. -/
def Library.twinData (l : Library) (b : Book) (f : Nat) : Option (Bool × List Sector) :=
  match l.held b f with
  | some h => some (true, h.data)
  | none =>
    match (l.twin b).rereads.find? fun r => r.frame == f && r.state == .ready with
    | some r => some (false, r.data)
    | none => none

/-- R95: a twin write item is placed for a filed frame at the twin mark whose data is present, unless a write is in progress. -/
def Library.wantTwinWrite (e : Env) (l : Library) (b : Book) (s : Side) : Library :=
  let k := l.book b
  if (e.frame b k.twinMark).filed && (l.twinData b k.twinMark).isSome && (l.twin b).writing.isNone
  then l.place e s (.twinWrite b) else l

/-- R95, R94: the Twin Writer examines a book: it passes VOID and LOST frames, judges the state, asks re-reads and places the twin write
item. A PAUSED book is left as it is (R100), so that a frame at its twin mark that becomes LOST is passed when the pause ends (R172; log entry 62).
The record of a book without a twin starts anew: a twin write that still runs on a removed twin (R8) is not the book's twin write in progress any more,
so that one of a twin that is added meanwhile can be placed and issued beside it (R98; log entry 64). -/
def Library.examine (e : Env) (l : Library) (b : Book) : Library :=
  match (l.book b).twin with
  | none => (l.stopTwinWork e b).setTwin b .none
  | some s =>
    if (l.twin b).state = .paused then l
    else
      let l := Library.skipFrames e b Config.framesPerBook l
      let t := l.twin b
      let st := twinStateOf (l.book b) t.failed
      let l := l.setTwin b { t with state := st }
      if st = .working then (l.askWindow e b).wantTwinWrite e b s else l.stopTwinWork e b

/-! ## The twin hold list -/

/-- R54: an entry whose twin write is in progress is passed over by demotion. -/
def Library.writingFrom (l : Library) (h : HoldEntry) : Bool :=
  match (l.twin h.book).writing with
  | some w => w.frame == h.frame && w.fromHold
  | none => false

/-- R54: the oldest entries are demoted until `k` slots are free: those kept and those demoted. -/
def demote (busy : HoldEntry → Bool) (k : Nat) : Nat → List HoldEntry → List HoldEntry × List HoldEntry
  | _, [] => ([], [])
  | free, h :: rest =>
    if k ≤ free then (h :: rest, [])
    else if busy h then
      let (kept, gone) := demote busy k free rest
      (h :: kept, gone)
    else
      let (kept, gone) := demote busy k (free + h.data.length) rest
      (kept, h :: gone)

/-- R54: the entries that the joining of an entry keeps in the list and those that it demotes. -/
def Library.demotion (l : Library) (h : HoldEntry) : List HoldEntry × List HoldEntry :=
  demote l.writingFrom h.data.length l.holdFree l.buffer.hold

/-- R53, R54, R56: an entry joins the tail of the twin hold list with the demotions that it needs, as one event with the test of the total. -/
def Library.joinHold (l : Library) (h : HoldEntry) : Library :=
  { l with buffer := { l.buffer with hold := (l.demotion h).1 ++ [h] } }.testEscalation

/-- R95, R52: the Twin Writer examines the books that one event concerns, in ascending book number. -/
def Library.examineBooks (e : Env) (l : Library) (p : Book → Bool) : Library :=
  (allBooks.filter p).foldl (fun l b => l.examine e b) l

/-- R55: entries leave the twin hold list, and the total is tested. -/
def Library.leaveHold (l : Library) (gone : HoldEntry → Bool) : Library :=
  { l with buffer := { l.buffer with hold := l.buffer.hold.filter fun h => !gone h } }.testEscalation

/-- R52, R8, R172: the source of a twin write in progress is gone, because the frame has become LOST or the twin was removed: the command keeps
the slots until its outcome. -/
def Command.orphanTwinWrite (b : Book) (gone : Nat → Bool) : Command → Command
  | .twinWrite b' f n h live => if b' == b && gone f then .twinWrite b' f n h false else .twinWrite b' f n h live
  | c => c

/-- R172, R102: a frame of a book has become LOST: its re-read record is removed, a failed frame that it was is cleared, and the Twin
Writer examines the book. -/
def Library.twinFrameLost (e : Env) (l : Library) (b : Book) (f : Nat) : Library :=
  let t := l.twin b
  let l := l.setTwin b { t with failed := if t.failed = some f then none else t.failed }
  let l := l.mapCommands (Command.orphanTwinWrite b fun g => g == f)
  (l.dropRereads e b fun g => g == f).examine e b

end Sys2Proof.Machine
end

