-- ==== Sys2Proof/Machine/Filing.lean ====
section
/-! DEFINITION. Filing (chapter 5.1, 5.2): the FILE arrival checks and the class a continuation takes (R35, R36, R84), and
unwinding (R88, R89). -/

namespace Sys2Proof.Config

/-- FREE VALUE. The intended class of a CONT that passes check 7 of R35 by an accepted CONT below it when the head search of R36 finds
no head: the specification names no class there. The arguments are the book's number and the frame (log entry 13). -/
opaque classWithoutHead : Nat → Nat → FeeClass

end Sys2Proof.Config

namespace Sys2Proof.Machine

/-- R12: the accepted filing, not yet written, that names a frame. -/
def Library.acceptedAt (l : Library) (b : Book) (f : Nat) : Option Filing :=
  allTags.findSome? fun t =>
    match l.fileOf t with
    | some (_, g) => if g.book = b ∧ g.frame = f then some g else none
    | none => none

/-- R12, R35: how a frame counts in the checks: by its directory entry below the filing mark, and by the kind its FILE will give it between the
filing mark and the intake mark. -/
def Library.acceptMark (e : Env) (l : Library) (b : Book) (f : Nat) : HeadMark :=
  if f < (l.book b).filing then (e.frame b f).mark
  else match l.acceptedAt b f with
    | some g => if g.isHead then .head g.cls else .cont
    | none => .none

/-- R35, check 7: looking down, the first frame that is not passed over is HEAD, CONT, or LOST and a head. -/
def hasInstrument (mark : Nat → HeadMark) : Nat → Bool
  | 0 => false
  | n + 1 =>
    match mark n with
    | .head _ => true
    | .cont => true
    | .pass => hasInstrument mark n
    | .none => false

/-- R36: the intended class of a FILE. -/
def Library.intendedClass (e : Env) (l : Library) (r : RequestRecord) (b : Book) (f : Nat) : FeeClass :=
  match r.flag with
  | .head => r.cls
  | .cont =>
    match headSearch (l.acceptMark e b) f with
    | some (_, c) => c
    | none => Config.classWithoutHead b.val f

/-- R35: the FILE arrival checks in their order; the first that fails gives the outcome. -/
def Library.fileCheck (e : Env) (l : Library) (r : RequestRecord) (b : Book) : Option Outcome :=
  let k := l.book b
  let f := frameOf r.addr.val
  if r.count.val < 1 ∨ Config.maxFile < r.count.val then some .badRequest
  else if sectorOf r.addr.val ≠ 0 then some .notAtMark
  else if k.state = .unassigned then some .bookUnassigned
  else if k.state = .closed then some .bookClosed
  else if (match k.primary with
    | some s => l.available e s
    | none => false) = false then some .sideUnavailable
  else if f ≠ k.intake ∨ Config.framesPerBook ≤ f then some .notAtMark
  else if r.flag = .cont ∧ hasInstrument (l.acceptMark e b) f = false then some .badContinuation
  else none

/-- R84: the kind and class of the entry of a frame that has been written. -/
def Env.filedEntry (e : Env) (g : Filing) : Frame :=
  if g.isHead then .head g.cls g.len
  else match headSearch (fun n => (e.frame g.book n).mark) g.frame with
    | some (_, c) => .cont c g.len
    | none => .head g.cls g.len

/-- R83, R85: the filing mark of a book rises by one; without a twin the twin mark rises with it (R4). -/
def Library.raiseFiling (l : Library) (b : Book) : Library :=
  let k := l.book b
  let mark := k.filing + 1
  l.setBook b { k with filing := mark, twinMark := if k.twin.isNone then mark else k.twinMark }

/-- R88, R50: a FILE that has not started its write ends; the rest of a burst whose pull has been sent is discarded. -/
def Library.unwindFile (l : Library) (t : Tag) (outcome : Outcome) : Library :=
  match l.fileOf t with
  | some (_, g) =>
    if g.phase = .writing then l
    else l.endRequest t outcome 0 (if g.phase = .intake ∧ g.pulled then g.len - g.received.length else 0)
  | none => l

/-- R88: the intake mark of a book is set to its filing mark plus the number of its FILEs still live. -/
def Library.lowerIntake (l : Library) (b : Book) : Library :=
  let k := l.book b
  l.setBook b { k with intake := k.filing + l.liveFiles b }

/-- R88: the book of a FILE that waits, unstarted, for a primary side that is unavailable. -/
def Library.strandedBook (e : Env) (l : Library) (t : Tag) : Option Book :=
  match l.fileOf t with
  | some (_, g) =>
    if g.phase = .writing then none
    else match (l.book g.book).primary with
      | some s => if l.available e s then none else some g.book
      | none => some g.book
  | none => none

/-- R88: the FILEs of books whose primary side is unavailable unwind with SIDE_UNAVAILABLE. -/
def Library.unwindStranded (e : Env) (l : Library) : Library :=
  allTags.foldl (fun l t =>
    match l.strandedBook e t with
    | some b => (l.unwindFile t .sideUnavailable).lowerIntake b
    | none => l) l

/-- R89: every FILE in the record books that has not started its write unwinds with POWER_HOLD. -/
def Library.unwindAll (l : Library) : Library :=
  allTags.foldl (fun l t =>
    match l.fileOf t with
    | some (_, g) => (l.unwindFile t .powerHold).lowerIntake g.book
    | none => l) l

end Sys2Proof.Machine
end

