-- ==== Sys2Proof/Machine/Care.lean ====
section
/-! DEFINITION. The Care Unit (chapter 9): counts into health records and drive counters (R65, R115, R161) with the rescue trigger (R166), and the
rescue: its start (R168, R169), its batches (R170 to R173), the loss of a frame (R172) and the switch (R175). -/

namespace Sys2Proof.Machine

/-! ## Counting and the trigger -/

/-- Table 9-1: sector results CORRECTED. -/
def countCorrected (rs : List ReadResult) : Nat :=
  (rs.filter fun r => match r with
    | .corrected _ => true
    | _ => false).length

/-- Table 9-1: sector results UNCORRECTABLE, or BLANK inside the frame's length. -/
def countFailed (rs : List ReadResult) : Nat :=
  (rs.filter fun r => match r with
    | .uncorrectable => true
    | .blank => true
    | _ => false).length

/-- R166: the rescue trigger, tested at an event that counts a result into a side's record. -/
def Library.trigger (e : Env) (l : Library) (s : Side) : Library :=
  let h := l.health s
  if (l.role s).holds.isSome ∧ (e.threshold ≤ h.corrected ∨ 0 < h.uncorrectable) ∧ ¬ s ∈ l.care.queue
      ∧ l.care.rescue.map RescueRecord.source ≠ some s then
    if l.care.queue.length < Config.queueSlots then
      { l with care := { l.care with queue := l.care.queue ++ [s], seekDue := true } }
    else l.fault e { FaultRecord.of e .rescueQueueFull with book := (l.role s).holds, side := some s }
  else l

/-- R161: results are counted into a side's health record, saturating. -/
def Health.count (h : Health) (corrected failed : Nat) : Health :=
  { h with corrected := satAdd Config.max16 h.corrected corrected
           uncorrectable := satAdd Config.max8 h.uncorrectable failed }

/-- R115: results are counted into a drive's error counters, saturating. -/
def DriveRecord.count (r : DriveRecord) (corrected failed : Nat) : DriveRecord :=
  { r with corrected := satAdd Config.max8 r.corrected corrected
           uncorrectable := satAdd Config.max8 r.uncorrectable failed }

/-- R65, R115, R161, R166, R177: a read or verify outcome is counted for the side that gave it and the drive that read it; a failed result
records READ_UNCORRECTABLE once; a counted result tests the trigger, whose RESCUE_QUEUE_FULL comes second (log entry 44). -/
def Library.countRead (e : Env) (l : Library) (d : Drive) (s : Side) (b : Book) (f : Nat) (t : Option Tag)
    (rs : List ReadResult) : Library :=
  let c := countCorrected rs
  let u := countFailed rs
  let l := (l.setHealth s ((l.health s).count c u)).setDrive d ((l.drive d).count c u)
  let l := if 0 < u then
      l.fault e { FaultRecord.of e .readUncorrectable with
        book := some b, side := some s, frame := some f, drive := some d, tag := t }
    else l
  if 0 < c + u then l.trigger e s else l

/-- R161, R166: a WRITE_FAIL is counted into the side's health record and tests the trigger. -/
def Library.countWriteFail (e : Env) (l : Library) (s : Side) : Library :=
  (l.setHealth s ((l.health s).count 0 1)).trigger e s

/-- R177: WRITE_FAILED. -/
def Library.faultWrite (e : Env) (l : Library) (b : Book) (s : Side) (f : Nat) (d : Drive) (t : Option Tag) : Library :=
  l.fault e { FaultRecord.of e .writeFailed with
    book := some b, side := some s, frame := some f, drive := some d, tag := t }

/-! ## The rescue record -/

/-- R168: the other side of a book whose rescue has a source. -/
def Library.otherSide (l : Library) (b : Book) (source : Side) : Option Side :=
  let k := l.book b
  if k.primary = some source then k.twin else k.primary

/-- R168: the first side of the blank pool whose cartridge differs from the source's and from the other side's. -/
def Library.findTarget (l : Library) (b : Book) (source : Side) : Option Side :=
  l.pool.find? fun p =>
    slotOf p != slotOf source && (match l.otherSide b source with
      | some o => slotOf p != slotOf o
      | none => true)

/-- R168, R160: a target takes role RESCUE_TARGET with the book, its health record set anew. -/
def Library.takeTarget (l : Library) (t : Side) (b : Book) : Library :=
  ((l.setRole t (.rescueTarget b)).setHealth t .zero).callPatrol

/-- R168: the first queued side for which a target is found. -/
def Library.firstRescue (l : Library) : Option (Side × Book × Side) :=
  l.care.queue.findSome? fun s =>
    match (l.role s).holds with
    | some b => (l.findTarget b s).map fun t => (s, b, t)
    | none => none

/-- R169, R174: a rescue wait stands; NO_BLANK is recorded when it begins. -/
def Library.waitRescue (e : Env) (l : Library) (b : Option Book) (s : Side) : Library :=
  if l.care.waiting then l
  else { l with care := { l.care with waiting := true } }.fault e
    { FaultRecord.of e .noBlank with book := b, side := some s }

/-- R168, R169, R174: a rescue begins, or the record without a target finds one, or the rescue waits. A record that is stopped as well takes its target
and stays stopped (R176; log entry 63). -/
def Library.seekRescue (e : Env) (l : Library) : Library :=
  let l := { l with care := { l.care with seekDue := false } }
  match l.care.rescue with
  | some r =>
    if r.target.isSome then l
    else match l.findTarget r.book r.source with
      | some t =>
        let l := l.takeTarget t r.book
        { l with care := { l.care with rescue := some { r with target := some t }, waiting := false } }
      | none => l.waitRescue e (some r.book) r.source
  | none =>
    match l.care.queue with
    | [] => { l with care := { l.care with waiting := false } }
    | s :: _ =>
      match l.firstRescue with
      | some (s, b, t) =>
        let l := l.takeTarget t b
        { l with care := { l.care with
            queue := l.care.queue.filter fun q => q != s
            rescue := some ⟨s, l.role s == .twin b, b, some t, 0, false⟩
            waiting := false } }
      | none => l.waitRescue e (l.role s).book? s

/-- R9: a side or a book is under rescue. -/
def Library.sideUnderRescue (l : Library) (s : Side) : Bool :=
  match l.care.rescue with
  | some r => r.source == s || r.target == some s
  | none => false
/-- R9: the rescue record names a book. -/
def Library.bookUnderRescue (l : Library) (b : Book) : Bool := l.care.rescue.any fun r => r.book == b

/-! ## Batches -/

/-- R170: the chased mark. -/
def Library.chasedMark (l : Library) (r : RescueRecord) : Nat :=
  if r.ofTwin then (l.book r.book).twinMark else (l.book r.book).filing

/-- R170: the frame record of a frame at a batch's formation. -/
def batchFrame (entry : Frame) (f : Nat) : BatchFrame :=
  if entry.filed then
    ⟨f, entry.length, .toRead, List.replicate entry.length none, none, false, false, false⟩
  else ⟨f, 0, .skipped, [], none, false, false, false⟩

/-- R173: WRITTEN, SKIPPED or LOST. -/
def BatchFrame.isOver (x : BatchFrame) : Bool := x.state == .written || x.state == .skipped || x.state == .lost

/-- R51: the rescue-half slots of a batch. -/
def batchSlots (xs : List BatchFrame) : Nat :=
  (xs.map fun x => if x.state = .skipped ∨ x.state = .lost then 0 else x.len).sum

/-- R170: the sectors of a frame still without data. -/
def BatchFrame.lacking (x : BatchFrame) : List Nat :=
  (List.range x.len).filter fun i => ((x.data[i]?).getD none).isNone

/-- R171: the side of a copy. -/
def Library.copySide (l : Library) (r : RescueRecord) : Copy → Option Side
  | .source => some r.source
  | .other => l.otherSide r.book r.source

/-- Table 9-3: the side copies open to a frame, in order; the twin only for frames below the twin mark. -/
def Library.copies (l : Library) (r : RescueRecord) (x : BatchFrame) : List Copy :=
  if r.ofTwin || ((l.otherSide r.book r.source).isSome && decide (x.frame < (l.book r.book).twinMark))
  then [.source, .other] else [.source]

/-- R171: a frame takes each copy at most once. -/
def BatchFrame.failedOn (x : BatchFrame) : Copy → Bool
  | .source => x.sourceFailed
  | .other => x.otherFailed

/-- R171: the side of a copy is available. -/
def Library.copyAvailable (e : Env) (l : Library) (r : RescueRecord) (c : Copy) : Bool :=
  match l.copySide r c with
  | some s => l.available e s
  | none => false

/-- R171: the sectors still without data are copied from a hold entry. -/
def BatchFrame.fillFrom (x : BatchFrame) (h : HoldEntry) : BatchFrame :=
  { x with state := .ready, waits := none
           data := x.data.mapIdx fun i s => match s with
             | some v => some v
             | none => some ((h.data[i]?).getD Sector.zeros) }

/-- R171, R172: a frame moves to its next copy: an available side, else the hold entry, else the first side that it has not been read from.
With none of these it is lost. -/
def Library.turnFrame (e : Env) (l : Library) (r : RescueRecord) (x : BatchFrame) : BatchFrame :=
  let untried := (l.copies r x).filter fun c => !x.failedOn c
  match untried.find? fun c => l.copyAvailable e r c with
  | some c => { x with waits := some c }
  | none =>
    match l.held r.book x.frame with
    | some h => x.fillFrom h
    | none =>
      match untried with
      | c :: _ => { x with waits := some c }
      | [] => { x with state := .lost, waits := none }

/-- R170, R171: the frames of a batch at its formation, each TO_READ one with its first copy. -/
def Library.formBatch (e : Env) (l : Library) (r : RescueRecord) : List BatchFrame :=
  let top := min (r.copyMark + Config.batchFrames) (l.chasedMark r)
  (List.range' r.copyMark (top - r.copyMark)).map fun f =>
    let x := batchFrame (e.frame r.book f) f
    if x.state = .toRead then l.turnFrame e r x else x

/-- R45, R51: the rescue-half slots reserved. -/
def Library.rescueUsed (l : Library) : Nat := (l.care.batch.map batchSlots).getD 0

/-- R45: the rescue-half slots free. -/
def Library.rescueFree (l : Library) : Nat := Config.rescueSlots - l.rescueUsed

/-- R170, R171: the rescue read items follow the frames that wait on each side. -/
def Library.syncReads (e : Env) (l : Library) (r : RescueRecord) (xs : List BatchFrame) : Library :=
  [Copy.source, Copy.other].foldl (fun l c =>
    match l.copySide r c with
    | some s =>
      if xs.any fun x => x.state == .toRead && x.waits == some c then l.place e s .rescueRead
      else l.withdraw s .rescueRead
    | none => l) l

/-- R173: the rescue write item stands from the event where the lowest frame that is neither SKIPPED nor LOST becomes READY until the batch is
complete. -/
def Library.syncWrites (e : Env) (l : Library) (t : Side) (xs : List BatchFrame) : Library :=
  match xs.find? fun x => x.state != .skipped && x.state != .lost with
  | some x =>
    if xs.all BatchFrame.isOver then l.withdraw t .rescueWrite
    else if x.state = .toRead then l else l.place e t .rescueWrite
  | none => l.withdraw t .rescueWrite

/-- R170: the rescue commands in progress lose their batch. -/
def Command.orphanRescue : Command → Command
  | .rescueRead b f ss _ => .rescueRead b f ss false
  | .rescueWrite b f _ => .rescueWrite b f false
  | c => c

/-- R174, R176: the batch is discarded with its slots, and its items are withdrawn. -/
def Library.dropBatch (l : Library) : Library :=
  let l := (l.withdrawAll fun k => k == .rescueRead || k == .rescueWrite).mapCommands Command.orphanRescue
  { l with care := { l.care with batch := none } }

/-! ## The switch -/

/-- R175: a write to the source for the book is in progress. -/
def Library.sourceWriting (l : Library) (r : RescueRecord) : Bool :=
  if r.ofTwin then (l.twin r.book).writing.isSome
  else allTags.any fun t => (l.fileOf t).any fun p => p.2.book == r.book && p.2.phase == .writing

/-- R175: the items of a book that a switch moves. -/
def Library.movesWith (l : Library) (b : Book) : ItemKind → Bool
  | .fetch _ b' _ => b' == b
  | .file t => (l.fileOf t).any fun p => p.2.book == b
  | .twinWrite b' => b' == b
  | .twinReread b' => b' == b
  | _ => false

/-- R73: windows of the book that wait on the source wait on the target. -/
def Window.moveItem (b : Book) (source target : Side) (w : Window) : Window :=
  if w.book = b ∧ w.item = some source then { w with item := some target } else w

/-- R73, R93, R102, R175: the book's items on the source's list move to the target's, with their placement times kept. -/
def Library.moveItems (l : Library) (b : Book) (source target : Side) : Library :=
  let moving := (l.items source).filter fun i => l.movesWith b i.kind
  let l := l.setItems source ((l.items source).filter fun i => !l.movesWith b i.kind)
  let l := moving.foldl (fun l i => l.giveBack target i) l
  allTags.foldl (fun l t =>
    if (l.windows t).any fun w => w.book == b && w.item == some source then
      l.setWindows t ((l.windows t).map (Window.moveItem b source target)) else l) l

/-- R175: the switch, but for the examination of the book by the Twin Writer, which follows the last switch of the event. -/
def Library.switch (l : Library) (r : RescueRecord) (target : Side) : Library :=
  let k := l.book r.book
  let l := l.setBook r.book
    (if r.ofTwin then { k with twin := some target } else { k with primary := some target })
  let l := (l.setRole target (if r.ofTwin then .twin r.book else .primary r.book)).setRole r.source (.retired r.book)
  let l := l.setHealth target .zero
  let l := { l with care := { l.care with rescue := none, batch := none, seekDue := true, patrolDue := true } }
  let l := l.moveItems r.book r.source target
  let t := l.twin r.book
  let l := l.setTwin r.book
    (if r.ofTwin then { t with state := if t.state = .paused then .working else t.state }
     else { t with failed := none })
  l

/-! ## The course of a rescue -/

/-- R170, R173: the items of the rescue leave the lists: no frame waits on a side, and none is to be written. -/
def Library.withdrawRescue (l : Library) : Library := l.withdrawAll fun k => k == .rescueRead || k == .rescueWrite

/-- R173, R170: a complete batch raises the copy mark and releases its slots, and its items leave the lists. -/
def Library.completeBatch (l : Library) (r : RescueRecord) (xs : List BatchFrame) : Library :=
  let l := l.withdrawRescue
  { l with care := { l.care with rescue := some { r with copyMark := r.copyMark + xs.length }, batch := none } }

/-- R168, R170, R173, R175: the rescue goes as far as it can without a command: it begins, forms batches, passes those that are complete, and
takes the switch. -/
def Library.runRescue (e : Env) : Nat → Library → Library
  | 0, l => l
  | n + 1, l =>
    let l := if l.care.seekDue then l.seekRescue e else l
    match l.care.rescue with
    | some r =>
      match r.target with
      | some target =>
        if r.stopped then l
        else match l.care.batch with
          | none =>
            if r.copyMark < l.chasedMark r then
              Library.runRescue e n { l with care := { l.care with batch := some (l.formBatch e r) } }
            else if r.copyMark = l.chasedMark r ∧ l.sourceWriting r = false then
              Library.runRescue e n (l.switch r target)
            else l
          | some xs =>
            if xs.all BatchFrame.isOver then Library.runRescue e n (l.completeBatch r xs)
            else (l.syncReads e r xs).syncWrites e target xs
      | none => l
    | none => l

/-- R175: the switches that lead from one library to another have given a book another side. -/
def Library.switched (was l : Library) (b : Book) : Bool :=
  (was.book b).primary != (l.book b).primary || (was.book b).twin != (l.book b).twin

/-- The rescue's part in the reactions of an event; the Twin Writer then examines the books whose sides were switched, in ascending book
number (R102, R52). -/
def Library.rescueReaction (e : Env) (l : Library) : Library :=
  let a := Library.runRescue e 1100 l
  a.examineBooks e (Library.switched l a)

/-- The frame records of the batch are changed. -/
def Library.mapBatch (l : Library) (f : BatchFrame → BatchFrame) : Library :=
  { l with care := { l.care with batch := l.care.batch.map fun xs => xs.map f } }

/-- R11, R172: a HEAD or CONT entry becomes LOST, with its kind and class retained. -/
def Frame.lose : Frame → Frame
  | .head c _ => .lost true c
  | .cont c _ => .lost false c
  | x => x

/-- R172: what the other blocks do when a frame has become LOST. -/
def Library.frameLost (e : Env) (l : Library) (b : Book) (f : Nat) (source : Side) : Library :=
  let l := l.fault e { FaultRecord.of e .frameLost with book := some b, side := some source, frame := some f }
  let l := allTags.foldl (fun l t => l.windowsLost t b f) l
  l.twinFrameLost e b f

/-- R176: the rescue stops. -/
def Library.stopRescue (l : Library) : Library :=
  match l.care.rescue with
  | some r =>
    let l := l.dropBatch
    { l with care := { l.care with rescue := some { r with stopped := true } } }
  | none => l

end Sys2Proof.Machine
end

