-- ==== Sys2Proof/Machine/Mechanism.lean ====
section
/-! DEFINITION. Drives and the picker (chapter 6) and the cartridges' comings and goings (R17, R18): spin up and spin down, unloads, moves
with their begin checks, completions and failures. -/

namespace Sys2Proof.Machine

/-! ## Presence -/

/-- R17: the lower side of a cartridge that is PRIMARY, TWIN or RESCUE_TARGET. -/
def Library.inUseSide (l : Library) (s : Slot) : Option Side := (sidesOf s).find? fun d => (l.role d).inUse

/-- R177: CARTRIDGE_MISSING for a slot's cartridge that holds a side in use. -/
def Library.faultMissing (e : Env) (l : Library) (s : Slot) (d : Option Drive) : Library :=
  match l.inUseSide s with
  | some d' => l.fault e { FaultRecord.of e .cartridgeMissing with
      book := (l.role d').book?, side := some d', drive := d, slot := some s }
  | none => l

/-- R17, R176: the rescue names a cartridge as its source's or its target's. -/
def RescueRecord.usesSlot (r : RescueRecord) (s : Slot) : Bool :=
  slotOf r.source == s || r.target.map slotOf == some s

/-- R17: a removal. -/
def Library.removal (e : Env) (l : Library) (s : Slot) : Library :=
  let l := l.setLocation s .absent
  let l := (sidesOf s).foldl (fun l d => if l.role d = .blank then l.setRole d .unlisted else l) l
  let l := if l.care.queue.any fun q => slotOf q == s then
      { l with care := { l.care with queue := l.care.queue.filter fun q => slotOf q != s, seekDue := true } }
    else l
  let l := l.faultMissing e s none
  if l.care.rescue.any fun r => r.usesSlot s then l.stopRescue else l

/-- R176: the cartridges of the source and of the target are present; a record without a target has only its source's (log entry 45). -/
def Library.rescuePresent (l : Library) (r : RescueRecord) : Bool :=
  l.location (slotOf r.source) != .absent && (match r.target with
    | some t => l.location (slotOf t) != .absent
    | none => true)

/-- R18: UNLISTED or RETIRED. -/
def Role.isFree : Role → Bool
  | .unlisted => true
  | .retired _ => true
  | _ => false

/-- R18: an insertion. -/
def Library.insertion (l : Library) (s : Slot) : Library :=
  let l := l.setLocation s .inSlot
  if (l.inUseSide s).isSome then
    match l.care.rescue with
    | some r =>
      if r.stopped ∧ r.usesSlot s ∧ l.rescuePresent r then
        { l with care := { l.care with rescue := some { r with stopped := false } } }
      else l
    | none => l
  else if (sidesOf s).all fun d => (l.role d).isFree then
    (sidesOf s).foldl (fun l d => (l.setRole d .unlisted).setHealth d .zero) l
  else l

/-! ## Spin up, spin down, unload -/

/-- R108: spin up is sent and its limit starts. -/
def Library.sendSpinUp (e : Env) (l : Library) (d : Drive) : Library :=
  (l.setDrive d { l.drive d with state := .spinUp, limitStart := e.now }).emit (.spinUp d)

/-- R110: spin down is sent and its limit starts. -/
def Library.sendSpinDown (e : Env) (l : Library) (d : Drive) : Library :=
  (l.setDrive d { l.drive d with state := .spinDown, limitStart := e.now }).emit (.spinDown d)

/-- R111, R113: a RETURN of a drive's cartridge joins the move list, unless it is there. -/
def Library.askReturn (l : Library) (d : Drive) (reason : ReturnReason) : Library :=
  match l.mountedSide d with
  | some s =>
    let m := Move.back (slotOf s) (some d) reason
    if l.picker.moves.any fun x => x.drive? == some d && !x.byScheduler then l
    else { l with picker := { l.picker with moves := l.picker.moves ++ [m] } }
  | none => l

/-- R113: a RETURN of a drive becomes its failure return, where it stands on the list (log entry 67). -/
def Move.forFailure (d : Drive) : Move → Move
  | .back s (some d') q => if d' = d then .back s (some d') .failure else .back s (some d') q
  | m => m

/-- R113: the failure return of a drive: a RETURN of its cartridge that waits on the list (asked again at a vacancy, log entry 60) becomes it at its place; otherwise one is
asked and joins the tail (log entry 67). -/
def Library.askFailureReturn (l : Library) (d : Drive) : Library :=
  { l with picker := { l.picker with moves := l.picker.moves.map (Move.forFailure d) } }.askReturn d .failure

/-- R111: an unloading drive that has stopped asks its RETURN, unless the picker is FAULTED. -/
def Library.askUnload (l : Library) (d : Drive) : Library :=
  if l.picker.state = .faulted then l else l.askReturn d .unload

/-- R111: a drive is chosen to unload. -/
def Library.chooseUnload (e : Env) (l : Library) (d : Drive) : Library :=
  let l := (l.setDrive d { l.drive d with unload := true }).callPatrol
  match (l.drive d).state with
  | .ready => l.sendSpinDown e d
  | .stopped => l.askUnload d
  | _ => l

/-- R109, R111: where a drive goes from ACTIVE or from a ready report. -/
def Library.toReady (e : Env) (l : Library) (d : Drive) : Library :=
  if (l.drive d).unload then l.sendSpinDown e d
  else l.setDrive d { l.drive d with state := .ready }

/-- R109: the outcome of a drive's command: the item in service becomes absent, and the drive's times and count are set. -/
def Library.finishCommand (e : Env) (l : Library) (d : Drive) (patrol : Bool) : Library :=
  let l := l.setDrive d { l.drive d with service := none, failures := 0, lastUse := e.now }
  let l := if patrol then l else { l with scheduler := { l.scheduler with quiet := e.now } }
  l.toReady e d

/-! ## Moves -/

/-- R137: the patrol mount record becomes absent when it names a side. -/
def Library.dropPatrolMount (l : Library) (s : Side) : Library :=
  if l.scheduler.patrolMount = some s then
    { l with scheduler := { l.scheduler with patrolMount := none, decisionDue := true } } else l

/-- R137: the patrol mount record becomes absent when a move is its LOAD. -/
def Library.dropPatrolLoad (l : Library) : Move → Library
  | .load s f _ => l.dropPatrolMount (sideOf s f)
  | .back _ _ _ => l

/-- R121, R122: the picker becomes FAULTED: the moves that the Mount Scheduler asked are dropped, and it is told. -/
def Library.faultPicker (l : Library) : Library :=
  let l := l.picker.moves.foldl Library.dropPatrolLoad l
  ({ l with picker := { l.picker with
      state := .faulted, moves := l.picker.moves.filter fun m => !m.byScheduler, awaitCaddy := false } }).callDecision

/-- R121, R118: PICKER_FAULT with the slot and the drive of a move. -/
def Library.faultMove (e : Env) (l : Library) (m : Move) : Library :=
  l.fault e { FaultRecord.of e .pickerFault with drive := m.drive?, slot := some m.slot }

/-- R118: the conditions of a move, but for the home slot of a RETURN. -/
def Library.moveAllowed (e : Env) (l : Library) : Move → Bool
  | .load s f d =>
    e.hasDrive d && (l.drive d).state == .empty && l.location s == .inSlot && l.seated s && l.available e (sideOf s f)
  | .back s d _ =>
    match d with
    | some d => (l.drive d).state == .stopped || (l.drive d).state == .failed
    | none => l.location s == .inPicker

/-- R118: the home slot of a RETURN reads seated. -/
def Library.homeSeated (l : Library) : Move → Bool
  | .load _ _ _ => false
  | .back s _ _ => l.seated s

/-- R118: a move is begun. -/
def Library.beginMove (e : Env) (l : Library) (m : Move) : Library :=
  let l := { l with picker := { l.picker with
      state := .moving, record := some m, limitStart := e.now, awaitCaddy := false } }.emit (.move m)
  match m with
  | .load _ _ d => l.setDrive d { l.drive d with state := .loading }
  | .back _ (some d) _ =>
    if (l.drive d).state = .failed then l else l.setDrive d { l.drive d with state := .unloading }
  | .back _ none _ => l

/-- R118, R111, R122: a move is dropped without motion. A RETURN whose home slot reads seated is dropped for that, whatever else fails
(log entry 43). -/
def Library.dropMove (e : Env) (l : Library) (m : Move) : Library :=
  match m with
  | .load _ _ _ => (l.dropPatrolLoad m).callDecision
  | .back _ d reason =>
    let seated := l.homeSeated m
    let l := if seated then l.faultMove e m else l
    match d with
    | some d =>
      let r := l.drive d
      l.setDrive d { r with unload := false, askAgain := if seated then some reason else r.askAgain }
    | none => if seated then l.faultPicker else l

/-- R118: the move at the head of the list is begun or dropped, and after a drop the next is tried; nothing is begun in HOLD. -/
def Library.tryMoves (e : Env) : Nat → Library → Library
  | 0, l => l
  | n + 1, l =>
    if e.hold ∨ l.picker.state ≠ .idle then l
    else match l.picker.moves with
      | [] => l
      | m :: rest =>
        let l := { l with picker := { l.picker with moves := rest } }
        if l.moveAllowed e m && !l.homeSeated m then l.beginMove e m
        else Library.tryMoves e n (l.dropMove e m)

/-- R119: a drive's cartridge has left it. -/
def DriveRecord.emptied (r : DriveRecord) : DriveRecord :=
  { r with state := if r.state = .failed then .failed else .empty, unload := false, askAgain := none }

/-- R119: the move in progress is complete. -/
def Library.completeMove (e : Env) (l : Library) (m : Move) : Library :=
  let l := { l with picker := { l.picker with state := .idle, record := none, awaitCaddy := false } }
  match m with
  | .load s f d =>
    let l := (l.setLocation s (.inDrive d f)).callPatrol
    (l.setDrive d { l.drive d with mountTime := e.now }).sendSpinUp e d
  | .back s d _ =>
    let l := l.setLocation s .inSlot
    let l := match d with
      | some d => l.setDrive d (l.drive d).emptied
      | none => l
    if l.seated s then l else l.removal e s

/-- R120: the retry is made: the move command is sent again. -/
def Library.resend (e : Env) (l : Library) (m : Move) : Library :=
  { l with picker := { l.picker with limitStart := e.now, awaitCaddy := false } }.emit (.move m)

/-- R114: a failure return that meets an empty grip has failed; the picker is IDLE and nothing more is asked. -/
def Library.failReturn (l : Library) : Library :=
  { l with picker := { l.picker with state := .idle, record := none, awaitCaddy := false } }

/-- R120: the first failure of a move: RETRY, without motion when the cartridge is at the destination. A LOAD waits for the caddy report. -/
def Library.retryMove (e : Env) (l : Library) (m : Move) : Library :=
  let l := { l with picker := { l.picker with state := .retry } }
  match m with
  | .load _ _ d => { l with picker := { l.picker with awaitCaddy := true } }.emit (.askCaddy d)
  | .back s _ _ => if l.seated s then l.completeMove e m else l.resend e m

/-- R121: the location that the second failure of a move leaves, with the drive's state. A LOAD whose cartridge is found seated in the drive counts as one that
completes, so that the patrol cursor is examined (R163; log entry 56). -/
def Library.settleFailed (e : Env) (l : Library) (m : Move) (grip caddy : Bool) : Library :=
  match m with
  | .load s f d =>
    if grip then (l.setLocation s .inPicker).setDrive d { l.drive d with state := .empty }
    else if caddy then
      let l := (l.setLocation s (.inDrive d f)).callPatrol
      (l.setDrive d { l.drive d with mountTime := e.now }).sendSpinUp e d
    else l.setDrive d { l.drive d with state := .empty }
  | .back s d _ =>
    if grip then
      let l := l.setLocation s .inPicker
      match d with
      | some d => l.setDrive d (l.drive d).emptied
      | none => l
    else if l.seated s then
      let l := l.setLocation s .inSlot
      match d with
      | some d => l.setDrive d (l.drive d).emptied
      | none => l
    else match d with
      | some d => if (l.drive d).state = .failed then l else l.setDrive d { l.drive d with state := .stopped }
      | none => l

/-- R121: the second failure of a move. -/
def Library.secondFailure (e : Env) (l : Library) (m : Move) (grip caddy : Bool) : Library :=
  let l := l.settleFailed e m grip caddy
  let l := { l with picker := { l.picker with record := none } }
  ((l.dropPatrolLoad m).faultMove e m).faultPicker

/-- R114: a RETURN asked for a FAILED drive. -/
def Move.isFailureReturn : Move → Bool
  | .back _ _ .failure => true
  | _ => false

/-- R120, R121, R114: an attempt of the move in progress has failed. `expired` tells an expiry of the limit from a fault report. A failure return that
meets a fault report with the grip empty is over at its retry as at its first attempt (log entry 50). -/
def Library.attemptFailed (e : Env) (l : Library) (grip caddy expired : Bool) : Library :=
  match l.picker.record with
  | none => l
  | some m =>
    if l.picker.awaitCaddy then l
    else if m.isFailureReturn && !grip && !expired then l.failReturn
    else match l.picker.state with
      | .moving => l.retryMove e m
      | .retry => l.secondFailure e m grip caddy
      | _ => l

/-! ## Drive failure -/

/-- R113: a drive becomes FAILED. -/
def Library.failDrive (e : Env) (l : Library) (d : Drive) : Library :=
  let r := l.drive d
  let side := l.mountedSide d
  let l := l.fault e { FaultRecord.of e .driveFailed with
    book := side.bind fun s => (l.role s).book?, side := side, drive := some d }
  let l := (l.setDrive d { r with state := .failed, unload := false, askAgain := none }).emit (.spinDown d)
  let l := l.callPatrol
  if r.state = .unloading then
    match l.picker.record with
    | some (.back s (some d') _) =>
      if d' = d then { l with picker := { l.picker with record := some (.back s (some d) .failure) } } else l
    | _ => l
  else l.askFailureReturn d

end Sys2Proof.Machine
end

