-- ==== Sys2Proof/Machine/Scheduling.lean ====
section
/-! DEFINITION. Mount scheduling (chapter 7): servable items and their issue (R109, R126), priority and side order (R128, R129), decisions (R131 to
R134), patrol mounts (R136, R137), and the patrol cursor (R162 to R164). -/

namespace Sys2Proof.Machine

/-! ## Patrol -/

/-- R162: the patrol top of a side. -/
def Library.patrolTop (l : Library) (s : Side) : Nat :=
  match l.role s with
  | .primary b => (l.book b).filing
  | .twin b => (l.book b).twinMark
  | _ => 0

/-- R164: the frame that the next verify of a side covers; a mark above the top begins again from frame 0. -/
def Library.nextPatrol (e : Env) (l : Library) (s : Side) : Option (Book × Nat) :=
  match (l.role s).holds with
  | some b =>
    let top := l.patrolTop s
    let mark := (l.health s).patrolMark
    let start := if top < mark then 0 else mark
    ((List.range' start (top - start)).find? fun f => (e.frame b f).filed).map fun f => (b, f)
  | none => none

/-- R164: a full pass of a side. -/
def Library.fullPass (e : Env) (l : Library) (s : Side) : Library :=
  ((l.setHealth s { l.health s with patrolMark := 0, lastPass := some e.day }).dropPatrolMount s).callPatrol

/-- R162: a side is patrol-eligible. -/
def Library.patrolEligible (e : Env) (l : Library) (s : Side) : Bool :=
  match l.mountedIn s with
  | some d =>
    e.hasDrive d && (l.drive d).state != .failed && !(l.drive d).unload && decide (0 < l.patrolTop s)
      && (l.health s).lastPass != some e.day && !l.hasDemand s
  | none => false

/-- R163: the sides in ascending number after the side last named, wrapping from 127 to 0. -/
def sidesAfter (last : Option Side) : List Side :=
  match last with
  | none => allSides
  | some s => (allSides.filter fun t => decide (s.val < t.val)) ++ allSides.filter fun t => decide (t.val ≤ s.val)

/-- R163: the side that the cursor takes. -/
def Library.nextCursor (e : Env) (l : Library) : Option Side :=
  match l.scheduler.patrolMount with
  | some s => if l.patrolEligible e s then some s else (sidesAfter l.care.lastCursor).find? (l.patrolEligible e)
  | none => (sidesAfter l.care.lastCursor).find? (l.patrolEligible e)

/-- R163, R164: the cursor moves; a side without a frame to verify has its full pass at once and the cursor moves on. -/
def Library.moveCursor (e : Env) : Nat → Library → Library
  | 0, l => { l with care := { l.care with cursor := none } }
  | n + 1, l =>
    match l.nextCursor e with
    | none => { l with care := { l.care with cursor := none } }
    | some s =>
      let l := { l with care := { l.care with cursor := some s, lastCursor := some s } }
      match l.nextPatrol e s with
      | some _ => l.place e s .patrol
      | none => Library.moveCursor e n (l.fullPass e s)

/-- R163: the patrol cursor is examined. -/
def Library.examineCursor (e : Env) (l : Library) : Library :=
  if l.care.patrolDue then
    let l := { l with care := { l.care with patrolDue := false } }
    match l.care.cursor with
    | some s => if l.patrolEligible e s then l else Library.moveCursor e 8 (l.withdraw s .patrol)
    | none => Library.moveCursor e 8 l
  else l

/-! ## Serving items -/

/-- R173: the lowest frame of the batch that is not over. -/
def Library.lowestOpen (l : Library) : Option BatchFrame :=
  match l.care.batch with
  | some xs => xs.find? fun x => !x.isOver
  | none => none

/-- R171: the lowest frame of the batch that waits on a side and is not being read. -/
def Library.rescueReadFrame (l : Library) (s : Side) : Option (RescueRecord × BatchFrame) :=
  match l.care.rescue, l.care.batch with
  | some r, some xs =>
    (xs.find? fun x => x.state == .toRead && !x.reading && (match x.waits with
      | some c => l.copySide r c == some s
      | none => false)).map fun x => (r, x)
  | _, _ => none

/-- R126, R82: an item can be handed to the drive that has its side mounted. -/
def Library.canServe (l : Library) (s : Side) (i : Item) : Bool :=
  match i.kind with
  | .file t => (l.fileOf t).any fun p => p.2.phase == .queued && p.2.frame == (l.book p.2.book).filing
  | .rescueRead => (l.rescueReadFrame s).isSome
  | .rescueWrite => l.lowestOpen.any fun x => x.state == .ready
  | .twinReread b => (l.twin b).rereads.any fun r => r.state == .granted
  | .fetch _ _ _ => true
  | .twinWrite _ => true
  | .patrol => true

/-- R126: the first servable item of a side's list. -/
def Library.firstServable (l : Library) (s : Side) : Option Item := (l.items s).find? (l.canServe s)

/-- R1: the side sector of a sector of a frame. -/
def sideSector (f i : Nat) : Nat := f * Config.sectorsPerFrame + i

/-- R109: a command is issued: the drive is ACTIVE with the item in service, and the command limit starts. -/
def Library.startCommand (e : Env) (l : Library) (d : Drive) (s : Side) (i : Item) (c : Command) (o : Output) : Library :=
  (l.setDrive d { l.drive d with state := .active, service := some ⟨i, s, c, e.now⟩ }).emit o

/-- R109: an item of the mounted side is handed to its drive. The flag says whether a command was issued; an item that finds nothing to do is
withdrawn (R98; log entry 47), and a patrol item that finds no frame has its full pass (R164). -/
def Library.issue (e : Env) (l : Library) (d : Drive) (s : Side) (i : Item) : Bool × Library :=
  let off := l.withdraw s i.kind
  match i.kind with
  | .fetch t b f =>
    match (l.windows t).find? fun w => w.book == b && w.frame == f && w.isOpen with
    | some w =>
      let ss := w.missing
      (true, (off.setWindow t { w with reading := true }).startCommand e d s i
        (.fetchRead t b f ss true 0) (.read d (ss.map (sideSector f))))
    | none => (false, off)
  | .file t =>
    match l.fileOf t with
    | some (x, g) =>
      (true, (off.setEntry t (some { x with job := .file { g with phase := .writing } })).startCommand e d s i
        (.primaryWrite t g.book g.frame) (.write d (sideSector g.frame 0) g.received))
    | none => (false, off)
  | .twinWrite b =>
    let f := (l.book b).twinMark
    match l.twinData b f with
    | some (fromHold, data) =>
      (true, (off.setTwin b { l.twin b with writing := some ⟨f, fromHold⟩ }).startCommand e d s i
        (.twinWrite b f (e.frame b f).length fromHold true) (.write d (sideSector f 0) data))
    | none => (false, off)
  | .twinReread b =>
    match (l.twin b).rereads.find? fun r => r.state == .granted with
    | some r =>
      let l := l.mapRereads b fun rs => rs.map fun q => if q.frame = r.frame then { q with state := .reading } else q
      let l := if (l.twin b).rereads.any fun q => q.state == .granted then l else l.withdraw s i.kind
      (true, l.startCommand e d s i (.reread b r.frame r.len true) (.read d ((List.range r.len).map (sideSector r.frame))))
    | none => (false, off)
  | .rescueRead =>
    match l.rescueReadFrame s with
    | some (r, x) =>
      let ss := x.lacking
      let l := l.mapBatch fun y => if y.frame = x.frame then { y with reading := true } else y
      (true, l.startCommand e d s i (.rescueRead r.book x.frame ss true) (.read d (ss.map (sideSector x.frame))))
    | none => (false, off)
  | .rescueWrite =>
    match l.care.rescue, l.lowestOpen with
    | some r, some x =>
      let l := l.mapBatch fun y => if y.frame = x.frame then { y with state := .writing } else y
      (true, l.startCommand e d s i (.rescueWrite r.book x.frame true)
        (.write d (sideSector x.frame 0) (x.data.map fun v => v.getD Sector.zeros)))
    | _, _ => (false, off)
  | .patrol =>
    match l.nextPatrol e s with
    | some (b, f) =>
      let n := (e.frame b f).length
      (true, l.startCommand e d s i (.patrolVerify b f n) (.verify d ((List.range n).map (sideSector f))))
    | none => (false, off.fullPass e s)

/-- R109, R126: a READY drive asks for an item. -/
def Library.handOut (e : Env) (d : Drive) (s : Side) : Nat → Library → Library
  | 0, l => l
  | n + 1, l =>
    match l.firstServable s with
    | some i =>
      match l.issue e d s i with
      | (true, l) => l
      | (false, l) => Library.handOut e d s n l
    | none => l

/-- R108, R126, R135: what a drive does with the list of its mounted side: a STOPPED drive spins up for a servable item, and a READY one asks for
an item, but not in HOLD. -/
def Library.serveDrive (e : Env) (l : Library) (d : Drive) : Library :=
  let r := l.drive d
  if e.hasDrive d && !r.unload then
    match l.mountedSide d with
    | some s =>
      match r.state with
      | .stopped => if (l.firstServable s).isSome then l.sendSpinUp e d else l
      | .ready => if e.hold || r.service.isSome then l else Library.handOut e d s 64 l
      | _ => l
    | none => l
  else l

/-- Every drive looks at its list. -/
def Library.serveDrives (e : Env) (l : Library) : Library := allDrives.foldl (fun l d => l.serveDrive e d) l

/-! ## Priority and side order -/

/-- R128: an item is aged when its age has reached 90 s. -/
def Item.aged (now : Nat) (i : Item) : Bool := decide (i.placed + Config.ageLimit ≤ now)

/-- R128: the priority of an item, Table 7-2. -/
def Item.priority (now : Nat) (escalated : Bool) (i : Item) : Nat :=
  if i.aged now then 1
  else match i.kind with
    | .fetch _ _ _ => 1
    | .file _ => 2
    | .twinWrite _ => if escalated then 1 else 3
    | .twinReread _ => if escalated then 1 else 3
    | .rescueRead => 4
    | .rescueWrite => 4
    | .patrol => 5

/-- R128: what the scheduler compares of a side: its priority, whether it is aged, and its oldest placement time. -/
structure SideRank where
  priority : Nat
  aged : Bool
  oldest : Nat
  side : Side
deriving DecidableEq, Repr

/-- R128, R129: the rank of a side; none without demand. -/
def Library.rank (e : Env) (l : Library) (s : Side) : Option SideRank :=
  match l.demand s with
  | [] => none
  | i :: rest =>
    some
      { priority := rest.foldl (fun p j => min p (j.priority e.now l.scheduler.escalation)) (i.priority e.now l.scheduler.escalation)
        aged := (i :: rest).any (Item.aged e.now)
        oldest := rest.foldl (fun p j => min p j.placed) i.placed
        side := s }

/-- R129: the side order. -/
def SideRank.before (a b : SideRank) : Bool :=
  keyBefore [a.priority, a.oldest, a.side.val] [b.priority, b.oldest, b.side.val]

/-- R129: strictly better. -/
def SideRank.strictlyBetter (a b : SideRank) : Bool :=
  decide (a.priority < b.priority) || (a.priority == 1 && b.priority == 1 && a.aged && !b.aged)

/-- R132: sorting by the side order. -/
def insertRank (a : SideRank) : List SideRank → List SideRank
  | [] => [a]
  | b :: rest => if a.before b then a :: b :: rest else b :: insertRank a rest

/-- R132: the cartridge of a move on the list or in progress. -/
def Library.slotInMoves (l : Library) (s : Slot) : Bool := l.moving s || l.picker.moves.any fun m => m.slot == s

/-- R132: the candidates, in side order. -/
def Library.candidates (e : Env) (l : Library) : List SideRank :=
  (allSides.filterMap fun s =>
    match l.rank e s with
    | some r => if l.available e s && (l.mountedIn s).isNone && !l.slotInMoves (slotOf s) then some r else none
    | none => none).foldr insertRank []

/-! ## The choice of a drive -/

/-- R132: the drive in which a side's other face is mounted. -/
def Library.faceBound (l : Library) (s : Side) : Option Drive :=
  match l.location (slotOf s) with
  | .inDrive d _ => some d
  | _ => none

/-- R133: vacating. -/
def DriveRecord.vacating (r : DriveRecord) : Bool := r.unload || r.state == .unloading

/-- R133: the step that gives a candidate a drive. -/
inductive Gift where
  | empty (drive : Drive)
  | vacating (drive : Drive)
  | idle (drive : Drive)
  | busy (drive : Drive)
deriving DecidableEq, Repr

/-- R133, step 1. -/
def Library.giftEmpty (l : Library) (ds : List Drive) : Option Drive :=
  ds.find? fun d => (l.drive d).state == .empty
    && !(l.picker.moves.any fun m => m.drive? == some d) && !(l.picker.record.any fun m => m.drive? == some d)

/-- R133: the least recently used of some drives, then the lower number. -/
def Library.leastUsed (l : Library) (ds : List Drive) : Option Drive :=
  ds.foldl (fun best d =>
    match best with
    | some b => if (l.drive d).lastUse < (l.drive b).lastUse then some d else best
    | none => some d) none

/-- R133, step 3: a loaded drive whose side has no demand. A vacating drive has been found at step 2, but for a patrol mount, which takes steps 1 and 3
alone (R136). -/
def Library.idleDrives (l : Library) (ds : List Drive) : List Drive :=
  ds.filter fun d =>
    ((l.drive d).state == .spinUp || (l.drive d).state == .ready || (l.drive d).state == .spinDown || (l.drive d).state == .stopped)
      && (match l.mountedSide d with
        | some s => !l.hasDemand s
        | none => false)

/-- R133, step 4: the loaded drives that the dwell and the priority leave to a candidate, with the ranks of their sides. -/
def Library.busyDrives (e : Env) (l : Library) (ds : List Drive) (c : SideRank) : List (Drive × SideRank) :=
  ds.filterMap fun d =>
    let r := l.drive d
    if (r.state == .spinUp || r.state == .ready || r.state == .active || r.state == .spinDown || r.state == .stopped)
        && !r.vacating && decide (r.mountTime + Config.dwell ≤ e.now) then
      match (l.mountedSide d).bind (l.rank e) with
      | some m => if c.strictlyBetter m then some (d, m) else none
      | none => none
    else none

/-- R133, step 4: the one whose mounted side ranks last. -/
def lastRanked (xs : List (Drive × SideRank)) : Option Drive :=
  (xs.foldl (fun best x =>
    match best with
    | some b => if b.2.before x.2 then some x else best
    | none => some x) none).map Prod.fst

/-- R133: the drive of a candidate among those not given yet. A face-bound candidate tries its drive alone, from step 2 on. -/
def Library.findDrive (e : Env) (l : Library) (given : List Drive) (c : SideRank) : Option Gift :=
  let ds := allDrives.filter fun d => e.hasDrive d && (l.drive d).state != .failed && !given.contains d
  let bound := l.faceBound c.side
  let ds := match bound with
    | some d => ds.filter fun x => x == d
    | none => ds
  match if bound.isSome then none else l.giftEmpty ds with
  | some d => some (.empty d)
  | none =>
    match ds.find? fun d => (l.drive d).vacating with
    | some d => some (.vacating d)
    | none =>
      match l.leastUsed (l.idleDrives ds) with
      | some d => some (.idle d)
      | none => (lastRanked (l.busyDrives e ds c)).map .busy

/-- The drive of a gift. -/
def Gift.drive : Gift → Drive
  | .empty d => d
  | .vacating d => d
  | .idle d => d
  | .busy d => d

/-- R134: the LOAD of a side is asked. -/
def Library.askLoad (l : Library) (s : Side) (d : Drive) : Library :=
  { l with picker := { l.picker with moves := l.picker.moves ++ [.load (slotOf s) (faceOf s) d] } }

/-- R134: the picker is IDLE with its move list empty; a LOAD asked in this decision is on the list. -/
def Library.pickerFree (l : Library) : Bool := l.picker.state == .idle && l.picker.moves.isEmpty

/-- R134, R137: a drive is taken from its mounted side. -/
def Library.takeDrive (e : Env) (l : Library) (d : Drive) : Library :=
  let l := match l.mountedSide d with
    | some s => l.dropPatrolMount s
    | none => l
  l.chooseUnload e d

/-- R134: a candidate is given a drive. -/
def Library.give (e : Env) (l : Library) (s : Side) : Gift → Library
  | .empty d => if l.pickerFree then l.askLoad s d else l
  | .vacating _ => l
  | .idle d => l.takeDrive e d
  | .busy d => l.takeDrive e d

/-- R132: the candidates are taken in side order. -/
def Library.giveAll (e : Env) : List SideRank → List Drive → Library → Library
  | [], _, l => l
  | c :: rest, given, l =>
    match l.findDrive e given c with
    | some g => Library.giveAll e rest (g.drive :: given) (l.give e c.side g)
    | none => Library.giveAll e rest given l

/-! ## Patrol mounts -/

/-- R136: how long ago a side's last full pass was, in days; a side with no full pass is the oldest. -/
def Library.passAge (e : Env) (l : Library) (s : Side) : Nat :=
  match (l.health s).lastPass with
  | some day => (e.day + Config.max16 - day) % Config.max16
  | none => Config.max16

/-- R136: the conditions of a patrol mount. -/
def Library.quietLibrary (e : Env) (l : Library) : Bool :=
  !e.hold && l.scheduler.patrolMount.isNone && l.pickerFree && decide (l.scheduler.quiet + Config.patrolIdle ≤ e.now)
    && !allSides.any l.hasDemand

/-- R136: the patrol candidates. -/
def Library.patrolCandidates (e : Env) (l : Library) : List Side :=
  allSides.filter fun s =>
    decide (0 < l.patrolTop s) && (l.health s).lastPass != some e.day && (l.mountedIn s).isNone && l.available e s

/-- R136: the candidate whose last full pass is oldest; at equal age the lower side number. -/
def Library.oldestPatrol (e : Env) (l : Library) : Option Side :=
  (l.patrolCandidates e).foldl (fun best s =>
    match best with
    | some b => if l.passAge e b < l.passAge e s then some s else best
    | none => some s) none

/-- R136: a patrol mount is made when the library is quiet: steps 1 and 3 only. It is considered at every decision that finds the conditions, whether or not
a side had demand 180 s after the quiet time (log entry 53). -/
def Library.considerPatrol (e : Env) (l : Library) : Library :=
  if l.quietLibrary e then
    match l.oldestPatrol e with
    | none => l
    | some s =>
      let ds := allDrives.filter fun d => e.hasDrive d && (l.drive d).state != .failed
      let bound := l.faceBound s
      match if bound.isSome then none else l.giftEmpty ds with
      | some d =>
        let l := l.askLoad s d
        { l with scheduler := { l.scheduler with patrolMount := some s } }
      | none =>
        let ds := match bound with
          | some d => ds.filter fun x => x == d
          | none => ds
        match l.leastUsed (l.idleDrives ds) with
        | some d => l.takeDrive e d
        | none => l
  else l

/-- R139: the RETURN of a cartridge that start-up found in the grip is on the move list or in progress. -/
def Library.startReturn (l : Library) : Bool :=
  l.picker.moves.any Move.atStartUp || l.picker.record.any Move.atStartUp

/-- R131, R139: items placed on unmounted sides call for a decision, but while a start-up return is on the list or in progress they wait for the picker
to become IDLE with its list empty, which calls for it (log entry 54). -/
def Library.callPlacement (l : Library) : Library := if l.startReturn then l else l.callDecision

/-- R131: a decision; none is taken in HOLD or while the picker is FAULTED, and its events stay registered. No decision withdraws a move that was
asked before (R118; log entry 52). -/
def Library.decide (e : Env) (l : Library) : Library :=
  if l.scheduler.decisionDue && !e.hold && l.picker.state != .faulted then
    let l := { l with scheduler := { l.scheduler with decisionDue := false } }
    (Library.giveAll e (l.candidates e) [] l).considerPatrol e
  else l

/-! ## The events of a decision and of an examination -/

/-- Each side with its list before and after. -/
def sideRows (was l : Library) : List (Side × List Item × List Item) :=
  allSides.zip (was.scheduler.lists.toList.zip l.scheduler.lists.toList)

/-- R131: an item that is not a patrol item has joined the list of a side that is not mounted. -/
def Library.placedUnmounted (was l : Library) : Bool :=
  (sideRows was l).any fun r =>
    (r.2.2.any fun i => !i.kind.isPatrol && !r.2.1.contains i) && (l.mountedIn r.1).isNone

/-- R131: a mounted side has ceased to have demand. -/
def Library.lostDemand (was l : Library) : Bool :=
  (sideRows was l).any fun r =>
    was.wants r.1 r.2.1 && !l.wants r.1 r.2.2 && (l.mountedIn r.1).isSome && (was.mountedIn r.1).isSome

/-- R163: a side has gained or lost demand. -/
def Library.demandMoved (was l : Library) : Bool :=
  (sideRows was l).any fun r => was.wants r.1 r.2.1 != l.wants r.1 r.2.2

/-- R20: the availability of both faces of every slot's cartridge. -/
def Library.availability (e : Env) (l : Library) : List (Bool × Bool) :=
  (allSlots.zip (l.picker.locations.toList.zip l.picker.presence.toList)).map fun r =>
    (l.reachable e r.1 .a r.2.1 r.2.2, l.reachable e r.1 .b r.2.1 r.2.2)

/-- R131: a side has become available or unavailable. -/
def Library.availabilityMoved (e : Env) (was l : Library) : Bool := was.availability e != l.availability e

/-- R131, R163: a drive has become FAILED. -/
def Library.driveFailed (was l : Library) : Bool :=
  allDrives.any fun d => (l.drive d).state == .failed && (was.drive d).state != .failed

/-- R131: the events that an earlier state and a later one tell apart, but for the placements. A move list that empties by the drop of a RETURN while the
picker stays IDLE counts as the picker's becoming IDLE with its list empty (log entry 61). -/
def Library.decisionEvent (e : Env) (was l : Library) : Bool :=
  lostDemand was l || availabilityMoved e was l || driveFailed was l
    || (l.pickerFree && !was.pickerFree) || (was.scheduler.patrolMount.isSome && l.scheduler.patrolMount.isNone)

/-- R163: the events that an earlier state and a later one tell apart: a side gains or loses demand, a role changes, a drive fails. -/
def Library.patrolEvent (was l : Library) : Bool :=
  demandMoved was l || was.roles.toList != l.roles.toList || driveFailed was l

/-- R137: the patrol mount record becomes absent when its side has become unavailable. -/
def Library.checkPatrolMount (e : Env) (l : Library) : Library :=
  match l.scheduler.patrolMount with
  | some s => if l.available e s then l else l.dropPatrolMount s
  | none => l

/-- R131, R163: the events since an earlier state are registered. -/
def Library.registerEvents (e : Env) (l was : Library) : Library :=
  let l := l.checkPatrolMount e
  let l := if decisionEvent e was l then l.callDecision else l
  let l := if placedUnmounted was l then l.callPlacement else l
  if patrolEvent was l then l.callPatrol else l

end Sys2Proof.Machine
end

