-- ==== Sys2Proof/Machine/Reactions.lean ====
section
/-! DEFINITION. The reactions inside one event. The specification lets each block re-test its work at the event that changes what it finds; the
blocks are taken in one fixed order, several times over, so that what one block leaves is found by the others at the same event
(log entry 23). Nothing here changes `Env`, the fee accounts or the queue. -/

namespace Sys2Proof.Machine

/-- The reactions of the blocks that hold work: windows turn and are resolved again (R61, R70), FILEs unwind (R88), staging slots are given
(R46 to R48) and the rescue goes on (R168 to R175). -/
def Library.work (e : Env) (l : Library) : Library :=
  let l := allTags.foldl (fun l t => l.turnWindows e t) l
  let l := l.unwindStranded e
  let l := allTags.foldl (fun l t => l.resolvePending e t) l
  (l.stage e).rescueReaction e

/-- The reactions that give work to the mechanism: a decision (R131), the move at the head of the list (R118), the patrol cursor (R163), and
the drives' items (R126). -/
def Library.direct (e : Env) (l : Library) : Library :=
  (((l.decide e).tryMoves e 16).examineCursor e).serveDrives e

/-- One pass over the blocks: the library as the events since `was` have been registered, and as it then reacts. -/
def Library.pass (e : Env) (l was : Library) : Library × Library :=
  let l := (l.work e).registerEvents e was
  (l, l.direct e)

/-- The passes of one event. -/
def Library.passes (e : Env) : Nat → Library → Library → Library
  | 0, _, l => l
  | n + 1, was, l =>
    let (seen, next) := l.pass e was
    Library.passes e n seen next

/-- The reactions of one event, from the library as the event found it and as its own effect left it; then the reservations that have joined the
re-read waiting list take their order (R52), and the responses and link jobs of the event are queued (R28). -/
def Library.settle (e : Env) (l was : Library) : Library := (Library.orderReservations was (Library.passes e 6 was l)).finish

end Sys2Proof.Machine
end

