-- ==== Sys2Proof/Machine/Fees.lean ====
section
/-! DEFINITION. The Fee Unit (chapter 8): the schedule write (R141), orders and their closing (R142 to R152), the charging of a page (R144 to R148),
the tallies (R153, R154) and the day close (R156 to R158). -/

namespace Sys2Proof.Machine

/-! ## Orders -/

/-- R149: the order of a station closes and its recent-page list is emptied; nothing else changes. -/
def Fee.closeOrder (f : Fee) (s : Station) : Fee :=
  { f with orders := put f.orders s none, recent := put f.recent s [] }

/-- R152, R158: every order closes. -/
def Fee.closeAll (f : Fee) : Fee :=
  { f with orders := Vector.replicate 16 none, recent := Vector.replicate 16 [] }

/-- R150: the time at which a station's order timer expires. -/
def Schedule.expiry (c : Schedule) (o : Order) : Nat := o.lastCharge + c.timeout * 60

/-! ## The schedule -/

/-- R141: the lower of a value and its limit. -/
def clampLine (x : ScheduleLine) : FeeLine :=
  ⟨min x.fee 9999, min x.threshold 255, min x.rate 100, min x.cap 999999⟩

/-- R141: every value is clamped into its range. -/
def clampSchedule (x : ScheduleData) : Schedule :=
  ⟨x.lines.map clampLine, min x.surcharge 99999, max 1 (min x.timeout 60)⟩

/-- R141: the amount of an open order is brought down to a new cap. -/
def Order.capTo (c : Schedule) (o : Order) : Order :=
  let cap := (look c.lines o.cls).cap
  { o with amount := if cap ≠ 0 then min o.amount cap else o.amount }

/-- R150: an order whose expiry under a schedule is already past. -/
def Order.overdue (c : Schedule) (now : Nat) (o : Order) : Bool := decide (c.expiry o < now)

/-- R141, R150: a schedule write. -/
def Fee.writeSchedule (f : Fee) (now : Nat) (x : ScheduleData) : Fee :=
  let c := clampSchedule x
  allStations.foldl
    (fun f s =>
      match look f.orders s with
      | some o =>
        if o.overdue c now then f.closeOrder s else { f with orders := put f.orders s (some (o.capTo c)) }
      | none => f)
    { f with schedule := c }

/-! ## Charging -/

/-- R77, R144: an offer: the request's tag, station and mode, the book and frame, the fee class and the kind (HEAD or CONT) that the window recorded, and the
instrument's head frame. -/
structure Offer where
  tag : Tag
  station : Station
  certified : Bool
  book : Book
  frame : Nat
  cls : FeeClass
  head : Nat
  isHead : Bool
deriving DecidableEq, Repr

/-- R144: the open order is for the offer's instrument. -/
def Order.serves (o : Order) (x : Offer) : Bool := o.book == x.book && o.head == x.head

/-- R144: the station's open order is for the offer's instrument. -/
def Fee.hasOrder (f : Fee) (x : Offer) : Bool := (look f.orders x.station).any fun o => o.serves x

/-- R144: a new order. -/
def Offer.open (x : Offer) (now : Nat) : Order := ⟨x.book, x.head, x.cls, x.certified, 0, 0, false, now⟩

/-- R144: an order is counted; the flag is set when a count saturates (R154). -/
def Tallies.countOrder (t : Tallies) (s : Station) : Tallies :=
  let a := look t.stations s
  { t with
    stations := put t.stations s { a with orders := satAdd Config.max16 a.orders 1 }
    orders := satAdd Config.max16 t.orders 1
    saturated := t.saturated || saturates Config.max16 a.orders 1 || saturates Config.max16 t.orders 1 }

/-- R144: the order of the offer's station after it has been settled, with the accounts as the settling leaves them. -/
def Fee.settleOrder (f : Fee) (now : Nat) (x : Offer) : Fee :=
  if f.hasOrder x then f
  else
    { f with
      orders := put f.orders x.station (some (x.open now))
      recent := put f.recent x.station []
      tallies := f.tallies.countOrder x.station }

/-- R146, step 1: the base fee of the page at a position. -/
def FeeLine.base (p : FeeLine) (position : Nat) : Nat :=
  if p.threshold = 0 ∨ position < p.threshold then p.fee else (p.fee * p.rate + 50) / 100

/-- R146: the charge of the next page of an order. -/
def FeeLine.charge (p : FeeLine) (o : Order) : Nat :=
  if p.cap = 0 then p.base (o.pages + 1) else min (p.base (o.pages + 1)) (p.cap - o.amount)

/-- R147: the page takes the certified surcharge. -/
def Order.takesSurcharge (o : Order) (x : Offer) : Bool := x.certified && !o.surcharged

/-- R147: the order after a charged page. -/
def Order.charged (o : Order) (x : Offer) (now charge : Nat) : Order :=
  { o with
    amount := satAdd Config.max32 o.amount charge
    pages := satAdd Config.max16 o.pages 1
    lastCharge := now
    certified := o.certified || o.takesSurcharge x
    surcharged := o.surcharged || x.certified }

/-- R143: a charged frame joins the recent-page list; the oldest of 32 leaves it. -/
def joinRecent (frames : List Nat) (f : Nat) : List Nat :=
  (if Config.recentPages ≤ frames.length then frames.drop (frames.length + 1 - Config.recentPages) else frames) ++ [f]

/-- R148, R147: a page total joins the tallies of a station and of a class and the grand tallies; the flag is set when an accumulator saturates
(R154). -/
def Tallies.countPage (t : Tallies) (s : Station) (c : FeeClass) (total : Nat) (certify : Bool) : Tallies :=
  let a := look t.stations s
  let k := look t.classes c
  let n := if certify then 1 else 0
  { t with
    stations := put t.stations s { a with amount := satAdd Config.max32 a.amount total, pages := satAdd Config.max32 a.pages 1 }
    classes := put t.classes c { k with amount := satAdd Config.max32 k.amount total, pages := satAdd Config.max32 k.pages 1 }
    amount := satAdd Config.max32 t.amount total
    pages := satAdd Config.max32 t.pages 1
    certified := satAdd Config.max16 t.certified n
    saturated := t.saturated || saturates Config.max32 a.amount total || saturates Config.max32 a.pages 1
      || saturates Config.max32 k.amount total || saturates Config.max32 k.pages 1 || saturates Config.max32 t.amount total
      || saturates Config.max32 t.pages 1 || saturates Config.max16 t.certified n }

/-- What an offer does to the request that made it: whether its page was charged and the page total. -/
structure Charge where
  charged : Bool
  total : Nat
deriving DecidableEq, Repr

/-- R145 to R148: the page of an offer is skipped, or charged to the station's open order. -/
def Fee.chargePage (f : Fee) (now : Nat) (x : Offer) : Fee × Charge :=
  match look f.orders x.station with
  | none => (f, ⟨false, 0⟩)
  | some o =>
    if x.frame ∈ look f.recent x.station then (f, ⟨false, 0⟩)
    else
      let charge := (look f.schedule.lines o.cls).charge o
      let certify := o.takesSurcharge x
      let total := charge + if certify then f.schedule.surcharge else 0
      ({ f with
          orders := put f.orders x.station (some (o.charged x now charge))
          recent := put f.recent x.station (joinRecent (look f.recent x.station) x.frame)
          tallies := f.tallies.countPage x.station o.cls total certify },
       ⟨true, total⟩)

/-- R144 to R148, R152: an offer is taken whole; in HOLD the station's order closes at the same event. -/
def Fee.take (f : Fee) (now : Nat) (hold : Bool) (x : Offer) : Fee × Charge :=
  let (g, c) := (f.settleOrder now x).chargePage now x
  (if hold then g.closeOrder x.station else g, c)

/-- R148: the request's amount charged and its note. -/
def Entry.charge (x : Entry) (c : Charge) : Entry :=
  if c.charged then
    { x with amount := satAdd Config.max32 x.amount c.total, notes := { x.notes with charged := true } }
  else x

/-- R154, R177: TALLY_SATURATED, at the first saturation of the day. -/
def Library.faultTally (e : Env) (l : Library) (x : Offer) : Library :=
  l.fault e { FaultRecord.of e .tallySaturated with book := some x.book, frame := some x.frame, tag := some x.tag }

/-- R77, R144 to R148: an offer is made at the delivery of its page's first sector. -/
def takeOffer (e : Env) (f : Fee) (l : Library) (x : Offer) : Fee × Library :=
  let (g, c) := f.take e.now e.hold x
  let l := match l.entry x.tag with
    | some y => l.setEntry x.tag (some (y.charge c))
    | none => l
  (g, if g.tallies.saturated && !f.tallies.saturated then l.faultTally e x else l)

/-! ## The day -/

/-- R157: the day number after a day. -/
def nextDay (day : Nat) : Nat := if day = Config.max16 then 1 else day + 1

/-- R158: the day closes; the day number of `Env` rises beside it. -/
def Fee.closeDay (f : Fee) (day : Nat) : Fee :=
  { f.closeAll with closedTallies := f.tallies, closedDay := day, tallies := Tallies.zero }

end Sys2Proof.Machine
end

