-- ==== Sys2Proof/Machine/Pages.lean ====
section
/-! DEFINITION. The pages of the service book as they are read (R185, R191): the codes of Table 11-2 and the layouts of Tables 11-3 to 11-14. -/

namespace Sys2Proof.Machine

/-! ## Bytes -/

/-- A field of a page: its first byte, its width in bytes, its value. -/
structure Field where
  offset : Nat
  width : Nat
  value : Nat
deriving DecidableEq, Repr

/-- R185: a field is placed in a sector, little-endian. -/
def Field.place (x : Field) (s : Sector) : Sector :=
  s ||| (BitVec.ofNat 8192 (x.value % 256 ^ x.width) <<< (8 * x.offset))

/-- R185: the bytes that no field names read as zero. -/
def page (fields : List Field) : Sector := fields.foldl (fun s x => x.place s) Sector.zeros

/-- R185: bytes of a sector, little-endian. -/
def bytesAt (s : Sector) (offset width : Nat) : Nat := (s >>> (8 * offset)).toNat % 256 ^ width

/-- R185: what an absent value reads as in a one-byte field. -/
def absentByte : Nat := 255
/-- R185: what an absent value reads as in a two-byte field. -/
def absentWord : Nat := 65535

/-- A flag in a one-byte field. -/
def flagByte (b : Bool) : Nat := if b then 1 else 0

/-- A one-byte field that may be absent. -/
def optByte {n : Nat} (x : Option (Fin n)) : Nat := (x.map Fin.val).getD absentByte

/-- A two-byte field that may be absent. -/
def optWord (x : Option Nat) : Nat := x.getD absentWord

/-! ## Codes, Table 11-2 -/

def DriveState.code : DriveState → Nat
  | .empty => 0
  | .loading => 1
  | .spinUp => 2
  | .ready => 3
  | .active => 4
  | .stopped => 5
  | .spinDown => 6
  | .unloading => 7
  | .failed => 8

def PickerState.code : PickerState → Nat
  | .idle => 0
  | .moving => 1
  | .retry => 2
  | .faulted => 3

def BookState.code : BookState → Nat
  | .unassigned => 0
  | .opened => 1
  | .closed => 2

def TwinState.code : TwinState → Nat
  | .none => 0
  | .caughtUp => 1
  | .working => 2
  | .paused => 3
  | .blocked => 4

def Role.code : Role → Nat
  | .unlisted => 0
  | .blank => 1
  | .primary _ => 2
  | .twin _ => 3
  | .rescueTarget _ => 4
  | .retired _ => 5

/-- Table 11-14: byte 0 of a directory entry. -/
def Frame.code : Frame → Nat
  | .blank => 0
  | .head c _ => 1 + 16 * c.val
  | .cont c _ => 2 + 16 * c.val
  | .void => 3
  | .lost wasHead c => 4 + (if wasHead then 0 else 8) + 16 * c.val

def Location.code : Location → Nat
  | .inSlot => 0
  | .inDrive _ _ => 1
  | .inPicker => 2
  | .absent => 3

def Location.drive? : Location → Option Drive
  | .inDrive d _ => some d
  | _ => none

def Location.face? : Location → Option Face
  | .inDrive _ f => some f
  | _ => none

/-- A face in a one-byte field that may be absent. -/
def optFace (x : Option Face) : Nat := (x.map Face.number).getD absentByte

def Move.code : Move → Nat
  | .load _ _ _ => 0
  | .back _ _ _ => 1

/-- R117: the face of a LOAD; a RETURN names none. -/
def Move.face? : Move → Option Face
  | .load _ f _ => some f
  | .back _ _ _ => none

/-- Table 11-2: the order modes. -/
def Order.mode (o : Order) : Nat := if o.certified then 2 else 1

/-- R191: the reset-cause set. -/
def ResetCauses.code (c : ResetCauses) : Nat :=
  flagByte c.powerOn + 2 * flagByte c.resetLine + 4 * flagByte c.afterWarning

/-! ## Status, tally and day pages -/

/-- R29: the LIVE entries of the Request Table. -/
def Library.liveEntries (l : Library) : Nat := (allTags.filter fun t => (l.entry t).isSome).length

/-- Table 11-3: a drive; zero when it is not configured. -/
def driveFields (e : Env) (l : Library) (d : Drive) : List Field :=
  let r := l.drive d
  let o := 8 + 6 * d.val
  if e.hasDrive d then
    [⟨o, 1, r.state.code⟩, ⟨o + 1, 1, optByte (l.mountedSide d)⟩, ⟨o + 2, 1, r.corrected⟩, ⟨o + 3, 1, r.uncorrectable⟩,
     ⟨o + 4, 1, r.commandFailures⟩, ⟨o + 5, 1, flagByte r.unload⟩]
  else []

/-- Table 11-3. -/
def statusPage (e : Env) (l : Library) : List Field :=
  [⟨0, 1, e.configured⟩, ⟨1, 1, l.picker.state.code⟩, ⟨2, 1, flagByte e.hold⟩, ⟨3, 1, l.liveEntries⟩, ⟨4, 2, l.heldTotal⟩,
   ⟨6, 1, flagByte l.buffer.escalation⟩, ⟨7, 1, optByte l.care.cursor⟩] ++ allDrives.flatMap (driveFields e l)

/-- Table 11-4. -/
def tallyPage (day : Nat) (t : Tallies) : List Field :=
  [⟨0, 2, day⟩, ⟨2, 1, flagByte t.saturated⟩, ⟨4, 4, t.amount⟩, ⟨8, 4, t.pages⟩, ⟨12, 2, t.orders⟩, ⟨14, 2, t.certified⟩]
  ++ allStations.flatMap (fun s =>
      let a := look t.stations s
      let o := 16 + 12 * s.val
      [⟨o, 4, a.amount⟩, ⟨o + 4, 4, a.pages⟩, ⟨o + 8, 2, a.orders⟩])
  ++ (List.finRange 8).flatMap (fun c =>
      let k := look t.classes c
      let o := 208 + 8 * c.val
      [⟨o, 4, k.amount⟩, ⟨o + 4, 4, k.pages⟩])

/-- Table 11-5. -/
def dayPage (e : Env) : List Field := [⟨0, 2, e.day⟩]

/-! ## Fault and picker pages -/

/-- Table 11-6. -/
def faultPage (e : Env) (g : FaultLog) : List Field :=
  let r := g.first
  [⟨0, 1, flagByte r.isSome⟩, ⟨1, 1, (r.map fun x => x.kind.code).getD 0⟩, ⟨2, 1, optByte (r.bind FaultRecord.book)⟩,
   ⟨3, 1, optByte (r.bind FaultRecord.side)⟩, ⟨4, 2, optWord (r.bind FaultRecord.frame)⟩, ⟨6, 1, optByte (r.bind FaultRecord.drive)⟩,
   ⟨7, 1, optByte (r.bind FaultRecord.slot)⟩, ⟨8, 1, optByte (r.bind FaultRecord.tag)⟩, ⟨10, 2, optWord (r.map FaultRecord.day)⟩,
   ⟨12, 2, g.later.toNat⟩, ⟨14, 1, g.laterCount⟩, ⟨16, 2, e.mask.toNat⟩, ⟨18, 1, e.causes.code⟩]

/-- Table 11-7: an entry of the move list. -/
def moveFields (o : Nat) (m : Option Move) : List Field :=
  [⟨o, 1, (m.map Move.code).getD absentByte⟩, ⟨o + 1, 1, optByte (m.map Move.slot)⟩, ⟨o + 2, 1, optFace (m.bind Move.face?)⟩,
   ⟨o + 3, 1, optByte (m.bind Move.drive?)⟩]

/-- Table 11-7. -/
def pickerPage (l : Library) : List Field :=
  let p := l.picker
  [⟨0, 1, p.state.code⟩, ⟨1, 1, flagByte p.record.isSome⟩] ++ moveFields 2 p.record
  ++ [⟨6, 1, (p.record.map fun _ => flagByte (p.state == .retry)).getD absentByte⟩, ⟨7, 1, p.moves.length⟩]
  ++ (List.range 8).flatMap (fun i => moveFields (8 + 4 * i) p.moves[i]?)
  ++ allSlots.flatMap (fun s =>
      let o := 64 + 4 * s.val
      let x := l.location s
      [⟨o, 1, x.code⟩, ⟨o + 1, 1, optByte x.drive?⟩, ⟨o + 2, 1, optFace x.face?⟩, ⟨o + 3, 1, flagByte (l.seated s)⟩])

/-! ## Order and schedule pages -/

/-- Table 11-8. The four-byte fields of an absent order are open (log entry 12). -/
def orderPage (e : Env) (f : Fee) (s : Station) : List Field :=
  match look f.orders s with
  | some o =>
    [⟨0, 1, 1⟩, ⟨1, 1, o.book.val⟩, ⟨2, 2, o.head⟩, ⟨4, 1, o.cls.val⟩, ⟨5, 1, o.mode⟩, ⟨6, 1, flagByte o.surcharged⟩,
     ⟨8, 2, o.pages⟩, ⟨12, 4, o.amount⟩, ⟨16, 4, e.now - o.lastCharge⟩]
  | none =>
    [⟨0, 1, 0⟩, ⟨1, 1, absentByte⟩, ⟨2, 2, absentWord⟩, ⟨4, 1, absentByte⟩, ⟨5, 1, absentByte⟩, ⟨6, 1, absentByte⟩,
     ⟨8, 2, absentWord⟩, ⟨12, 4, (Config.absentFourBytes 0).toNat⟩, ⟨16, 4, (Config.absentFourBytes 1).toNat⟩]

/-- Table 11-9. -/
def schedulePage (c : Schedule) : List Field :=
  (List.finRange 8).flatMap (fun k =>
    let x := look c.lines k
    let o := 10 * k.val
    [⟨o, 2, x.fee⟩, ⟨o + 2, 2, x.threshold⟩, ⟨o + 4, 1, x.rate⟩, ⟨o + 6, 4, x.cap⟩])
  ++ [⟨80, 4, c.surcharge⟩, ⟨84, 1, c.timeout⟩]

/-! ## Pool, rescue and side pages -/

/-- Table 11-10. Byte 1, the count of a write, reads 0 (log entry 10). -/
def poolPage (l : Library) : List Field :=
  ⟨0, 1, l.pool.length⟩ :: l.pool.mapIdx fun i s => ⟨2 + i, 1, s.val⟩

/-- Table 11-11. -/
def rescuePage (e : Env) (c : Care) : List Field :=
  let r := c.rescue
  [⟨0, 1, flagByte r.isSome⟩, ⟨1, 1, optByte (r.map RescueRecord.source)⟩,
   ⟨2, 1, (r.map fun x => if x.ofTwin then 3 else 2).getD absentByte⟩, ⟨3, 1, optByte (r.map RescueRecord.book)⟩,
   ⟨4, 1, optByte (r.bind RescueRecord.target)⟩, ⟨5, 1, (r.map fun x => flagByte x.stopped).getD absentByte⟩,
   ⟨6, 2, optWord (r.map RescueRecord.copyMark)⟩, ⟨8, 1, c.queue.length⟩]
  ++ (List.range 8).map (fun i => ⟨9 + i, 1, optByte c.queue[i]?⟩)
  ++ [⟨20, 2, e.threshold⟩]

/-- Table 11-12. -/
def sideFields (l : Library) (s : Side) : List Field :=
  let h := l.health s
  let o := 16 * (s.val % 64)
  [⟨o, 1, (l.role s).code⟩, ⟨o + 1, 1, optByte (l.role s).book?⟩, ⟨o + 2, 2, h.corrected⟩, ⟨o + 4, 1, h.uncorrectable⟩,
   ⟨o + 6, 2, h.patrolMark⟩, ⟨o + 8, 2, h.lastPass.getD 0⟩]

/-- Table 11-12: the page of the sides 64 × `half` to 64 × `half` + 63. -/
def sidesPage (l : Library) (half : Nat) : List Field :=
  (allSides.filter fun s => decide (s.val / 64 = half)).flatMap (sideFields l)

/-! ## Book and directory pages -/

/-- Table 11-13. -/
def bookPage (l : Library) (b : Book) : List Field :=
  let k := l.book b
  [⟨0, 1, k.state.code⟩, ⟨1, 1, optByte k.primary⟩, ⟨2, 1, optByte k.twin⟩, ⟨3, 1, (l.twin b).state.code⟩, ⟨4, 2, k.filing⟩,
   ⟨6, 2, k.intake⟩, ⟨8, 2, k.twinMark⟩]

/-- Table 11-14. -/
def directoryPage (e : Env) (b : Book) (part : Nat) : List Field :=
  (List.range 512).flatMap fun i =>
    let x := e.frame b (512 * part + i)
    [⟨2 * i, 1, x.code⟩, ⟨2 * i + 1, 1, x.length⟩]

/-! ## The block map -/

/-- A number as an index, none when it is out of range. -/
def asIndex (n x : Nat) : Option (Fin n) := if h : x < n then some ⟨x, h⟩ else none

/-- Table 11-1: the pages by block. -/
inductive Block where
  | status
  | tally
  | closedTally
  | day
  | fault
  | picker
  | order (station : Station)
  | schedule
  | pool
  | rescue
  | sides (half : Nat)
  | book (b : Book)
  | directory (b : Book) (part : Nat)
  | other
deriving DecidableEq, Repr

/-- Table 11-1: the block of a number. -/
def blockOf (n : Nat) : Block :=
  if n = 0 then .status
  else if n = 1 then .tally
  else if n = 2 then .closedTally
  else if n = 3 then .day
  else if n = 4 then .fault
  else if n = 5 then .picker
  else if n = 32 then .schedule
  else if n = 33 then .pool
  else if n = 34 then .rescue
  else if n = 35 ∨ n = 36 then .sides (n - 35)
  else if 16 ≤ n ∧ n ≤ 31 then
    match asIndex 16 (n - 16) with
    | some s => .order s
    | none => .other
  else if 64 ≤ n ∧ n ≤ 190 then
    match asIndex 127 (n - 64) with
    | some b => .book b
    | none => .other
  else if 1024 ≤ n ∧ n ≤ 2039 then
    match asIndex 127 ((n - 1024) / 8) with
    | some b => .directory b ((n - 1024) % 8)
    | none => .other
  else .other

/-- R185, Table 11-1: the page of a block, from the state as it stands. -/
def pageFields (e : Env) (f : Fee) (l : Library) : Block → List Field
  | .status => statusPage e l
  | .tally => tallyPage e.day f.tallies
  | .closedTally => tallyPage f.closedDay f.closedTallies
  | .day => dayPage e
  | .fault => faultPage e l.log
  | .picker => pickerPage l
  | .order s => orderPage e f s
  | .schedule => schedulePage f.schedule
  | .pool => poolPage l
  | .rescue => rescuePage e l.care
  | .sides half => sidesPage l half
  | .book b => bookPage l b
  | .directory b part => directoryPage e b part
  | .other => []

/-- R185: the sector of a service block. -/
def servicePage (e : Env) (f : Fee) (l : Library) (n : Nat) : Sector := page (pageFields e f l (blockOf n))

end Sys2Proof.Machine
end

