-- ==== Sys2Proof/Machine/Operands.lean ====
section
/-! DEFINITION. The operands of a service write: what the bytes of its sector say to the block that it names (R186, R188 to R190), with the key
and the codes that the block knows. -/

namespace Sys2Proof.Machine

/-- R186: a service write as its block reads it. -/
inductive ServiceWrite where
  | readOnly
  | unknown (keyed : Bool)
  | dayClose (day : Nat)
  | clearFaults
  | setMask (mask : BitVec 16)
  | clearCauses
  | pickerClear
  | orderClose (station : Station)
  | schedule (data : ScheduleData)
  | poolAdd (sides : List Nat)
  | poolRemove (sides : List Nat)
  | threshold (value : Nat)
  | assign (book : Book) (primary twin : Nat)
  | addTwin (book : Book) (twin : Nat)
  | removeTwin (book : Book)
  | close (book : Book)
deriving DecidableEq, Repr

/-- Table 11-1: the write needs the schedule key. -/
def ServiceWrite.keyed : ServiceWrite → Bool
  | .unknown keyed => keyed
  | .schedule _ => true
  | .poolAdd _ => true
  | .poolRemove _ => true
  | .threshold _ => true
  | .assign _ _ _ => true
  | .addTwin _ _ => true
  | .removeTwin _ => true
  | .close _ => true
  | .readOnly => false
  | .dayClose _ => false
  | .clearFaults => false
  | .setMask _ => false
  | .clearCauses => false
  | .pickerClear => false
  | .orderClose _ => false

/-- R186, checks 1 to 3: the first that fails decides the outcome. -/
def ServiceWrite.refusal (w : ServiceWrite) (key : KeyPosition) : Option Outcome :=
  if w = .readOnly then some .badRequest
  else if w.keyed = true ∧ key = .locked then some .protected_
  else match w with
    | .unknown _ => some .badRequest
    | _ => none

/-- R189: a pool write with an action that the block knows; a count of 0 or above 128 is refused, and the entries beyond the count are not
examined. -/
def poolWrite (add : Bool) (count : Nat) (sides : List Nat) : ServiceWrite :=
  if 1 ≤ count ∧ count ≤ 128 then
    if add then .poolAdd (sides.take count) else .poolRemove (sides.take count)
  else .unknown true

/-- Table 11-9: a line of a schedule write. -/
def readLine (s : Sector) (c : Nat) : ScheduleLine :=
  ⟨bytesAt s (10 * c) 2, bytesAt s (10 * c + 2) 2, bytesAt s (10 * c + 4) 1, bytesAt s (10 * c + 6) 4⟩

/-- Table 11-9: the data of a schedule write. -/
def readSchedule (s : Sector) : ScheduleData :=
  ⟨Vector.ofFn fun c : Fin 8 => readLine s c.val, bytesAt s 80 4, bytesAt s 84 1⟩

/-- R190: the fault block's command. -/
def readFaultCommand (s : Sector) : ServiceWrite :=
  match bytesAt s 0 1 with
  | 1 => .clearFaults
  | 2 => .setMask (BitVec.ofNat 16 (bytesAt s 16 2))
  | 3 => .clearCauses
  | _ => .unknown false

/-- R189, Table 11-10: the pool block's action, count and list. -/
def readPoolWrite (s : Sector) : ServiceWrite :=
  let count := bytesAt s 1 1
  let sides := (List.range count).map fun i => bytesAt s (2 + i) 1
  match bytesAt s 0 1 with
  | 1 => poolWrite true count sides
  | 2 => poolWrite false count sides
  | _ => .unknown true

/-- R188, Table 11-13: a book table change. -/
def readBookChange (b : Book) (s : Sector) : ServiceWrite :=
  match bytesAt s 0 1 with
  | 1 => .assign b (bytesAt s 1 1) (bytesAt s 2 1)
  | 2 => .addTwin b (bytesAt s 2 1)
  | 3 => .removeTwin b
  | 4 => .close b
  | _ => .unknown true

/-- R186 to R190: what the data of a service write says to its block. -/
def readWrite (k : Block) (s : Sector) : ServiceWrite :=
  match k with
  | .status => .readOnly
  | .tally => .readOnly
  | .closedTally => .readOnly
  | .day => .dayClose (bytesAt s 0 2)
  | .fault => readFaultCommand s
  | .picker => .pickerClear
  | .order st => .orderClose st
  | .schedule => .schedule (readSchedule s)
  | .pool => readPoolWrite s
  | .rescue => .threshold (bytesAt s 20 2)
  | .sides _ => .readOnly
  | .book b => readBookChange b s
  | .directory _ _ => .readOnly
  | .other => .readOnly

end Sys2Proof.Machine
end

