-- ==== Sys2Proof/Machine/ServiceBook.lean ====
section
/-! DEFINITION. The service writes as their owners apply them (R5 to R9, R15, R122, R141, R151, R158, R166, R179), and the arrival of a service write's
sector (R186). Each owner's operation answers `none` when one of its checks fails. -/

namespace Sys2Proof.Machine

/-! ## An event's frame -/

/-- An event begins: nothing has been put on the links. -/
def State.begin (s : State) : State := { s with lib := { s.lib with out := [] } }

/-- An event ends with its reactions, from the library as the event found it. -/
def State.react (s : State) (was : Library) : State := { s with lib := s.lib.settle s.env was }

/-- An event ends without reactions of the blocks that hold work. -/
def State.finish (s : State) : State := { s with lib := s.lib.finish }

/-- R183: start-up is not over, and no record or report but those it asks for is taken. -/
def State.starting (s : State) : Bool := s.env.startUp.isSome

/-! ## The book table -/

/-- R6, R7, R8, R188: a side field of a change. -/
def sideField (x : Nat) : Option Side := asIndex 128 x

/-- R160: a side takes role PRIMARY or TWIN with its health record set anew. -/
def Library.takeSide (l : Library) (s : Side) (r : Role) : Library := (l.setRole s r).setHealth s .zero

/-- R5: a close of a book. -/
def Library.closeBook (l : Library) (b : Book) : Option Library :=
  let k := l.book b
  match k.state with
  | .unassigned => none
  | .opened => some (l.setBook b { k with state := .closed })
  | .closed => some l

/-- R6, R9: the checks of an assignment. -/
def Library.assignable (l : Library) (b : Book) (p : Side) (t : Option Side) : Bool :=
  (l.book b).state == .unassigned && l.role p == .blank && !l.bookUnderRescue b && !l.sideUnderRescue p
    && (match t with
      | some t => l.role t == .blank && slotOf t != slotOf p && !l.sideUnderRescue t
      | none => true)

/-- R6: an assignment's effect on the maps; the directory is cleared beside it. -/
def Library.assignSides (e : Env) (l : Library) (b : Book) (p : Side) (t : Option Side) : Library :=
  let l := l.takeSide p (.primary b)
  let l := match t with
    | some t => l.takeSide t (.twin b)
    | none => l
  let l := l.setBook b { state := .opened, primary := some p, twin := t, filing := 0, intake := 0, twinMark := 0 }
  (l.setTwin b .none).examine e b

/-- R188: the twin field of an assignment: no twin at 255, else a side. -/
def twinField (x : Nat) : Option (Option Side) :=
  if x = 255 then some none else (sideField x).map some

/-- R6: an assignment. -/
def State.assignBook (s : State) (b : Book) (p t : Nat) : Option State :=
  match sideField p, twinField t with
  | some p, some t =>
    if s.lib.assignable b p t then
      let env := { s.env with directory := dirClear s.env.directory b }
      some { s with env := env, lib := s.lib.assignSides env b p t }
    else none
  | _, _ => none

/-- R7, R9: the checks of a twin addition. -/
def Library.twinAddable (l : Library) (b : Book) (t : Side) : Bool :=
  let k := l.book b
  k.state != .unassigned && k.twin.isNone && l.role t == .blank && k.primary.map slotOf != some (slotOf t)
    && !l.bookUnderRescue b && !l.sideUnderRescue t

/-- R7: a twin addition. -/
def Library.addTwin (e : Env) (l : Library) (b : Book) (t : Nat) : Option Library :=
  match sideField t with
  | some t =>
    if l.twinAddable b t then
      let l := l.takeSide t (.twin b)
      let l := l.setBook b { l.book b with twin := some t, twinMark := 0 }
      some ((l.setTwin b .none).examine e b)
    else none
  | none => none

/-- R72: a twin removal takes effect in a window with a twin item that has not been issued. -/
def Library.untwinWindows (l : Library) (t : Tag) (b : Book) : Library :=
  l.eachWindow t fun l w =>
    match w.item with
    | some s =>
      if w.book = b ∧ w.onTwin = true ∧ w.reading = false then
        (l.withdraw s (.fetch t w.book w.frame)).holdFallback t w
      else l
    | none => l

/-- R8, R9: the checks of a twin removal, and the twin side that it finds. -/
def Library.twinRemovable (l : Library) (b : Book) : Option Side :=
  let k := l.book b
  if k.state != .unassigned && !l.bookUnderRescue b then
    match k.twin with
    | some s => if l.sideUnderRescue s then none else some s
    | none => none
  else none

/-- R8: a twin removal. A twin write that has been issued runs on, and leaves the book's twin record (log entry 64). -/
def Library.removeTwin (e : Env) (l : Library) (b : Book) : Option Library :=
  match l.twinRemovable b with
  | some s =>
    let k := l.book b
    let l := l.setRole s (.retired b)
    let l := l.setBook b { k with twin := none, twinMark := k.filing }
    let l := l.mapCommands (Command.orphanTwinWrite b fun _ => true)
    let l := l.leaveHold fun h => h.book == b
    let l := if l.care.queue.contains s then
        { l with care := { l.care with queue := l.care.queue.filter fun q => q != s, seekDue := true } }
      else l
    let l := l.examine e b
    some (allTags.foldl (fun l t => l.untwinWindows t b) l)
  | none => none

/-! ## The blank pool -/

/-- R189: the sides of a pool write, none when one is above 127. -/
def poolSides (xs : List Nat) : Option (List Side) := xs.mapM sideField

/-- R15: the checks of a pool addition. -/
def Library.poolAddable (l : Library) (xs : List Side) : Bool :=
  Decidable.decide xs.Nodup && xs.all fun s => l.role s == .unlisted && l.location (slotOf s) != .absent

/-- R15, R189: a pool addition, at which a rescue can begin. -/
def Library.addToPool (l : Library) (xs : List Nat) : Option Library :=
  match poolSides xs with
  | some ss => if l.poolAddable ss then some (ss.foldl (fun l s => l.setRole s .blank) l).callRescue else none
  | none => none

/-- R15: the checks of a pool removal. -/
def Library.poolRemovable (l : Library) (xs : List Side) : Bool :=
  Decidable.decide xs.Nodup && xs.all fun s => l.role s == .blank

/-- R15: a pool removal. -/
def Library.takeFromPool (l : Library) (xs : List Nat) : Option Library :=
  match poolSides xs with
  | some ss => if l.poolRemovable ss then some (ss.foldl (fun l s => l.setRole s .unlisted) l) else none
  | none => none

/-! ## The picker clear -/

/-- R122: the slot of a cartridge that the picker holds. -/
def Library.heldSlot (l : Library) : Option Slot := allSlots.find? fun s => l.location s == .inPicker

/-- R122, R123: the RETURN of a held cartridge joins the head of the move list. -/
def Library.returnHeld (l : Library) (reason : ReturnReason) : Library :=
  match l.heldSlot with
  | some s => { l with picker := { l.picker with moves := .back s none reason :: l.picker.moves } }
  | none => l

/-- R122: a drive in STOPPED whose unload flag is set asks its RETURN, unless it is on the list. -/
def Library.askWaiting (l : Library) (d : Drive) : Library :=
  let r := l.drive d
  if r.state = .stopped ∧ r.unload = true then l.askReturn d .unload else l

/-- R122: a picker clear. In a state other than FAULTED nothing changes, and no decision is called for either (R131; log entry 55). -/
def Library.clearPicker (l : Library) : Library :=
  if l.picker.state = .faulted then
    let l := { l with picker := { l.picker with state := .idle } }.returnHeld .held
    (allDrives.foldl Library.askWaiting l).callDecision
  else l

/-! ## The other blocks -/

/-- R179: clear faults. -/
def State.clearLog (s : State) : State := { s with lib := { s.lib with log := ⟨none, 0, 0⟩ } }

/-- R179, R190: the mask is replaced; bits that name no fault kind are ignored. -/
def State.replaceMask (s : State) (m : BitVec 16) : State := { s with env := { s.env with mask := m.setWidth 11 } }

/-- R179: clear causes. -/
def State.emptyCauses (s : State) : State := { s with env := { s.env with causes := ⟨false, false, false⟩ } }

/-- R158: a day close whose number matches. -/
def State.closeDay (s : State) : State :=
  { s with env := { s.env with day := nextDay s.env.day }, fee := s.fee.closeDay s.env.day, lib := s.lib.callPatrol }

/-- R166: the threshold; 0 is taken as 1. -/
def State.setThreshold (s : State) (v : Nat) : State := { s with env := { s.env with threshold := max 1 v } }

/-- A state with its library replaced, when there is one. -/
def State.withLib (s : State) (l : Option Library) : Option State := l.map fun l => { s with lib := l }

/-- R186, check 4: the outcome that the owner's refusal gives. -/
def ServiceWrite.ownerRefusal : ServiceWrite → Outcome
  | .dayClose _ => .dayMismatch
  | _ => .tableRefused

/-- R186: the owner checks a write and applies it as one event. -/
def State.applyWrite (s : State) : ServiceWrite → Option State
  | .readOnly => none
  | .unknown _ => none
  | .dayClose day => if day = s.env.day then some s.closeDay else none
  | .clearFaults => some s.clearLog
  | .setMask m => some (s.replaceMask m)
  | .clearCauses => some s.emptyCauses
  | .pickerClear => some { s with lib := s.lib.clearPicker }
  | .orderClose st => some { s with fee := s.fee.closeOrder st }
  | .schedule d => some { s with fee := s.fee.writeSchedule s.env.now d }
  | .poolAdd xs => s.withLib (s.lib.addToPool xs)
  | .poolRemove xs => s.withLib (s.lib.takeFromPool xs)
  | .threshold v => some (s.setThreshold v)
  | .assign b p t => s.assignBook b p t
  | .addTwin b t => s.withLib (s.lib.addTwin s.env b t)
  | .removeTwin b => s.withLib (s.lib.removeTwin s.env b)
  | .close b => s.withLib (s.lib.closeBook b)

/-- The write changes what the blocks that hold work look at; the others end their event without reactions. -/
def ServiceWrite.reacts : ServiceWrite → Bool
  | .dayClose _ => true
  | .pickerClear => true
  | .poolAdd _ => true
  | .poolRemove _ => true
  | .assign _ _ _ => true
  | .addTwin _ _ => true
  | .removeTwin _ => true
  | .close _ => false
  | .readOnly => false
  | .unknown _ => false
  | .clearFaults => false
  | .setMask _ => false
  | .clearCauses => false
  | .orderClose _ => false
  | .schedule _ => false
  | .threshold _ => false

/-- R186: the outcome of a write and the state that it leaves, its checks made in order. -/
def State.checkWrite (s : State) (w : ServiceWrite) (key : KeyPosition) : Outcome × State :=
  match w.refusal key with
  | some o => (o, s)
  | none =>
    match s.applyWrite w with
    | some t => (.done, t)
    | none => (w.ownerRefusal, s)

/-- R186, R44: a service write is checked and applied at the arrival of its sector, and its request ends. -/
def State.endWrite (s : State) (tag : Tag) (w : ServiceWrite) (key : KeyPosition) : State :=
  let (o, t) := s.checkWrite w key
  let applied := o == Outcome.done
  let t := { t with lib := t.lib.endRequest tag o (if applied then 1 else 0) 0 }
  if w.reacts && applied then t.react s.lib else t.finish

/-! ## The arrival of a service write's sector -/

/-- R28: no other tag's burst is on the link. -/
def Library.linkOpen (l : Library) (t : Tag) : Bool :=
  match l.front.linkBurst with
  | some u => u == t
  | none => true

/-- R50: a sector of the burst of an ended FILE is taken from the link and discarded. -/
def Library.discardSector (l : Library) (t : Tag) (x : Entry) : Library :=
  let l := l.setEntry t (some { x with discard := x.discard - 1 })
  { l with front := { l.front with linkBurst := if x.discard ≤ 1 then none else some t } }

/-- R37: the block that a request in the service book names. -/
def Entry.block (x : Entry) : Block := blockOf (serviceBlock x.record.addr.val)

/-- R37: the work of an entry is a service write whose pull has been sent. -/
def Entry.awaitsWrite (x : Entry) : Bool :=
  match x.job with
  | .serviceWrite pulled => pulled
  | _ => false

/-- R186: the sector of the service write of a tag arrives; `read` says what it is to the block that the request names, and none means that the
event is not of this kind: such a command changes nothing. The sector of a write that HOLD has ended is discarded (R181). -/
def State.serviceArrival (s : State) (tag : Tag) (key : KeyPosition) (read : Block → Option ServiceWrite) : State :=
  let s := s.begin
  if s.starting || !s.lib.linkOpen tag then s
  else match s.lib.entry tag with
    | some x =>
      if x.awaitsWrite then
        match read x.block with
        | some w =>
          if x.live then s.endWrite tag w key
          else if 0 < x.discard then { s with lib := s.lib.discardSector tag x }.finish
          else s
        | none => s
      else s
    | none => s

end Sys2Proof.Machine
end

