-- ==== Sys2Proof/Machine/StartUp.lean ====
section
/-! DEFINITION. HOLD (R181) and start-up (R183): the steps that every reset takes, with the settlement of a move record (R123) and the presence
comparison (R19). A start-up whose move record is a LOAD waits at step 4 for the caddy report of the move's drive. The steps are told as a list of
changes to Record Memory, so that a further reset may find any number of them taken (R184). -/

namespace Sys2Proof.Machine

/-! ## Steps 1 to 3 -/

/-- R183, step 2: whether the format marker is found. -/
def State.markerFound (s : State) (i : ResetInputs) : Bool := s.env.formatMarker && i.memoryKept

/-- R180: the cause of a reset joins the set; AFTER_WARNING joins it when the hold marker is set. -/
def ResetCauses.add (c : ResetCauses) (cause : ResetCause) (holdMarker : Bool) : ResetCauses :=
  { powerOn := c.powerOn || (match cause with
      | .powerOn => true
      | .resetLine => false)
    resetLine := c.resetLine || (match cause with
      | .powerOn => false
      | .resetLine => true)
    afterWarning := c.afterWarning || holdMarker }

/-- R142, R181, R183, step 1: `Env` as a reset begins start-up. -/
def Env.restart (e : Env) (found : Bool) (straps : Nat) : Env :=
  { e with hold := false, configured := straps, formatMarker := found, startUp := none }

/-- R117, R183: the Picker Controller at a reset, its presence readings taken afresh; the move record is still to be settled. -/
def Picker.restart (p : Picker) (now : Nat) (presence : Vector Bool 64) : Picker :=
  { state := .idle, moves := [], record := p.record, locations := p.locations
    presence := presence, limitStart := now, awaitCaddy := false, expired := none }

/-- R162, R169, R170: the Care Unit at a reset. -/
def Care.restart (c : Care) : Care :=
  { c with cursor := none, lastCursor := none, batch := none, waiting := false, seekDue := true, patrolDue := true }

/-- R30, R45, R94, R107, R125, R130: everything volatile takes its reset value. -/
def Library.restart (l : Library) (now : Nat) (presence : Vector Bool 64) : Library :=
  { front := Front.reset
    books := l.books
    roles := l.roles
    buffer := Buffer.reset
    twins := Vector.replicate 127 .none
    drives := Vector.replicate 4 (.empty now)
    picker := l.picker.restart now presence
    scheduler := Scheduler.reset now
    care := l.care.restart
    log := l.log
    out := [] }

/-- R183, step 1: a reset empties what is volatile and reads the straps; every persistent record stands. A memory that was not kept has lost its marker. -/
def State.beginStart (s : State) (i : ResetInputs) : State :=
  { pending := s.pending
    env := s.env.restart (s.markerFound i) i.straps
    fee := s.fee.closeAll
    lib := s.lib.restart s.env.now i.presence }

/-- R22, R157, R166, R178, R180: the persistent records of `Env` at their defaults. -/
def Env.defaults (e : Env) : Env :=
  { e with day := 1, directory := [], threshold := 200, mask := 0, causes := ⟨false, false, false⟩, holdMarker := false }

/-- R22: the location records after a blank marker. -/
def blankLocations (presence : Vector Bool 64) : Vector Location 64 :=
  presence.map fun seated => if seated then .inSlot else .absent

/-- R22, R117, R160, R167, R168, R178: the persistent records of the other blocks at their defaults. -/
def Library.defaults (l : Library) (presence : Vector Bool 64) : Library :=
  { l with
    books := Vector.replicate 127 .unassigned
    roles := Vector.replicate 128 .unlisted
    picker := { l.picker with record := none, locations := blankLocations presence }
    care := Care.blank.restart
    log := FaultLog.blank }

/-- R183, step 2, R22: without the marker every persistent record takes its default; then the marker stands written. -/
def State.readMarker (s : State) (found : Bool) (presence : Vector Bool 64) : State :=
  let s := if found then s else { s with env := s.env.defaults, fee := Fee.blank, lib := s.lib.defaults presence }
  { s with env := { s.env with formatMarker := true } }

/-- R183, step 3, R180: the cause joins the set, and the hold marker is tested and cleared. -/
def State.addCause (s : State) (cause : ResetCause) : State :=
  { s with env := { s.env with causes := s.env.causes.add cause s.env.holdMarker, holdMarker := false } }

/-- R183, step 3: RECORD_MEMORY_BLANK when the marker was absent. -/
def State.noteBlank (s : State) (found : Bool) : State :=
  if found then s else { s with lib := s.lib.fault s.env (FaultRecord.of s.env .recordMemoryBlank) }

/-- R183: the changes of steps 2 and 3, each written as one unit (R21). -/
def firstChanges (found : Bool) (cause : ResetCause) (presence : Vector Bool 64) : List (State → State) :=
  [fun s => s.readMarker found presence, fun s => s.addCause cause, fun s => s.noteBlank found]

/-- R183: changes are taken in their order. -/
def State.take (s : State) (changes : List (State → State)) : State := changes.foldl (fun s change => change s) s

/-! ## Steps 4 to 10 -/

/-- R123: the picker and the move's drive are asked for their reports. -/
def Library.askReports (l : Library) (m : Move) : Library :=
  let l := l.emit .askFaultReport
  match m.drive? with
  | some d => l.emit (.askCaddy d)
  | none => l

/-- R123: the location that a move record leaves, from the picker's report and the drive's. -/
def Library.settleRecord (l : Library) (m : Move) (grip caddy : Bool) : Library :=
  let l := { l with picker := { l.picker with record := none } }
  if grip then l.setLocation m.slot .inPicker
  else match m with
    | .load s f d => if caddy then l.setLocation s (.inDrive d f) else l
    | .back s _ _ => if l.seated s then l.setLocation s .inSlot else l

/-- R19: a location record is compared with its fresh reading. -/
def Library.comparePresence (e : Env) (l : Library) (s : Slot) : Library :=
  match l.location s with
  | .inSlot => if l.seated s then l else l.removal e s
  | .absent => if l.seated s then l.insertion s else l
  | _ => l

/-- R3: every intake mark is set to its filing mark. -/
def Library.resetIntake (l : Library) : Library :=
  { l with books := l.books.map fun k => { k with intake := k.filing } }

/-- R107: a configured drive that a record names comes up STOPPED; its times are the time of the reset, as every drive has taken them there. -/
def Library.resetDrive (e : Env) (l : Library) (d : Drive) : Library :=
  if e.hasDrive d && (l.mountedSide d).isSome then l.setDrive d { l.drive d with state := .stopped } else l

/-- R183, step 7: CARTRIDGE_MISSING for a cartridge recorded in a drive that is not configured. -/
def Library.missUnconfigured (e : Env) (l : Library) (s : Slot) : Library :=
  match l.location s with
  | .inDrive d _ => if e.hasDrive d then l else l.faultMissing e s (some d)
  | _ => l

/-- R183, step 10: the rescue forms its batch or is sought, and the patrol cursor is set. The placements of steps 9 and 10 call for a decision, but for a
start-up return, after which the idle picker calls for it (R131, R139). -/
def Library.startCare (e : Env) (l : Library) : Library :=
  (((l.callRescue.callPatrol).rescueReaction e).examineCursor e).callPlacement

/-! ## Step 11 and the end -/

/-- R181: HOLD is entered, the hold marker set and POWER_WARNING recorded. -/
def State.enterHold (s : State) : State :=
  { s with env := { s.env with hold := true, holdMarker := true }
           lib := s.lib.fault s.env (FaultRecord.of s.env .powerWarning) }

/-- A change of the blocks. -/
def State.onLib (f : Env → Library → Library) (s : State) : State := { s with lib := f s.env s.lib }

/-- R183: the changes of steps 5 to 11: presence, intake marks, drives, the held cartridge, the twin records, the Care Unit and the warning line. The
slots are compared, and then checked for drives that are not configured, in ascending number (log entry 40). -/
def lastChanges (warning : Bool) : List (State → State) :=
  (allSlots.map fun k => State.onLib fun e l => l.comparePresence e k)
    ++ (State.onLib fun _ l => l.resetIntake) :: (allDrives.map fun d => State.onLib fun e l => l.resetDrive e d)
    ++ (allSlots.map fun k => State.onLib fun e l => l.missUnconfigured e k)
    ++ (State.onLib fun _ l => l.returnHeld .startUp) :: (allBooks.map fun b => State.onLib fun e l => l.examine e b)
    ++ [State.onLib fun e l => l.startCare e, fun s => if warning then s.enterHold else s]

/-- R183: start-up is not waiting any more. -/
def State.resume (s : State) : State := { s with env := { s.env with startUp := none } }

/-- R183, steps 5 to 12, and what each block does at its own events afterwards. -/
def State.finishStart (s : State) (warning : Bool) : State :=
  let s := s.resume.take (lastChanges warning)
  s.react s.lib

/-- R184: start-up goes no further, and a further reset is to come. -/
def State.awaitReset (s : State) (warning : Bool) (n : Nat) : State :=
  { s with env := { s.env with startUp := some ⟨none, warning, some n⟩ } }

/-- R183, R184: steps 5 to 12, or those of their changes that come before a further reset; steps 2 to 4 hold the first four changes. -/
def State.endStart (s : State) (warning : Bool) : Option Nat → State
  | none => s.finishStart warning
  | some n => (s.resume.take ((lastChanges warning).take (n - 4))).awaitReset warning n

/-- R183, step 4: whether the settlement of the move record needs the drive's caddy report. -/
def Move.needsCaddy (e : Env) (grip : Bool) : Move → Option Drive
  | .load _ _ d => if grip || !e.hasDrive d then none else some d
  | .back _ _ _ => none

/-- R183, R123: step 4 and the steps after it; for a caddy report they wait. -/
def State.settleStart (s : State) (i : ResetInputs) : State :=
  match s.lib.picker.record with
  | none => s.endStart i.warning i.cut
  | some m =>
    let s := { s with lib := s.lib.askReports m }
    match m.needsCaddy s.env i.grip with
    | some d => { s with env := { s.env with startUp := some ⟨some d, i.warning, i.cut⟩ } }
    | none => { s with lib := s.lib.settleRecord m i.grip false }.endStart i.warning i.cut

/-- R183: start-up, one event up to the caddy report that step 4 may wait for and one event from there on. R184: where a further reset is to come during it, the
changes before that reset are taken (log entry 57). -/
def State.startUp (s : State) (cause : ResetCause) (i : ResetInputs) : State :=
  let changes := firstChanges (s.markerFound i) cause i.presence
  let r := s.beginStart i
  match i.cut with
  | none => (r.take changes).settleStart i
  | some n => if n ≤ 3 then (r.take (changes.take n)).awaitReset i.warning n else (r.take changes).settleStart i

/-- R123: the caddy report that start-up has waited for. -/
def State.resumeStart (s : State) (w : StartUp) (seated : Bool) : State :=
  match s.lib.picker.record with
  | some m => { s with lib := s.lib.settleRecord m false seated }.endStart w.warning w.cut
  | none => s.endStart w.warning w.cut

/-- R178, R183: ATTN follows the first-fault record, but is withdrawn from step 1 of a start-up to its step 2. -/
def State.attn (s : State) : Bool := s.lib.attn && !s.env.startUp.any fun w => w.cut == some 0

end Sys2Proof.Machine
end

