-- ==== Sys2Proof/Machine/FrontLink.lean ====
section
/-! DEFINITION. The commands of the Front Link (chapter 2): request records (R32 to R37), pulls (R27), FILE bursts (R81), the bursts of a FETCH
(R26, R74 to R79) and responses (R28). -/

namespace Sys2Proof.Machine

/-- What a command answers. -/
abbrev Answer := Host.Outcome State Fault Refusal

/-- An event: what the links carried before it is gone, and nothing is taken while start-up is not over (R183). -/
def State.event (s : State) (f : State → State) : Answer :=
  let s := s.begin
  .next (if s.starting then s else f s)

/-! ## Request records -/

/-- R29: the entry of a record that has just been taken. -/
def newEntry (r : RequestRecord) (j : Job) : Entry := ⟨r, j, 0, r.addr.val, .empty, 0, none, 0⟩

/-- R33, R34: the FETCH arrival checks. -/
def Library.fetchCheck (l : Library) (r : RequestRecord) : Option Outcome :=
  if r.count.val < 1 ∨ Config.maxFetch < r.count.val then some .badRequest
  else match bookOf r.addr.val with
    | some b => if (l.book b).state = .unassigned then some .bookUnassigned else none
    | none => if Config.lastBlock < r.addr.val + r.count.val - 1 then some .badRequest else none

/-- R39, R43: the first block address after the run's part in the record books. -/
def runEnd (r : RequestRecord) : Nat := min (r.addr.val + r.count.val) Config.serviceBase

/-- R39: the window of a frame, given by its number counted through the volume, of a run from `a` up to `z`. -/
def windowOf (a z g : Nat) : Option Window :=
  (asIndex 127 (g / Config.framesPerBook)).map fun b =>
    Window.fresh b (g % Config.framesPerBook) (if g * 64 ≤ a then a - g * 64 else 0)
      (if z ≤ g * 64 + 64 then z - 1 - g * 64 else 63)

/-- R39: the windows of a run, one for each frame that it touches. -/
def windowsOf (a z : Nat) : List Window :=
  (List.range' (a / 64) ((z - 1) / 64 + 1 - a / 64)).filterMap (windowOf a z)

/-- R39: the segment of a book of a run. -/
def segmentOf (a z n : Nat) : Option Segment :=
  (asIndex 127 n).map fun b =>
    let lo := max a (n * Config.sectorsPerBook)
    ⟨b, lo, min z ((n + 1) * Config.sectorsPerBook) - lo, n == a / Config.sectorsPerBook⟩

/-- R39: the segments of a run; the first one's book has been checked at arrival (R40). -/
def segmentsOf (a z : Nat) : List Segment :=
  (List.range' (a / Config.sectorsPerBook) ((z - 1) / Config.sectorsPerBook + 1 - a / Config.sectorsPerBook)).filterMap (segmentOf a z)

/-- R39, R43: a FETCH in the record books is cut; a run that reaches past the last record block ends with OUT_OF_VOLUME. -/
def cutRun (r : RequestRecord) : Fetching :=
  { segments := segmentsOf r.addr.val (runEnd r)
    windows := windowsOf r.addr.val (runEnd r)
    finish := if Config.serviceBase < r.addr.val + r.count.val then .outOfVolume else .done }

/-- R25, R44: a record that is refused at arrival. -/
def Library.refuse (l : Library) (r : RequestRecord) (o : Outcome) : Library :=
  (l.setEntry r.tag (some (newEntry r .refused))).endRequest r.tag o 0 0

/-- R25, R31, R32: a record is taken and accepted: a duplicate is answered, a record in HOLD or one that fails its checks is refused, and any other
enters the table and proceeds. -/
def State.takeRecord (s : State) (r : RequestRecord) (check : Option Outcome) (proceed : State → State) : State :=
  let s := { s with lib := s.lib.emit (.accept r.tag) }
  match s.lib.entry r.tag with
  | some x => { s with lib := s.lib.answerDuplicate x }
  | none =>
    if s.env.hold then { s with lib := s.lib.refuse r .powerHold }.finish
    else match check with
      | some o => { s with lib := s.lib.refuse r o }.finish
      | none => proceed s

/-- R34, R39, R46: an accepted FETCH; in the record books its first window is opened at this event. -/
def State.acceptFetch (s : State) (r : RequestRecord) : State :=
  match bookOf r.addr.val with
  | some _ => { s with lib := s.lib.setEntry r.tag (some (newEntry r (.fetch (cutRun r)))) }.react s.lib
  | none => { s with lib := s.lib.setEntry r.tag (some (newEntry r .servicePages)) }.finish

/-- R33: a FETCH request record. -/
def execFetchRequest (r : RequestRecord) (s : State) : Answer :=
  s.event fun s => s.takeRecord r (s.lib.fetchCheck r) fun s => s.acceptFetch r

/-- R35, R37: the checks of a FILE. -/
def Library.fileArrival (e : Env) (l : Library) (r : RequestRecord) : Option Outcome :=
  match bookOf r.addr.val with
  | some b => l.fileCheck e r b
  | none => if r.count.val = 1 then none else some .badRequest

/-- R36: what the entry of an accepted FILE holds. -/
def Library.newFiling (e : Env) (l : Library) (r : RequestRecord) (b : Book) : Filing :=
  { book := b, frame := frameOf r.addr.val, isHead := r.flag == .head
    cls := l.intendedClass e r b (frameOf r.addr.val), len := r.count.val
    phase := .intake, pulled := false, received := [] }

/-- R36, R37: an accepted FILE raises its book's intake mark and waits for its pull. -/
def State.acceptFile (s : State) (r : RequestRecord) : State :=
  match bookOf r.addr.val with
  | some b =>
    let k := s.lib.book b
    let l := s.lib.setEntry r.tag (some (newEntry r (.file (s.lib.newFiling s.env r b))))
    { s with lib := l.setBook b { k with intake := k.intake + 1 } }.finish
  | none => { s with lib := s.lib.setEntry r.tag (some (newEntry r (.serviceWrite false))) }.finish

/-- R35: a FILE request record. -/
def execFileRequest (r : RequestRecord) (s : State) : Answer :=
  s.event fun s => s.takeRecord r (s.lib.fileArrival s.env r) fun s => s.acceptFile r

/-! ## Pulls and FILE bursts -/

/-- R28: the job that is next on the link, when no burst is on it. -/
def Library.nextJob (l : Library) : Option LinkJob :=
  match l.front.linkBurst with
  | some _ => none
  | none => l.front.ready.head?

/-- R27: the work of a FILE whose pull has been sent. -/
def Job.pulled : Job → Job
  | .file g => .file { g with pulled := true }
  | .serviceWrite _ => .serviceWrite true
  | j => j

/-- R27: the pull that is next on the link is issued. It leaves the link free: other bursts and pulls may go between it and the first sector of its FILE's burst
(log entry 68). -/
def execPull (s : State) : Answer :=
  s.event fun s =>
    match s.lib.nextJob with
    | some (.pull t) =>
      match s.lib.entry t with
      | some x =>
        let l := (s.lib.setEntry t (some { x with job := x.job.pulled })).emit (.pull t x.record.count.val)
        { s with lib := { l with front := { l.front with ready := l.front.ready.tail } } }.finish
      | none => s
    | _ => s

/-- R50, R81: a sector of a record book's FILE arrives in its intake slot; with the last the FILE is QUEUED and its item placed on the book's
primary side. -/
def Library.takeSector (e : Env) (l : Library) (t : Tag) (x : Entry) (g : Filing) (data : Sector) : Library :=
  let got := g.received ++ [data]
  if got.length < g.len then
    let l := l.setEntry t (some { x with job := .file { g with received := got } })
    { l with front := { l.front with linkBurst := some t } }
  else
    let l := l.setEntry t (some { x with job := .file { g with received := got, phase := .queued } })
    let l := { l with front := { l.front with linkBurst := none } }
    match (l.book g.book).primary with
    | some p => l.place e p (.file t)
    | none => l

/-- R81, R186, R50: one sector of the burst that a pull has asked for arrives. -/
def State.arrive (s : State) (t : Tag) (x : Entry) (data : Sector) (key : KeyPosition) : State :=
  if x.live then
    match x.job with
    | .file g =>
      if g.phase = .intake ∧ g.pulled = true then { s with lib := s.lib.takeSector s.env t x g data }.react s.lib else s
    | .serviceWrite true => s.endWrite t (readWrite x.block data) key
    | _ => s
  else if 0 < x.discard then { s with lib := s.lib.discardSector t x }.finish
  else s

/-- R81: one sector of a FILE's burst. -/
def execFileBurstArrival (tag : Tag) (data : Sector) (key : KeyPosition) (s : State) : Answer :=
  s.event fun s =>
    if s.lib.linkOpen tag then
      match s.lib.entry tag with
      | some x => s.arrive tag x data key
      | none => s
    else s

/-! ## The bursts of a FETCH -/

/-- R74: the notes of a sector join the request's. -/
def Notes.join (n : Notes) (x : SectorState) : Notes :=
  { n with
    corrected := n.corrected || x.corrected
    fromTwin := n.fromTwin || x.source == .twin
    fromHold := n.fromHold || x.source == .hold
    blankFill := n.blankFill || x.source == .zero }

/-- R26, R29: sectors of a request have been delivered. -/
def Entry.delivered (x : Entry) (xs : List SectorState) : Entry :=
  { x with
    moved := x.moved + xs.length
    stopAddress := x.record.addr.val + (x.moved + xs.length) - 1
    notes := xs.foldl Notes.join x.notes }

/-- Table 2-1: the mode of the pages that a FETCH delivers; none makes no offers. -/
def certifiedMode : ChargeMode → Option Bool
  | .none => Option.none
  | .copy => some false
  | .certified => some true

/-- R77: the kind and the class of a page that is offered, as its window recorded them at resolution. -/
def Frame.page? : Frame → Option (Bool × FeeClass)
  | .head c _ => some (true, c)
  | .cont c _ => some (false, c)
  | _ => none

/-- R77, R78: the offer that the delivery of a sector of a window makes, if it makes one. -/
def Entry.offer (e : Env) (x : Entry) (w : Window) (sector : Nat) : Option Offer :=
  if sector = 0 then
    match certifiedMode x.record.mode, w.resolved.page?, e.headOf w.book w.frame with
    | some m, some (k, c), some (h, _) => some ⟨x.record.tag, x.record.station, m, w.book, w.frame, c, h, k⟩
    | _, _, _ => none
  else none

/-- R77: an offer, if there is one, is taken by the Fee Unit. -/
def State.offer (s : State) : Option Offer → State
  | some o =>
    let (f, l) := takeOffer s.env s.fee s.lib o
    { s with fee := f, lib := l }
  | none => s

/-- R28: the burst of a tag has been sent; the next burst of its request becomes ready at this event. -/
def Library.takeBurst (l : Library) (t : Tag) : Library :=
  { l with front := { l.front with ready := l.front.ready.filter fun j => j != .burst t } }

/-- R26, R75, R77: sectors of the delivery window are sent as one burst; the page's first sector makes its offer. -/
def State.deliver (s : State) (t : Tag) (x : Entry) (w : Window) (xs : List SectorState) : State :=
  let next := x.record.addr.val + x.moved
  if xs.isEmpty then s
  else
    let l := ((s.lib.takeBurst t).setEntry t (some (x.delivered xs))).emit (.burst t next (xs.map SectorState.data))
    State.offer { s with lib := l } (x.offer s.env w (sectorOf next))

/-- R26, R34, R185: up to `count` pages of a FETCH in the service book are built and sent as one burst, and the last of them ends it. The pages
show the state `now`, as their event found it. -/
def State.deliverPages (s now : State) (t : Tag) (x : Entry) (count : Nat) : State :=
  let next := x.record.addr.val + x.moved
  let n := min count (x.record.count.val - x.moved)
  if n = 0 then s
  else
    let xs := (List.range n).map fun i => servicePage now.env now.fee now.lib (serviceBlock (next + i))
    let moved := x.moved + n
    let l := ((s.lib.takeBurst t).setEntry t (some { x with moved := moved, stopAddress := x.record.addr.val + moved - 1 })).emit (.burst t next xs)
    { s with lib := if moved = x.record.count.val then l.endRequest t .done moved 0 else l }

/-- R26, R28: the burst that is next on the link is sent, of at most `count` sectors, with the zero-filled sectors of R75, and at most 64. -/
def execBurstSent (count : Nat) (s : State) : Answer :=
  s.event fun s =>
    match s.lib.nextJob with
    | some (.burst t) =>
      match s.lib.entry t with
      | some x =>
        if x.live then
          match x.job with
          | .fetch g =>
            match g.windows with
            | w :: _ =>
              (s.deliver t x w (w.burst (sectorOf (x.record.addr.val + x.moved)) count)).react s.lib
            | [] => s
          | .servicePages => (s.deliverPages s t x (min count Config.sectorsPerFrame)).finish
          | _ => s
        else s
      | none => s
    | _ => s

/-! ## Responses -/

/-- R28, R44: the response that is next is sent, once the burst of its request is no longer on the link, and the entry is FREE. -/
def execResponseSent (s : State) : Answer :=
  s.event fun s =>
    match s.lib.front.responses with
    | r :: rest =>
      match s.lib.entry r.tag with
      | some x =>
        if x.discard = 0 then
          let l := (s.lib.setEntry r.tag none).emit (.response r)
          { s with lib := { l with front := { l.front with responses := rest } } }.finish
        else s
      | none => s
    | [] => s

end Sys2Proof.Machine
end

