-- ==== Sys2Proof/Machine/Outcomes.lean ====
section
/-! DEFINITION. The outcomes of sector commands (R64, R83, R85, R97, R99, R100, R164, R170, R173, R174) and the drive command failures (R112) with what
each owner does at them (R66, R86, R101, R165, R170, R173). -/

namespace Sys2Proof.Machine

/-- R109: the item in service of an ACTIVE drive. -/
def Library.activeService (l : Library) (d : Drive) : Option InService :=
  if (l.drive d).state = .active then (l.drive d).service else none

/-- R112: an event at the command in progress of a drive; with none in progress it is discarded. -/
def State.atCommand (s : State) (d : Drive) (f : State → InService → State) : Answer :=
  s.event fun s =>
    match s.lib.activeService d with
    | some v => f s v
    | none => s

/-- R109: an outcome that arrives at the time at which a command limit of its drive has expired is that of the expired command: the command that was
issued at the expiry has had no time to run (log entry 48). -/
def Library.lateOutcome (e : Env) (l : Library) (d : Drive) : Bool := (l.drive d).expired == some e.now

/-- R109: a late outcome is discarded without counting; no second one can come of the same command. -/
def Library.dropLate (l : Library) (d : Drive) : Library := l.setDrive d { l.drive d with expired := none }

/-- R109, R112: an outcome is taken by the command in progress at its drive; one that answers none, or a command that has expired, is discarded. -/
def State.outcome (s : State) (d : Drive) (f : State → InService → State) : Answer :=
  s.event fun s =>
    if s.lib.lateOutcome s.env d then { s with lib := s.lib.dropLate d }
    else match s.lib.activeService d with
      | some v => f s v
      | none => s

/-- R109: the outcome of a command that is not a patrol verify. -/
def State.finishCommand (s : State) (d : Drive) : State := { s with lib := s.lib.finishCommand s.env d false }

/-! ## Fetch reads -/

/-- R64, R67, R68: the outcome of a window's read, or of one whose window has let it go (R47, R49). -/
def Library.fetchOutcome (e : Env) (l : Library) (t : Tag) (b : Book) (f : Nat) (live : Bool) (sectors : List Nat)
    (results : List ReadResult) : Library :=
  if live then
    match (l.windows t).find? fun w => w.book == b && w.frame == f && w.reading with
    | some w => l.windowOutcome e t w sectors results
    | none => l
  else l

/-- R64: a fetch read outcome. -/
def execFetchReadOutcome (d : Drive) (results : List ReadResult) (s : State) : Answer :=
  s.outcome d fun s v =>
    match v.command with
    | .fetchRead t b f sectors live _ =>
      if results.length = sectors.length then
        let l := (s.finishCommand d).lib.countRead s.env d v.side b f (some t) results
        { s with lib := l.fetchOutcome s.env t b f live sectors results }.react s.lib
      else s
    | _ => s

/-! ## Primary writes -/

/-- R83, R95: the hold entry of a page that has been filed in a book with a twin, with the examination of its book and of the books of demoted entries, in
ascending book number (R52). -/
def Library.keepFiled (e : Env) (l : Library) (b : Book) (f : Nat) (data : List Sector) : Library :=
  if (l.book b).twin.isSome then
    let h : HoldEntry := ⟨b, f, data⟩
    (l.joinHold h).examineBooks e fun c => c == b || (l.demotion h).2.any fun g => g.book == c
  else l.examine e b

/-- R83: the maps and the request at an OK outcome. -/
def Library.filed (e : Env) (l : Library) (t : Tag) (g : Filing) : Library :=
  ((l.raiseFiling g.book).keepFiled e g.book g.frame g.received).endRequest t .done g.len 0

/-- R85, R86: the maps and the request when a primary write has failed; the health record is counted for a WRITE_FAIL alone, and a full rescue queue is
recorded before WRITE_FAILED (log entry 44). -/
def Library.spent (e : Env) (l : Library) (t : Tag) (g : Filing) (s : Side) (d : Drive) (count : Bool) : Library :=
  let l := l.raiseFiling g.book
  let l := if count then l.countWriteFail e s else l
  let l := l.faultWrite e g.book s g.frame d (some t)
  (l.examine e g.book).endRequest t .fileFailed 0 0

/-- R83: a primary write verifies OK. -/
def execPrimaryWriteOk (d : Drive) (s : State) : Answer :=
  s.outcome d fun s v =>
    match v.command with
    | .primaryWrite t b f =>
      let u := s.finishCommand d
      match s.lib.fileOf t with
      | some (_, g) =>
        let e := s.env.setFrame b f (s.env.filedEntry g)
        { u with env := e, lib := u.lib.filed e t g }.react s.lib
      | none => u.react s.lib
    | _ => s

/-- R85: a primary write ends WRITE_FAIL. -/
def execPrimaryWriteFail (d : Drive) (s : State) : Answer :=
  s.outcome d fun s v =>
    match v.command with
    | .primaryWrite t b f =>
      let u := s.finishCommand d
      match s.lib.fileOf t with
      | some (_, g) =>
        let e := s.env.setFrame b f .void
        { u with env := e, lib := u.lib.spent e t g v.side d true }.react s.lib
      | none => u.react s.lib
    | _ => s

/-! ## Twin writes and re-reads -/

/-- R99, R100: the side of a twin write is still its book's twin. -/
def Library.stillTwin (l : Library) (b : Book) (s : Side) : Bool := (l.book b).twin == some s

/-- R98: no twin write of a book is in progress. -/
def Library.endTwinWrite (l : Library) (b : Book) : Library := l.setTwin b { l.twin b with writing := none }

/-- R99: the twin mark passes the frame that has been written; a frame that became LOST meanwhile has been passed already. No twin mark passes its
filing mark (R4). -/
def Library.passTwinMark (l : Library) (b : Book) (f : Nat) : Library :=
  let k := l.book b
  if k.twinMark = f ∧ f < k.filing then l.setBook b { k with twinMark := f + 1 } else l

/-- R99: a twin write is verified. -/
def Library.twinWritten (e : Env) (l : Library) (b : Book) (f : Nat) : Library :=
  let l := (l.endTwinWrite b).passTwinMark b f
  let l := l.leaveHold fun h => h.book == b && h.frame == f
  (l.dropRereads e b fun g => g == f).examine e b

/-- R99, R8: the outcome of a twin write that is verified; with the twin removed it only releases the slots of its source. -/
def execTwinWriteVerified (d : Drive) (s : State) : Answer :=
  s.outcome d fun s v =>
    match v.command with
    | .twinWrite b f _ _ _ =>
      let l := (s.finishCommand d).lib
      { s with lib := if l.stillTwin b v.side then l.twinWritten s.env b f else l.grantRereads s.env }.react s.lib
    | _ => s

/-- R100: a twin write has failed: the book is PAUSED. -/
def Library.twinFailed (e : Env) (l : Library) (b : Book) (f : Nat) (s : Side) (d : Drive) : Library :=
  let l := (l.faultWrite e b s f d none).endTwinWrite b
  (l.setTwin b { l.twin b with state := .paused }).stopTwinWork e b

/-- R100, R8: a twin write ends WRITE_FAIL; with the twin removed it is counted and releases the slots of its source. A full rescue queue is recorded before
WRITE_FAILED (log entry 44). -/
def execTwinWriteFail (d : Drive) (s : State) : Answer :=
  s.outcome d fun s v =>
    match v.command with
    | .twinWrite b f _ _ _ =>
      let l := (s.finishCommand d).lib.countWriteFail s.env v.side
      { s with lib :=
          if l.stillTwin b v.side then l.twinFailed s.env b f v.side d else l.grantRereads s.env }.react s.lib
    | _ => s

/-- Table 4-5: the data of a result; none for a failed one. -/
def resultData : ReadResult → Option Sector
  | .ok x => some x
  | .corrected x => some x
  | .uncorrectable => none
  | .blank => none

/-- R97: a re-read whose sectors were all read is READY. -/
def Library.rereadDone (e : Env) (l : Library) (b : Book) (f : Nat) (data : List Sector) : Library :=
  (l.mapRereads b fun rs => rs.map fun r => if r.frame = f then { r with state := .ready, data := data } else r).examine e b

/-- R97: a re-read that failed: the frame becomes the book's failed frame, unless a lower one is recorded, and the records from it up are
removed. -/
def Library.rereadFailed (e : Env) (l : Library) (b : Book) (f : Nat) : Library :=
  let t := l.twin b
  let low := min f (t.failed.getD f)
  let l := l.setTwin b { t with failed := some low }
  (l.dropRereads e b fun g => g == f || Decidable.decide (low < g)).examine e b

/-- R97: the outcome of a re-read. -/
def Library.rereadOutcome (e : Env) (l : Library) (b : Book) (f : Nat) (results : List ReadResult) : Library :=
  match results.mapM resultData with
  | some data => l.rereadDone e b f data
  | none => l.rereadFailed e b f

/-- R97, R52: a twin re-read outcome; the data of one whose record is gone is discarded. -/
def execRereadOutcome (d : Drive) (results : List ReadResult) (s : State) : Answer :=
  s.outcome d fun s v =>
    match v.command with
    | .reread b f len live =>
      if results.length = len then
        let l := (s.finishCommand d).lib.countRead s.env d v.side b f none results
        { s with lib := if live then l.rereadOutcome s.env b f results else l.grantRereads s.env }.react s.lib
      else s
    | _ => s

/-! ## Rescue reads and writes -/

/-- R170: the sectors that were read take their data. -/
def BatchFrame.receive (x : BatchFrame) (sectors : List Nat) (results : List ReadResult) : BatchFrame :=
  { x with
    data := x.data.mapIdx fun i old =>
      match (sectors.zip results).find? fun p => p.1 == i with
      | some (_, r) => (resultData r).or old
      | none => old
    reading := false }

/-- R171: the copy of a frame that a side is. -/
def RescueRecord.copyOf (r : RescueRecord) (s : Side) : Copy := if r.source = s then .source else .other

/-- R171: sectors of a frame have failed on a copy. -/
def BatchFrame.failOn (x : BatchFrame) : Copy → BatchFrame
  | .source => { x with sourceFailed := true }
  | .other => { x with otherFailed := true }

/-- R170, R171, R172: a frame after an outcome of its read: READY, or with its next copy, or LOST. -/
def Library.rescueRead (e : Env) (l : Library) (r : RescueRecord) (s : Side) (x : BatchFrame) (sectors : List Nat)
    (results : List ReadResult) : BatchFrame :=
  let x := x.receive sectors results
  if x.lacking.isEmpty then { x with state := .ready, waits := none }
  else l.turnFrame e r (x.failOn (r.copyOf s))

/-- R172: the directories when a frame has been looked for in vain. -/
def Env.lose (e : Env) (b : Book) (f : Nat) : Env := e.setFrame b f (e.frame b f).lose

/-- R170 to R172: a rescue read's outcome at the frame that it was for; when the last copy has failed the frame is lost. -/
def State.rescueOutcome (s : State) (side : Side) (f : Nat) (sectors : List Nat) (results : List ReadResult) : State :=
  match s.lib.care.rescue, s.lib.care.batch with
  | some r, some xs =>
    match xs.find? fun x => x.frame == f with
    | some x =>
      let y := s.lib.rescueRead s.env r side x sectors results
      let l := s.lib.mapBatch fun z => if z.frame = f then y else z
      if y.state = .lost then
        let e := s.env.lose r.book f
        { s with env := e, lib := l.frameLost e r.book f r.source }
      else { s with lib := l }
    | none => s
  | _, _ => s

/-- R170: a rescue read outcome; one whose batch has been discarded is only counted. -/
def execRescueReadOutcome (d : Drive) (results : List ReadResult) (s : State) : Answer :=
  s.outcome d fun s v =>
    match v.command with
    | .rescueRead b f sectors live =>
      if results.length = sectors.length then
        let u := { s with lib := (s.finishCommand d).lib.countRead s.env d v.side b f none results }
        (if live then u.rescueOutcome v.side f sectors results else u).react s.lib
      else s
    | _ => s

/-- R173: the state of a frame of the batch is set. -/
def Library.setBatchState (l : Library) (f : Nat) (st : BatchState) : Library :=
  l.mapBatch fun x => if x.frame = f then { x with state := st } else x

/-- R173: a rescue target write verifies OK; one whose batch has been discarded changes nothing more (R176). -/
def execRescueWriteVerified (d : Drive) (s : State) : Answer :=
  s.outcome d fun s v =>
    match v.command with
    | .rescueWrite _ f live =>
      let l := (s.finishCommand d).lib
      { s with lib := if live then l.setBatchState f .written else l }.react s.lib
    | _ => s

/-- R174: the target of the rescue is RETIRED, the copying begins again from frame 0, and a new target is sought. -/
def Library.loseTarget (l : Library) (r : RescueRecord) (target : Side) : Library :=
  let l := (l.setRole target (.retired r.book)).dropBatch
  { l with care := { l.care with rescue := some { r with target := none, copyMark := 0 }, seekDue := true } }

/-- R174: a rescue target write ends WRITE_FAIL; it is counted before WRITE_FAILED is recorded (log entry 44). -/
def execRescueWriteFail (d : Drive) (s : State) : Answer :=
  s.outcome d fun s v =>
    match v.command with
    | .rescueWrite b f _ =>
      let l := (s.finishCommand d).lib.countWriteFail s.env v.side
      let l := l.faultWrite s.env b v.side f d none
      { s with lib :=
          match l.care.rescue with
          | some r => if r.target = some v.side then l.loseTarget r v.side else l
          | none => l }.react s.lib
    | _ => s

/-! ## Patrol verifies -/

/-- R164: a HEAD or CONT frame lies at or above a side's patrol mark and below its patrol top. -/
def Library.patrolGoesOn (e : Env) (l : Library) (s : Side) : Bool :=
  match (l.role s).holds with
  | some b =>
    let mark := (l.health s).patrolMark
    (List.range' mark (l.patrolTop s - mark)).any fun f => (e.frame b f).filed
  | none => true

/-- R164: the patrol mark passes the frame that was verified, and the pass may be full. A side that has left PRIMARY and TWIN has no pass. -/
def Library.patrolled (e : Env) (l : Library) (s : Side) (f : Nat) : Library :=
  let l := l.setHealth s { l.health s with patrolMark := f + 1 }
  if l.patrolGoesOn e s then l.callPatrol else l.fullPass e s

/-- R164: a patrol verify outcome. -/
def execPatrolVerifyOutcome (d : Drive) (results : List ReadResult) (s : State) : Answer :=
  s.outcome d fun s v =>
    match v.command with
    | .patrolVerify b f len =>
      if results.length = len then
        let l := (s.lib.finishCommand s.env d true).countRead s.env d v.side b f none results
        { s with lib := l.patrolled s.env v.side f }.react s.lib
      else s
    | _ => s

/-! ## Drive command failures -/

/-- R66: a fetch read that failed. -/
def Library.fetchFailed (l : Library) (v : InService) (t : Tag) (b : Book) (f : Nat) : Library :=
  match (l.windows t).find? fun w => w.book == b && w.frame == f && w.reading with
  | some w => l.windowFailed t w v.side v.item
  | none => l

/-- R101: a twin write that failed returns its item, unless its frame has become LOST or its book's twin has been removed. -/
def Library.twinWriteReturned (e : Env) (l : Library) (v : InService) (b : Book) (live : Bool) : Library :=
  if l.stillTwin b v.side then
    let l := l.endTwinWrite b
    (if live then l.giveBack v.side v.item else l.grantRereads e).examine e b
  else l.grantRereads e

/-- R101: a re-read that failed returns its record to GRANTED and its item to the primary side's list. Where another record has become GRANTED
during the read and its item stands there already, that one stays, with its age (R125; log entry 59). -/
def Library.rereadReturned (l : Library) (v : InService) (b : Book) (f : Nat) : Library :=
  let l := l.mapRereads b fun rs => rs.map fun r => if r.frame = f then { r with state := .granted } else r
  match (l.book b).primary with
  | some p => l.giveBack p v.item
  | none => l

/-- R112: the owner of a failed command takes it back: it returns the item with its former placement time, or takes the frame as spent (R86). A patrol
item stands on its list while its verify runs; one withdrawn meanwhile is not put back (R165; log entry 46). -/
def State.commandReturned (s : State) (d : Drive) (v : InService) : State :=
  match v.command with
  | .fetchRead t b f _ live _ => if live then { s with lib := s.lib.fetchFailed v t b f } else s
  | .primaryWrite t b f =>
    match s.lib.fileOf t with
    | some (_, g) =>
      let e := s.env.setFrame b f .void
      { s with env := e, lib := s.lib.spent e t g v.side d false }
    | none => s
  | .twinWrite b _ _ _ live => { s with lib := s.lib.twinWriteReturned s.env v b live }
  | .reread b f _ live => { s with lib := if live then s.lib.rereadReturned v b f else s.lib.grantRereads s.env }
  | .rescueRead _ f _ live =>
    if live then
      { s with lib := (s.lib.mapBatch fun x => if x.frame = f then { x with reading := false } else x).giveBack v.side v.item }
    else s
  | .rescueWrite _ f live => if live then { s with lib := (s.lib.setBatchState f .ready).giveBack v.side v.item } else s
  | .patrolVerify _ _ _ => { s with lib := s.lib.callPatrol }

/-- R112, R115: a command failure is counted. -/
def DriveRecord.failOnce (r : DriveRecord) : DriveRecord :=
  { r with commandFailures := satAdd Config.max8 r.commandFailures 1, failures := satAdd 2 r.failures 1 }

/-- R112, R130: a failure that ends a sector command: stop is sent, the item in service becomes absent and its owner takes it back. The slots that the
command kept come free here as at an outcome (log entry 41), and the failure sets the quiet time, which that of a spin up or spin down does not
(log entry 42). -/
def State.stopCommand (s : State) (d : Drive) (v : InService) : State :=
  let l := (s.lib.setDrive d { s.lib.drive d with service := none }).emit (.stop d)
  let l := if v.item.kind.isPatrol then l else { l with scheduler := { l.scheduler with quiet := s.env.now } }
  State.commandReturned { s with lib := l } d v

/-- R112: while the count is 1 the drive goes on: after a sector command to READY, else with its command repeated (R108, R110). -/
def Library.repeatCommand (e : Env) (l : Library) (d : Drive) : Library :=
  match (l.drive d).state with
  | .active => l.toReady e d
  | .spinUp => l.sendSpinUp e d
  | .spinDown => l.sendSpinDown e d
  | _ => l

/-- R112, R113: what a drive command failure itself does. The WRITE_FAILED of a primary write is recorded before DRIVE_FAILED (log entry 44). -/
def State.failCommand (s : State) (d : Drive) : State :=
  let s := { s with lib := s.lib.setDrive d (s.lib.drive d).failOnce }
  let s := match s.lib.activeService d with
    | some v => s.stopCommand d v
    | none => s
  { s with lib := if 2 ≤ (s.lib.drive d).failures then s.lib.failDrive s.env d else s.lib.repeatCommand s.env d }

/-- R112: a drive command failure, with the reactions to it. -/
def State.driveFailure (s : State) (d : Drive) : State := (s.failCommand d).react s.lib

/-- The time has come to a deadline that an expiry reports (log entry 3). -/
def State.reach (s : State) (deadline : Nat) : State := { s with env := s.env.reach deadline }

/-- R109: the time of an expiry of a drive's command limit is kept, so that the expired command's outcome can be told. -/
def State.noteExpiry (s : State) (d : Drive) : State :=
  { s with lib := s.lib.setDrive d { s.lib.drive d with expired := some s.env.now } }

/-- R112: the command limit of a drive expires. -/
def execCommandLimitExpiry (d : Drive) (s : State) : Answer :=
  s.atCommand d fun s v => ((s.reach (v.issued + Config.commandLimit)).noteExpiry d).driveFailure d

/-- R112: a command, a spin up or a spin down is in progress. -/
def DriveRecord.isWorking (r : DriveRecord) : Bool := r.state == .active || r.state == .spinUp || r.state == .spinDown

/-- R112: a drive reports a hardware fault; the report is taken for the command, spin up or spin down that is in progress when it arrives, also for one that
was issued at an expiry of the same time (log entry 51). -/
def execHardwareFaultReport (d : Drive) (s : State) : Answer :=
  s.event fun s => if (s.lib.drive d).isWorking then s.driveFailure d else s

/-- R108: the spin-up limit of a drive expires. -/
def execSpinUpLimitExpiry (d : Drive) (s : State) : Answer :=
  s.event fun s =>
    if (s.lib.drive d).state = .spinUp then (s.reach ((s.lib.drive d).limitStart + Config.spinLimit)).driveFailure d else s

/-- R110: the spin-down limit of a drive expires. -/
def execSpinDownLimitExpiry (d : Drive) (s : State) : Answer :=
  s.event fun s =>
    if (s.lib.drive d).state = .spinDown then (s.reach ((s.lib.drive d).limitStart + Config.spinLimit)).driveFailure d else s

end Sys2Proof.Machine
end

