-- ==== Sys2Proof/Machine/Reports.lean ====
section
/-! DEFINITION. The reports of drives and of the picker (R108, R110, R119, R120, R123), the slots' presence lines (R17 to R19), the times that the
Mount Scheduler waits for (R128, R131, R136) and the order timers (R150). -/

namespace Sys2Proof.Machine

/-! ## Drives -/

/-- R108: a drive has reported ready. -/
def Library.driveReady (e : Env) (l : Library) (d : Drive) : Library :=
  ((l.setDrive d { l.drive d with failures := 0, lastUse := e.now }).toReady e d).callPatrol

/-- R108, R111: a drive reports ready; a drive chosen to unload enters SPINDOWN. -/
def execReadyReport (d : Drive) (s : State) : Answer :=
  s.event fun s =>
    if (s.lib.drive d).state = .spinUp then { s with lib := s.lib.driveReady s.env d }.react s.lib else s

/-- R110, R111: a drive has reported stopped; with its unload flag set it asks its RETURN. -/
def Library.driveStopped (l : Library) (d : Drive) : Library :=
  let l := l.setDrive d { l.drive d with state := .stopped, failures := 0 }
  if (l.drive d).unload then l.askUnload d else l

/-- R110: a drive reports stopped. -/
def execStoppedReport (d : Drive) (s : State) : Answer :=
  s.event fun s =>
    if (s.lib.drive d).state = .spinDown then { s with lib := s.lib.driveStopped d }.react s.lib else s

/-- R110: a READY drive has no item in service and no patrol item on its side's list. -/
def Library.driveIdle (l : Library) (d : Drive) : Bool :=
  (l.drive d).state == .ready && (l.drive d).service.isNone && (match l.mountedSide d with
    | some s => !(l.items s).any fun i => i.kind.isPatrol
    | none => true)

/-- R110: the last-use time of an idle drive is 300 s past. -/
def execIdleSpinDown (d : Drive) (s : State) : Answer :=
  s.event fun s =>
    if s.lib.driveIdle d then
      let u := s.reach ((s.lib.drive d).lastUse + Config.idleLimit)
      { u with lib := u.lib.sendSpinDown u.env d }.react s.lib
    else s

/-! ## The picker -/

/-- R120: the LOAD whose retry waits for a drive's caddy report. -/
def Library.awaitedLoad (l : Library) (d : Drive) : Option Move :=
  if l.picker.awaitCaddy then
    match l.picker.record with
    | some (.load s f d') => if d' = d then some (.load s f d') else none
    | _ => none
  else none

/-- R120: a retry completes without motion when the drive has the cartridge, else the move command is sent again. -/
def Library.caddyAnswer (e : Env) (l : Library) (m : Move) (seated : Bool) : Library :=
  if seated then l.completeMove e m else l.resend e m

/-- R120, R123: a drive's caddy report, where a retry or start-up has asked for it; it is discarded otherwise (R112). -/
def execCaddyReport (d : Drive) (seated : Bool) (s : State) : Answer :=
  let s := s.begin
  .next
    (match s.env.startUp with
     | some w => if w.drive = some d then s.resumeStart w seated else s
     | none =>
       match s.lib.awaitedLoad d with
       | some m => { s with lib := s.lib.caddyAnswer s.env m seated }.react s.lib
       | none => s)

/-- R117: the move in progress whose command runs. -/
def Library.runningMove (l : Library) : Option Move :=
  if (l.picker.state = .moving ∨ l.picker.state = .retry) ∧ l.picker.awaitCaddy = false then l.picker.record else none

/-- R119: a completion that arrives at the time at which the move limit has expired is that of the attempt which has failed (log entry 48). -/
def Library.lateCompletion (e : Env) (l : Library) : Bool := l.picker.expired == some e.now

/-- R119: the picker reports completion; a report that answers no move, or an attempt that has expired, is discarded. -/
def execMoveCompletion (s : State) : Answer :=
  s.event fun s =>
    if s.lib.lateCompletion s.env then { s with lib := { s.lib with picker := { s.lib.picker with expired := none } } }
    else match s.lib.runningMove with
      | some m => { s with lib := s.lib.completeMove s.env m }.react s.lib
      | none => s

/-- R119: the time of an expiry of the move limit is kept, so that the expired attempt's completion can be told. -/
def Library.noteMoveExpiry (l : Library) (now : Nat) : Library := { l with picker := { l.picker with expired := some now } }

/-- R120: the move limit expires: stop is sent, and the picker's report is taken as the failure of the attempt. -/
def execMoveLimitExpiry (grip caddy : Bool) (s : State) : Answer :=
  s.event fun s =>
    match s.lib.runningMove with
    | some _ =>
      let u := s.reach (s.lib.picker.limitStart + Config.moveLimit)
      { u with lib := ((u.lib.noteMoveExpiry u.env.now).emit .pickerStop).attemptFailed u.env grip caddy true }.react s.lib
    | none => s

/-- R120, R114: the picker reports a fault. -/
def execPickerFaultReport (grip caddy : Bool) (s : State) : Answer :=
  s.event fun s =>
    match s.lib.runningMove with
    | some _ => { s with lib := s.lib.attemptFailed s.env grip caddy false }.react s.lib
    | none => s

/-! ## Presence -/

/-- R118: a drive whose RETURN was dropped at a seated home slot asks it again when the slot becomes vacant, in whatever state the drive then is; the
unload flag stays as it is (log entry 60). -/
def Library.askDropped (s : Slot) (l : Library) (d : Drive) : Library :=
  let r := l.drive d
  match r.askAgain, l.mountedSide d with
  | some reason, some m =>
    if slotOf m = s then (l.setDrive d { r with askAgain := none }).askReturn d reason else l
  | _, _ => l

/-- R17, R18, R19, R124: the effect of a changed reading. -/
def Library.presence (e : Env) (l : Library) (s : Slot) (seated : Bool) : Library :=
  let l := l.setSeated s seated
  let l := if seated then l else allDrives.foldl (Library.askDropped s) l
  if l.moving s then l
  else match l.location s with
    | .inSlot => if seated then l else l.removal e s
    | .absent => if seated then l.insertion s else l
    | .inDrive _ _ => l
    | .inPicker => l

/-- R19: a slot's presence line changes; during start-up the reading alone follows it. -/
def execPresenceChange (slot : Slot) (seated : Bool) (s : State) : Answer :=
  let s := s.begin
  .next
    (if s.lib.seated slot = seated then s
     else if s.starting then { s with lib := s.lib.setSeated slot seated }
     else { s with lib := s.lib.presence s.env slot seated }.react s.lib)

/-! ## Times -/

/-- R131: an event of time calls for a decision. -/
def State.timedDecision (s : State) (deadline : Nat) : State :=
  let u := s.reach deadline
  { u with lib := u.lib.callDecision }.react s.lib

/-- R131: the dwell of a drive whose side has demand runs out. -/
def execDwellExpiry (d : Drive) (s : State) : Answer :=
  s.event fun s =>
    if (s.lib.mountedSide d).any s.lib.hasDemand then s.timedDecision ((s.lib.drive d).mountTime + Config.dwell) else s

/-- R128, R131: an item reaches the age limit. -/
def execDemandAgeLimit (side : Side) (placed : Nat) (s : State) : Answer :=
  s.event fun s =>
    if (s.lib.demand side).any fun i => i.placed == placed then s.timedDecision (placed + Config.ageLimit) else s

/-- R136: the patrol idle time expires, when no side has demand. -/
def execPatrolIdleTime (s : State) : Answer :=
  s.event fun s =>
    if allSides.any s.lib.hasDemand then s else s.timedDecision (s.lib.scheduler.quiet + Config.patrolIdle)

/-- R150, R149: a station's order timer expires and its order closes. -/
def execOrderTimerExpiry (station : Station) (s : State) : Answer :=
  s.event fun s =>
    match look s.fee.orders station with
    | some o =>
      let u := s.reach (s.fee.schedule.expiry o)
      { u with fee := u.fee.closeOrder station }
    | none => s

end Sys2Proof.Machine
end

