-- ==== Sys2Proof/Machine/Power.lean ====
section
/-! DEFINITION. The power warning line (R181, R182) and the resets (R183). -/

namespace Sys2Proof.Machine

/-- R44, R75: a FETCH in the record books whose last sector has been delivered ends DONE. One with a sector of its run left is left to HOLD, which ends it with
POWER_HOLD (R181), also when a stop or a boundary lies next above the sector delivered (log entry 30). -/
def Library.endDelivered (l : Library) (t : Tag) : Library :=
  match l.entry t with
  | some x => if x.moved = x.record.count.val then l.endRequest t .done x.moved 0 else l
  | none => l

/-- R26, R75: the sectors of a FETCH that are ready to be sent in one burst. -/
def Entry.sectorsReady (x : Entry) : Nat :=
  if x.live then
    match x.job with
    | .fetch g =>
      match g.windows with
      | w :: _ => (w.run (sectorOf (x.record.addr.val + x.moved))).length
      | [] => 0
    | .servicePages => x.record.count.val - x.moved
    | _ => 0
  else 0

/-- R26, R28: the FETCH whose burst is on the link with a sector in transfer behind `sent` others. The link carries one burst or pull at a time, so there is none while
a FILE's burst is arriving or a pull is next, and none where the burst has not that many sectors ready: an operand that says otherwise names no sector (log entry 7). -/
def Library.burstOnLink (l : Library) (sent : Nat) : Option (Tag × Entry) :=
  match l.nextJob with
  | some (.burst t) =>
    match l.entry t with
    | some x => if sent < min x.sectorsReady Config.sectorsPerFrame then some (t, x) else none
    | none => none
  | _ => none

/-- R42, R181: the burst of a FETCH is cut after its sector in transfer, the last of the `sectors` that it delivers, also among the zero-filled sectors beyond the frame's
length; with the last sector of its run the request ends. The state `now` is the one that the event found. -/
def State.finishTransfer (s now : State) (t : Tag) (x : Entry) (sectors : Nat) : State :=
  match x.job with
  | .fetch g =>
    match g.windows with
    | w :: _ =>
      let u := s.deliver t x w ((w.run (sectorOf (x.record.addr.val + x.moved))).take sectors)
      { u with lib := u.lib.endDelivered t }
    | [] => s
  | .servicePages => s.deliverPages now t x sectors
  | _ => s

/-- R181: what HOLD does to a request that is not a FILE in the record books: a FETCH ends, and a service write whose sector has not arrived ends
without being applied. -/
def Library.holdRequest (l : Library) (t : Tag) : Library :=
  match l.entry t with
  | some x =>
    if x.live then
      match x.job with
      | .fetch _ => l.endRequest t .powerHold x.moved 0
      | .servicePages => l.endRequest t .powerHold x.moved 0
      | .serviceWrite pulled => l.endRequest t .powerHold 0 (if pulled then 1 else 0)
      | .file _ => l
      | .refused => l
    else l
  | none => l

/-- R181, R89: the requests that end when HOLD begins. -/
def Library.holdRequests (l : Library) : Library := (allTags.foldl Library.holdRequest l).unwindAll

/-- R181, R152: HOLD is entered and every order closes. -/
def State.beginHold (s : State) : State := { s.enterHold with fee := s.fee.closeAll }

/-- R152: the offer of a burst, which only its first sector can make (R77), is taken before the assertion where a later sector is in transfer, and in either order where
the first is. -/
def offersFirst (i : InTransfer) : Bool := i.offerFirst || decide (0 < i.sent)

/-- R152, R181: HOLD begins while a burst is on the link. An offer taken before the assertion is charged to the open order, which then closes, and one taken after it to a new order. POWER_WARNING is
recorded before the TALLY_SATURATED of an offer taken after the assertion, and after that of one taken before (log entry 44). -/
def State.holdOver (s : State) (i : InTransfer) : State :=
  match s.lib.burstOnLink i.sent with
  | some (t, x) =>
    if offersFirst i then (s.finishTransfer s t x (i.sent + 1)).beginHold else s.beginHold.finishTransfer s t x (i.sent + 1)
  | none => s.beginHold

/-- R181: the power warning is asserted: HOLD begins, and the requests end. -/
def State.assertWarning (s : State) (inTransfer : Option InTransfer) : State :=
  let u := match inTransfer with
    | some i => s.holdOver i
    | none => s.beginHold
  { u with lib := u.lib.holdRequests }.react s.lib

/-- R183: the warning line of a start-up that is not over. -/
def State.noteWarning (s : State) (w : StartUp) (asserted : Bool) : State :=
  { s with env := { s.env with startUp := some { w with warning := asserted } } }

/-- R181: the power warning is asserted; an assertion in HOLD is no event, and one during start-up is read at its step 11. -/
def execPowerWarning (inTransfer : Option InTransfer) (s : State) : Answer :=
  let s := s.begin
  .next
    (match s.env.startUp with
     | some w => s.noteWarning w true
     | none => if s.env.hold then s else s.assertWarning inTransfer)

/-- R182: HOLD ends: the hold marker is cleared, a decision is taken, and moves and items are taken again. -/
def State.endHold (s : State) : State :=
  { s with env := { s.env with hold := false, holdMarker := false }, lib := s.lib.callDecision.callPatrol }.react s.lib

/-- R182: the power warning is withdrawn. -/
def execHoldEnd (s : State) : Answer :=
  let s := s.begin
  .next
    (match s.env.startUp with
     | some w => s.noteWarning w false
     | none => if s.env.hold then s.endHold else s)

/-- R183, R184: a reset runs start-up from its first step, whatever was going on. -/
def execReset (cause : ResetCause) (inputs : ResetInputs) (s : State) : Answer := .next (s.begin.startUp cause inputs)

end Sys2Proof.Machine
end

