-- ==== Sys2Proof/Machine/ServiceWrites.lean ====
section
/-! DEFINITION. The service writes as commands (R5 to R9, R15, R122, R141, R151, R158, R166, R179, R186): the sector of the service write of a tag arrives with
the data that the row of the table names. A command is taken when the tag's request names the block of its row; otherwise it is no
event and changes nothing (log entry 5). -/

namespace Sys2Proof.Machine

/-- R158: a day close. -/
def execDayClose (tag : Tag) (day : Nat) (s : State) : Answer :=
  .next (s.serviceArrival tag .locked fun k => match k with
    | .day => some (.dayClose day)
    | _ => none)

/-- R179: clear faults. -/
def execClearFaults (tag : Tag) (s : State) : Answer :=
  .next (s.serviceArrival tag .locked fun k => match k with
    | .fault => some .clearFaults
    | _ => none)

/-- R179: set mask. -/
def execSetMask (tag : Tag) (mask : BitVec 16) (s : State) : Answer :=
  .next (s.serviceArrival tag .locked fun k => match k with
    | .fault => some (.setMask mask)
    | _ => none)

/-- R179: clear causes. -/
def execClearCauses (tag : Tag) (s : State) : Answer :=
  .next (s.serviceArrival tag .locked fun k => match k with
    | .fault => some .clearCauses
    | _ => none)

/-- R122: a picker clear. -/
def execPickerClear (tag : Tag) (s : State) : Answer :=
  .next (s.serviceArrival tag .locked fun k => match k with
    | .picker => some .pickerClear
    | _ => none)

/-- R151: a write to an order block closes that station's order. -/
def execOrderClose (tag : Tag) (s : State) : Answer :=
  .next (s.serviceArrival tag .locked fun k => match k with
    | .order st => some (.orderClose st)
    | _ => none)

/-- R141: a schedule write. -/
def execScheduleWrite (tag : Tag) (key : KeyPosition) (data : ScheduleData) (s : State) : Answer :=
  .next (s.serviceArrival tag key fun k => match k with
    | .schedule => some (.schedule data)
    | _ => none)

/-- R15: a pool write with action 1. -/
def execPoolAddition (tag : Tag) (key : KeyPosition) (count : Nat) (sides : List Nat) (s : State) : Answer :=
  .next (s.serviceArrival tag key fun k => match k with
    | .pool => some (poolWrite true count sides)
    | _ => none)

/-- R15: a pool write with action 2. -/
def execPoolRemoval (tag : Tag) (key : KeyPosition) (count : Nat) (sides : List Nat) (s : State) : Answer :=
  .next (s.serviceArrival tag key fun k => match k with
    | .pool => some (poolWrite false count sides)
    | _ => none)

/-- R166: a threshold write. -/
def execThresholdWrite (tag : Tag) (key : KeyPosition) (value : Nat) (s : State) : Answer :=
  .next (s.serviceArrival tag key fun k => match k with
    | .rescue => some (.threshold value)
    | _ => none)

/-- R6: an assignment. -/
def execAssignment (tag : Tag) (key : KeyPosition) (primary twin : Nat) (s : State) : Answer :=
  .next (s.serviceArrival tag key fun k => match k with
    | .book b => some (.assign b primary twin)
    | _ => none)

/-- R7: a twin addition. -/
def execTwinAddition (tag : Tag) (key : KeyPosition) (twin : Nat) (s : State) : Answer :=
  .next (s.serviceArrival tag key fun k => match k with
    | .book b => some (.addTwin b twin)
    | _ => none)

/-- R8: a twin removal. -/
def execTwinRemoval (tag : Tag) (key : KeyPosition) (s : State) : Answer :=
  .next (s.serviceArrival tag key fun k => match k with
    | .book b => some (.removeTwin b)
    | _ => none)

/-- R5: a close of a book. -/
def execCloseBook (tag : Tag) (key : KeyPosition) (s : State) : Answer :=
  .next (s.serviceArrival tag key fun k => match k with
    | .book b => some (.close b)
    | _ => none)

/-- R186: the write of a sector that its block does not take: a block without writes, or a command or action that it does not know. -/
def refusedWrite (k : Block) (data : Sector) : Option ServiceWrite :=
  match readWrite k data with
  | .readOnly => some .readOnly
  | .unknown keyed => some (.unknown keyed)
  | _ => none

/-- R186: a service write that its block does not take. -/
def execServiceWriteRefused (tag : Tag) (key : KeyPosition) (data : Sector) (s : State) : Answer :=
  .next (s.serviceArrival tag key fun k => refusedWrite k data)

end Sys2Proof.Machine
end

