-- ==== Sys2Proof/Machine/Dispatch.lean ====
section
/-! DEFINITION. The meaning of every command: one arm for each constructor of `Instr`. -/

namespace Sys2Proof.Machine

def exec (i : Instr) (s : State) : Host.Outcome State Fault Refusal :=
  match i with
  | .fetchRequest r => Sys2Proof.Machine.execFetchRequest r s
  | .fileRequest r => Sys2Proof.Machine.execFileRequest r s
  | .pull => Sys2Proof.Machine.execPull s
  | .fileBurstArrival tag data key => Sys2Proof.Machine.execFileBurstArrival tag data key s
  | .burstSent count => Sys2Proof.Machine.execBurstSent count s
  | .responseSent => Sys2Proof.Machine.execResponseSent s
  | .fetchReadOutcome drive results => Sys2Proof.Machine.execFetchReadOutcome drive results s
  | .primaryWriteOk drive => Sys2Proof.Machine.execPrimaryWriteOk drive s
  | .primaryWriteFail drive => Sys2Proof.Machine.execPrimaryWriteFail drive s
  | .twinWriteVerified drive => Sys2Proof.Machine.execTwinWriteVerified drive s
  | .twinWriteFail drive => Sys2Proof.Machine.execTwinWriteFail drive s
  | .rereadOutcome drive results => Sys2Proof.Machine.execRereadOutcome drive results s
  | .rescueReadOutcome drive results => Sys2Proof.Machine.execRescueReadOutcome drive results s
  | .rescueWriteVerified drive => Sys2Proof.Machine.execRescueWriteVerified drive s
  | .rescueWriteFail drive => Sys2Proof.Machine.execRescueWriteFail drive s
  | .patrolVerifyOutcome drive results => Sys2Proof.Machine.execPatrolVerifyOutcome drive results s
  | .commandLimitExpiry drive => Sys2Proof.Machine.execCommandLimitExpiry drive s
  | .hardwareFaultReport drive => Sys2Proof.Machine.execHardwareFaultReport drive s
  | .spinUpLimitExpiry drive => Sys2Proof.Machine.execSpinUpLimitExpiry drive s
  | .spinDownLimitExpiry drive => Sys2Proof.Machine.execSpinDownLimitExpiry drive s
  | .readyReport drive => Sys2Proof.Machine.execReadyReport drive s
  | .stoppedReport drive => Sys2Proof.Machine.execStoppedReport drive s
  | .idleSpinDown drive => Sys2Proof.Machine.execIdleSpinDown drive s
  | .caddyReport drive seated => Sys2Proof.Machine.execCaddyReport drive seated s
  | .moveCompletion => Sys2Proof.Machine.execMoveCompletion s
  | .moveLimitExpiry grip caddy => Sys2Proof.Machine.execMoveLimitExpiry grip caddy s
  | .pickerFaultReport grip caddy => Sys2Proof.Machine.execPickerFaultReport grip caddy s
  | .presenceChange slot seated => Sys2Proof.Machine.execPresenceChange slot seated s
  | .dwellExpiry drive => Sys2Proof.Machine.execDwellExpiry drive s
  | .demandAgeLimit side placed => Sys2Proof.Machine.execDemandAgeLimit side placed s
  | .patrolIdleTime => Sys2Proof.Machine.execPatrolIdleTime s
  | .orderTimerExpiry station => Sys2Proof.Machine.execOrderTimerExpiry station s
  | .powerWarning inTransfer => Sys2Proof.Machine.execPowerWarning inTransfer s
  | .holdEnd => Sys2Proof.Machine.execHoldEnd s
  | .reset cause inputs => Sys2Proof.Machine.execReset cause inputs s
  | .dayClose tag day => Sys2Proof.Machine.execDayClose tag day s
  | .clearFaults tag => Sys2Proof.Machine.execClearFaults tag s
  | .setMask tag mask => Sys2Proof.Machine.execSetMask tag mask s
  | .clearCauses tag => Sys2Proof.Machine.execClearCauses tag s
  | .pickerClear tag => Sys2Proof.Machine.execPickerClear tag s
  | .orderClose tag => Sys2Proof.Machine.execOrderClose tag s
  | .scheduleWrite tag key data => Sys2Proof.Machine.execScheduleWrite tag key data s
  | .poolAddition tag key count sides => Sys2Proof.Machine.execPoolAddition tag key count sides s
  | .poolRemoval tag key count sides => Sys2Proof.Machine.execPoolRemoval tag key count sides s
  | .thresholdWrite tag key value => Sys2Proof.Machine.execThresholdWrite tag key value s
  | .assignment tag key primary twin => Sys2Proof.Machine.execAssignment tag key primary twin s
  | .twinAddition tag key twin => Sys2Proof.Machine.execTwinAddition tag key twin s
  | .twinRemoval tag key => Sys2Proof.Machine.execTwinRemoval tag key s
  | .closeBook tag key => Sys2Proof.Machine.execCloseBook tag key s
  | .serviceWriteRefused tag key data => Sys2Proof.Machine.execServiceWriteRefused tag key data s

end Sys2Proof.Machine
end

