-- ==== Sys2Proof/Machine/Step.lean ====
section
/-! DEFINITION. The step: the command at the front of the queue is taken; on an empty queue one second passes. -/

namespace Sys2Proof.Machine

/-- DESIGN CHOICE (log entry 1): on an empty queue one second passes and the links are quiet. -/
def State.tick (s : State) : State :=
  { s with env := { s.env with now := s.env.now + 1 }, lib := { s.lib with out := [] } }

/-- The command at the front of the queue is executed with the rest of the queue. -/
def step (s : State) : Host.Outcome State Fault Refusal :=
  match s.pending with
  | [] => .next s.tick
  | c :: rest => exec c { s with pending := rest }

/-- The command that a word of the opcode table spells is put at the front of the queue; no word spells one (log entry 4). -/
def State.withFetchWord (s : State) (nbits w : Nat) : State :=
  match decodeTableWord nbits w with
  | some c => { s with pending := c :: s.pending }
  | none => s

end Sys2Proof.Machine
end

