-- ==== Sys2Proof/Safety.lean ====
section
/-! DEFINITION. What a safe run is. The first part says what the reactions of the blocks inside one event leave alone, whatever they find to do; an event's
frame is told with it. The second part says what holds of every state of a run. -/

namespace Sys2Proof.Machine

/-! ## What the reactions of an event leave alone -/

/-- What the reactions keep of a request's entry: an ended entry is kept whole; a FETCH goes through its windows or ends; a FILE is issued or
unwinds (R80, R88); any other entry is kept whole. -/
structure Entry.KeptTo (x y : Entry) : Prop where
  record : y.record = x.record
  notes : y.notes = x.notes
  amount : y.amount = x.amount
  ended : x.live = false → y = x
  other : (∀ g, x.job ≠ .fetch g) → (∀ g, x.job ≠ .file g) → y = x
  moved : (∀ g, x.job ≠ .file g) → y.moved = x.moved
  stop : x.live = true → y.stopAddress = (match y.ended with
    | none => x.stopAddress
    | some o => stopAddressOf o x.record.addr.val y.moved)
  fetch : ∀ g, x.job = .fetch g → ∃ g', y.job = .fetch g'
  file : ∀ g, x.job = .file g → ∃ g', y.job = .file g' ∧ g'.book = g.book ∧ g'.frame = g.frame ∧
    (y.live = true → g'.received = g.received ∧ (g'.phase = g.phase ∨ g'.phase = .writing))
  writing : ∀ g, x.job = .file g → g.phase = .writing → y = x

/-- The drive states that no reaction leaves: a drive leaves them at an outcome, a report or a limit. -/
def DriveState.settled : DriveState → Bool
  | .loading => true
  | .spinUp => true
  | .active => true
  | .spinDown => true
  | .unloading => true
  | .failed => true
  | .empty => false
  | .ready => false
  | .stopped => false

/-- What the reactions keep of a drive: its counts and times, a settled state, and whether it is FAILED. -/
structure DriveRecord.KeptTo (x y : DriveRecord) : Prop where
  corrected : y.corrected = x.corrected
  uncorrectable : y.uncorrectable = x.uncorrectable
  commandFailures : y.commandFailures = x.commandFailures
  mountTime : y.mountTime = x.mountTime
  failures : y.failures = x.failures
  lastUse : y.lastUse = x.lastUse
  state : x.state.settled = true → y.state = x.state
  failed : y.state = .failed → x.state = .failed

/-- A side that no rescue can take as its target or reset: its role is not BLANK and the rescue record does not name it as target. -/
def Library.untargeted (l : Library) (s : Side) : Prop :=
  l.role s ≠ .blank ∧ ∀ r, l.care.rescue = some r → r.target ≠ some s

/-- A side that has no part in a rescue: neither BLANK, nor queued, nor named by the rescue record. -/
def Library.apart (l : Library) (s : Side) : Prop :=
  l.role s ≠ .blank ∧ s ∉ l.care.queue ∧ ∀ r, l.care.rescue = some r → r.source ≠ s ∧ r.target ≠ some s

/-- What the reactions keep of the requests, the marks, the hold list, the drives, the picker, the log and the links. -/
structure KeptMost (a b : Library) : Prop where
  link : b.front.linkBurst = a.front.linkBurst
  free : ∀ t, a.entry t = none → b.entry t = none
  entry : ∀ t x, a.entry t = some x → ∃ y, b.entry t = some y ∧ x.KeptTo y
  state : ∀ k, (b.book k).state = (a.book k).state
  filing : ∀ k, (b.book k).filing = (a.book k).filing
  twinMark : ∀ k, (a.book k).twinMark ≤ (b.book k).twinMark
  twinTop : ∀ k, (a.book k).twinMark ≤ (a.book k).filing → (b.book k).twinMark ≤ (b.book k).filing
  hold : b.buffer.hold = a.buffer.hold
  escalation : b.buffer.escalation = a.buffer.escalation
  escalationCopy : b.scheduler.escalation = a.scheduler.escalation
  drive : ∀ d, (a.drive d).KeptTo (b.drive d)
  locations : b.picker.locations = a.picker.locations
  presence : b.picker.presence = a.picker.presence
  picker : a.picker.state ≠ .idle →
    b.picker.state = a.picker.state ∧ b.picker.record = a.picker.record ∧ b.picker.awaitCaddy = a.picker.awaitCaddy
      ∧ b.picker.limitStart = a.picker.limitStart
  first : ∀ r, a.log.first = some r → b.log.first = some r
  later : ∀ k, KindSet.has a.log.later k = true → KindSet.has b.log.later k = true
  laterCount : a.log.laterCount ≤ Config.max8 →
    a.log.laterCount ≤ b.log.laterCount ∧ b.log.laterCount ≤ Config.max8
  out : ∃ os, b.out = a.out ++ os

/-- What the reactions keep of the sides: the counts of a side that no rescue can reset, the role of a side that has no part in a rescue, and the
rescue queue but for what leaves it. -/
structure KeptCare (e : Env) (a b : Library) : Prop where
  health : ∀ s, a.untargeted s → b.untargeted s ∧ (b.health s).corrected = (a.health s).corrected
    ∧ (b.health s).uncorrectable = (a.health s).uncorrectable
    ∧ (((b.health s).patrolMark = (a.health s).patrolMark ∧ (b.health s).lastPass = (a.health s).lastPass)
      ∨ ((b.health s).patrolMark = 0 ∧ (b.health s).lastPass = some e.day))
  role : ∀ s, a.apart s → b.apart s ∧ b.role s = a.role s
  queue : b.care.queue.Sublist a.care.queue

/-- With no rescue running or queued, the reactions keep every role, and the sides and the twin marks of the books. -/
def Library.KeptQuiet (a b : Library) : Prop :=
  a.care.rescue = none → a.care.queue = [] → b.care.rescue = none ∧ b.roles = a.roles
    ∧ ∀ k, (b.book k).primary = (a.book k).primary ∧ (b.book k).twin = (a.book k).twin
      ∧ (b.book k).twinMark = (a.book k).twinMark

/-- What an event's reactions make of the library `a` that its own effect left: the library `b`, with the responses of the requests that ended at
the event queued behind those that waited (R28). -/
structure Settled (e : Env) (a b : Library) : Prop extends KeptMost a b, KeptCare e a b where
  quiet : a.KeptQuiet b
  responses : ∃ rs, b.front.responses = a.front.responses ++ rs ∧ ∀ r ∈ a.front.ending, r ∈ rs
  ending : b.front.ending = []

/-- What an event without reactions makes of the library `a` that its own effect left: the responses of the requests that ended at the event are queued
behind those that waited, in ascending tag order (R28), the jobs ready on the link are those of the requests, and nothing else
changes. -/
structure Finished (a b : Library) : Prop where
  rest : b = { a with front := { a.front with ready := b.front.ready, responses := b.front.responses, ending := [] } }
  responses : ∃ rs, b.front.responses = a.front.responses ++ rs ∧ rs.Perm a.front.ending
  ready : ∀ j, j ∈ b.front.ready ↔ a.readyJob j.tag = some j

/-- The blocks but for the Request Port's jobs, the waiting lists and the demand lists: what an event that touches only requests leaves as it is. -/
structure SameBlocks (a b : Library) : Prop where
  books : b.books = a.books
  roles : b.roles = a.roles
  hold : b.buffer.hold = a.buffer.hold
  escalation : b.buffer.escalation = a.buffer.escalation
  twins : b.twins = a.twins
  drives : b.drives = a.drives
  picker : b.picker = a.picker
  care : b.care = a.care
  log : b.log = a.log

/-- An event whose own effect leaves the environment `e`, the accounts `f` and the library `a`: the blocks then react to what has changed since the
event began, in the order of log entry 23, and nothing else happens. -/
structure Reacted (s t : State) (e : Env) (f : Fee) (a : Library) : Prop where
  pending : t.pending = s.pending
  env : t.env = e
  fee : t.fee = f
  reacts : t.lib = a.settle e s.begin.lib
  lib : Settled e a t.lib

/-- An event without reactions whose own effect leaves the environment `e`, the accounts `f` and the library `a`. -/
structure Ended (s t : State) (e : Env) (f : Fee) (a : Library) : Prop where
  pending : t.pending = s.pending
  env : t.env = e
  fee : t.fee = f
  lib : Finished a t.lib

/-- R56, R128, R131: the escalation flag of the library `a` that an event's own effect leaves, where it has tested the held-sector total once: the flag follows the total, and
a change of it reaches the Mount Scheduler's copy and calls for a decision. -/
structure EscalationTested (l a : Library) : Prop where
  flag : a.buffer.escalation = escalationAfter l.buffer.escalation (a.buffer.hold.map fun h => h.data.length).sum
  changed : a.buffer.escalation ≠ l.buffer.escalation → a.scheduler.escalation = a.buffer.escalation ∧ a.scheduler.decisionDue = true
  same : a.buffer.escalation = l.buffer.escalation → a.scheduler.escalation = l.scheduler.escalation

/-! ## How a request ends, and when a service write is awaited -/

/-- R24, R44: the request of a tag, as its entry `x` stood, has ended with an outcome and a count of sectors moved: its entry keeps its fields until
the response is sent, and its response is queued. -/
structure RequestEnds (l : Library) (t : Tag) (x : Entry) (o : Outcome) (moved : Nat) : Prop where
  entry : ∃ y, l.entry t = some y ∧ y.record = x.record ∧ y.ended = some o ∧ y.moved = moved ∧ y.notes = x.notes ∧ y.amount = x.amount
    ∧ y.stopAddress = (if o = .done then x.record.addr.val + moved - 1 else x.record.addr.val + moved)
  response : ⟨x.record.tag, o, moved, if o = .done then x.record.addr.val + moved - 1 else x.record.addr.val + moved,
    x.record.count.val - moved, x.notes, x.amount⟩ ∈ l.front.responses

/-- R186: the service write of a tag, for a block, waits for its sector: start-up is over, no other burst is on the link, and the pull has been sent. -/
structure AwaitsWrite (s : State) (t : Tag) (x : Entry) (k : Block) : Prop where
  started : s.env.startUp = none
  link : s.lib.front.linkBurst = none ∨ s.lib.front.linkBurst = some t
  entry : s.lib.entry t = some x
  live : x.ended = none
  job : x.job = .serviceWrite true
  block : blockOf (serviceBlock x.record.addr.val) = k

/-- A service write that ends without reactions leaves every block and every other request as it was, but for what `a` and `f` and `e` name. -/
structure WriteEnds (s t : State) (tag : Tag) (x : Entry) (o : Outcome) (moved : Nat) : Prop where
  pending : t.pending = s.pending
  request : RequestEnds t.lib tag x o moved
  others : ∀ u, u ≠ tag → t.lib.entry u = s.lib.entry u
  link : t.lib.front.linkBurst = s.lib.front.linkBurst
  out : t.lib.out = []

/-- R109: the sector command of an ACTIVE drive. -/
structure Running (s : State) (d : Drive) (v : InService) : Prop where
  started : s.env.startUp = none
  state : (s.lib.drive d).state = .active
  service : (s.lib.drive d).service = some v

/-- R109: the sector command of an ACTIVE drive, with no expiry of its limit at the present time: an outcome that arrives answers it. -/
structure Answered (s : State) (d : Drive) (v : InService) : Prop extends Running s d v where
  fresh : (s.lib.drive d).expired ≠ some s.env.now

/-! ## What holds of every state of a run -/

/-- R142, R144, R147: an order stands for at least one charged page; its mode is CERTIFIED once its surcharge has been applied and not before; its
amount and its page count fit their fields. -/
structure Order.sound (o : Order) : Prop where
  pages : 1 ≤ o.pages
  mode : o.certified = o.surcharged
  amountTop : o.amount ≤ Config.max32
  pagesTop : o.pages ≤ Config.max16

/-- R142: for a class whose cap is not 0, an order's running amount never exceeds the cap. -/
def Order.withinCap (c : Schedule) (o : Order) : Prop := (look c.lines o.cls).cap ≠ 0 → o.amount ≤ (look c.lines o.cls).cap

/-- R143, R149: a recent-page list holds at most 32 frames and no frame twice, and none when no order is open. -/
def recentSound (o : Option Order) (frames : List Nat) : Prop :=
  frames.length ≤ Config.recentPages ∧ frames.Nodup ∧ (o = none → frames = [])

/-- R140: the ranges of Table 8-1. -/
def FeeLine.sound (p : FeeLine) : Prop := p.fee ≤ 9999 ∧ p.threshold ≤ 255 ∧ p.rate ≤ 100 ∧ p.cap ≤ 999999

/-- R140: the ranges of Table 8-1. -/
def Schedule.sound (c : Schedule) : Prop :=
  (∀ k, (look c.lines k).sound) ∧ c.surcharge ≤ 99999 ∧ 1 ≤ c.timeout ∧ c.timeout ≤ 60

/-- R153: until the tally-saturated flag is set, the grand amount, pages and orders are the sums of the stations', and the grand amount and pages are those of the
classes'. -/
def Tallies.balanced (t : Tallies) : Prop :=
  t.saturated = false →
    t.amount = (allStations.map fun s => (look t.stations s).amount).sum
    ∧ t.pages = (allStations.map fun s => (look t.stations s).pages).sum
    ∧ t.orders = (allStations.map fun s => (look t.stations s).orders).sum
    ∧ t.amount = ((List.finRange 8).map fun c => (look t.classes c).amount).sum
    ∧ t.pages = ((List.finRange 8).map fun c => (look t.classes c).pages).sum

/-- The accounts of a run: the schedule in its ranges (R140), each order and each recent-page list sound (R142, R143), and the sums of R153. -/
structure Fee.sound (f : Fee) : Prop where
  schedule : f.schedule.sound
  order : ∀ s o, look f.orders s = some o → o.sound ∧ o.withinCap f.schedule
  recent : ∀ s, recentSound (look f.orders s) (look f.recent s)
  tallies : f.tallies.balanced
  closed : f.closedTallies.balanced

/-- R152, R183: no order is open in HOLD or while start-up is not over. -/
def State.ordersHeld (s : State) : Prop :=
  s.env.hold = true ∨ s.env.startUp.isSome = true → ∀ k, look s.fee.orders k = none

/-- R10, R157, R166: the directories in their one form, the day number 1 to 65535, the threshold at least 1. -/
def Env.sound (e : Env) : Prop :=
  dirWf e.directory = true ∧ 1 ≤ e.day ∧ e.day ≤ Config.max16 ∧ 1 ≤ e.threshold

/-- R13: each side has one role, the one that the book table and the rescue record give it, and the sides of one book, with its rescue target, lie in
different cartridges. A book has a primary side unless it is UNASSIGNED. -/
structure Library.RolesSound (l : Library) : Prop where
  primary : ∀ b s, (l.book b).primary = some s ↔ l.role s = .primary b
  twin : ∀ b s, (l.book b).twin = some s ↔ l.role s = .twin b
  target : ∀ b s, (∃ r, l.care.rescue = some r ∧ r.book = b ∧ r.target = some s) ↔ l.role s = .rescueTarget b
  source : ∀ r, l.care.rescue = some r → l.role r.source = if r.ofTwin then .twin r.book else .primary r.book
  assigned : ∀ b, (l.book b).primary = none ↔ (l.book b).state = .unassigned
  unassigned : ∀ b, (l.book b).state = .unassigned → (l.book b).twin = none
  sides : ∀ b p t, (l.book b).primary = some p → (l.book b).twin = some t → slotOf p ≠ slotOf t
  apart : ∀ r t, l.care.rescue = some r → r.target = some t →
    (∀ p, (l.book r.book).primary = some p → slotOf p ≠ slotOf t) ∧ ∀ q, (l.book r.book).twin = some q → slotOf q ≠ slotOf t

/-- R4, R10: the marks of a book stand in their order, its intake mark counts its live FILEs, and its directory is BLANK at and above the filing mark and
nowhere below it. -/
structure State.MarksSound (s : State) (b : Book) : Prop where
  twin : (s.lib.book b).twinMark ≤ (s.lib.book b).filing
  filing : (s.lib.book b).filing ≤ (s.lib.book b).intake
  top : (s.lib.book b).intake ≤ Config.framesPerBook
  alone : (s.lib.book b).twin = none → (s.lib.book b).twinMark = (s.lib.book b).filing
  unassigned : (s.lib.book b).state = .unassigned → (s.lib.book b).intake = 0
  live : s.env.startUp = none → (s.lib.book b).intake = (s.lib.book b).filing + s.lib.liveFiles b
  directory : ∀ f, f < Config.framesPerBook → (s.env.frame b f = .blank ↔ (s.lib.book b).filing ≤ f)

/-- R82, R29, R28: the FILEs that have not ended name different frames between their book's marks, and the one that is being written names the frame at
the filing mark; a primary write in progress is the write of such a FILE and of no other drive's; an entry holds the record of its own tag, and the
responses that wait are those of requests that have ended, one for each. -/
structure Library.FilesSound (l : Library) : Prop where
  tags : ∀ t x, l.entry t = some x → x.record.tag = t
  frames : ∀ t x g, l.fileOf t = some (x, g) → (l.book g.book).filing ≤ g.frame ∧ g.frame < (l.book g.book).intake
    ∧ (g.phase = .writing → g.frame = (l.book g.book).filing)
  distinct : ∀ t u x y g h, l.fileOf t = some (x, g) → l.fileOf u = some (y, h) → g.book = h.book → g.frame = h.frame → t = u
  writes : ∀ d v t b f, (l.drive d).service = some v → v.command = .primaryWrite t b f →
    ∃ x g, l.fileOf t = some (x, g) ∧ g.book = b ∧ g.frame = f ∧ g.phase = .writing
  single : ∀ d d' v v' t b f b' f', (l.drive d).service = some v → (l.drive d').service = some v' → v.command = .primaryWrite t b f →
    v'.command = .primaryWrite t b' f' → d = d'
  ended : ((l.front.responses ++ l.front.ending).map Response.tag).Nodup
    ∧ ∀ r ∈ l.front.responses ++ l.front.ending, ∃ x, l.entry r.tag = some x ∧ x.ended ≠ none

/-- R3, R4, R10, R82: the book table, the directories and the FILEs of every book agree; start-up finds no request. -/
structure State.BooksSound (s : State) : Prop where
  marks : ∀ b, s.MarksSound b
  files : s.lib.FilesSound
  starting : s.env.startUp.isSome = true → ∀ t, s.lib.entry t = none

/-- R167, R178, R28, R128: the rescue queue holds at most 8 sides, none twice; the later count saturates at 255; the responses of every event have been
queued at its end; the Mount Scheduler's copy of the escalation flag is the Sector Buffer's flag. -/
def Library.sound (l : Library) : Prop :=
  l.care.queue.length ≤ Config.queueSlots ∧ l.care.queue.Nodup ∧ l.log.laterCount ≤ Config.max8 ∧ l.front.ending = []
    ∧ l.scheduler.escalation = l.buffer.escalation

end Sys2Proof.Machine
end

