-- ==== Sys2Proof/Certificates/Slice0/Obligations.lean ====
section
/-! DEFINITION. The statements for the provers. Each says which rule of the specification it formalises; `Reacted` and `Ended` (in Safety) carry its frame: what the
event leaves as it was. -/

open Sys2Proof Sys2Proof.Machine

/-! ## The step -/

/-- The step takes the command at the front of the queue and executes it with the rest of the queue. -/
def Obligations.StepRunsFrontCommand : Prop :=
  ∀ (c : Instr) (rest : List Instr) (s : State), step { s with pending := c :: rest } = exec c { s with pending := rest }

/-- DESIGN CHOICE (log entry 1): on an empty queue one second passes, the links are quiet and nothing else changes. -/
def Obligations.EmptyQueuePassesOneSecond : Prop :=
  ∀ s : State, s.pending = [] →
    step s = .next { s with env := { s.env with now := s.env.now + 1 }, lib := { s.lib with out := [] } }

/-- R38, R112: no command stops the part, and no command touches the commands that wait behind it. -/
def Obligations.EveryCommandCompletes : Prop :=
  ∀ (c : Instr) (s : State), ∃ t, exec c s = .next t ∧ t.pending = s.pending

/-! ## Requests and responses -/

/-- R31: a record whose tag is LIVE is answered at once from the live request's entry, in HOLD as at any other time, and changes nothing. -/
def Obligations.DuplicateTagAnsweredInProgress : Prop :=
  ∀ (s : State) (r : RequestRecord) (x : Entry), s.env.startUp = none → s.lib.entry r.tag = some x →
    ∀ c, c = Instr.fetchRequest r ∨ c = Instr.fileRequest r →
      exec c s = .next { s with lib := { s.lib with out :=
        [.accept r.tag,
         .response
          { tag := x.record.tag, outcome := .inProgress, moved := x.moved, stopAddress := x.stopAddress,
            remaining := x.record.count.val - x.moved, notes := x.notes, amount := x.amount }] } }

/-- R25, R44: a record refused at arrival: the accept is given, the request has ended with sectors moved 0 and its own address as stop address, and no map,
mark, order, tally or other request changes. -/
def RefusedAtArrival (s t : State) (r : RequestRecord) (o : Outcome) : Prop :=
  t.pending = s.pending ∧ t.env = s.env ∧ t.fee = s.fee ∧ SameBlocks s.lib t.lib
    ∧ (∀ u, u ≠ r.tag → t.lib.entry u = s.lib.entry u) ∧ t.lib.out = [.accept r.tag]
    ∧ t.lib.front.linkBurst = s.lib.front.linkBurst
    ∧ (∃ y, t.lib.entry r.tag = some y ∧ y.record = r ∧ y.ended = some o ∧ y.moved = 0)
    ∧ t.lib.front.responses = s.lib.front.responses ++ [⟨r.tag, o, 0, r.addr.val, r.count.val, .empty, 0⟩]

/-- R32, R33, R34: the FETCH checks, the first that fails deciding: HOLD, then the count, then the book's state in a record book, then the end of the run
in the service book. -/
def Obligations.FetchChecksRefuse : Prop :=
  ∀ (s : State) (r : RequestRecord), s.env.startUp = none → s.lib.entry r.tag = none → s.lib.front.ending = [] →
    (s.env.hold = true → ∃ t, exec (.fetchRequest r) s = .next t ∧ RefusedAtArrival s t r .powerHold)
    ∧ (s.env.hold = false →
      (r.count.val < 1 ∨ 512 < r.count.val → ∃ t, exec (.fetchRequest r) s = .next t ∧ RefusedAtArrival s t r .badRequest)
      ∧ (1 ≤ r.count.val → r.count.val ≤ 512 →
        (∀ b, bookOf r.addr.val = some b → (s.lib.book b).state = .unassigned →
          ∃ t, exec (.fetchRequest r) s = .next t ∧ RefusedAtArrival s t r .bookUnassigned)
        ∧ (33292288 ≤ r.addr.val → 33554431 < r.addr.val + r.count.val - 1 →
          ∃ t, exec (.fetchRequest r) s = .next t ∧ RefusedAtArrival s t r .badRequest)))

/-- R29, R34, R39, R43: a FETCH that passes its checks enters the table: in a record book with the segments and the windows of its run, in ascending order, the last of them
ending OUT_OF_VOLUME where the run reaches past the record books; in the service book with its pages to be built.
R40: of the segments, the first one's book alone has been checked. -/
def Obligations.FetchAccepted : Prop :=
  ∀ (s : State) (r : RequestRecord), s.env.startUp = none → s.lib.entry r.tag = none → s.env.hold = false →
    1 ≤ r.count.val → r.count.val ≤ 512 →
    (∀ b, bookOf r.addr.val = some b → (s.lib.book b).state ≠ .unassigned →
      (∃ t, exec (.fetchRequest r) s = .next t
        ∧ Reacted s t s.env s.fee (({ s.lib with out := [.accept r.tag] }).setEntry r.tag
            (some ⟨r, .fetch (cutRun r), 0, r.addr.val, .empty, 0, none, 0⟩))
        ∧ ∃ y g, t.lib.entry r.tag = some y ∧ y.record = r ∧ y.job = .fetch g ∧ y.moved = 0 ∧ y.notes = .empty ∧ y.amount = 0)
      ∧ ((cutRun r).segments.flatMap fun g => List.range' g.first g.count)
          = List.range' r.addr.val (min (r.addr.val + r.count.val) 33292288 - r.addr.val)
      ∧ (∀ g ∈ (cutRun r).segments, 1 ≤ g.count ∧ bookOf g.first = some g.book ∧ bookOf (g.first + g.count - 1) = some g.book
          ∧ (g.checked = true ↔ g.book = b))
      ∧ (cutRun r).finish = if 33292288 < r.addr.val + r.count.val then .outOfVolume else .done)
    ∧ (33292288 ≤ r.addr.val → r.addr.val + r.count.val - 1 ≤ 33554431 →
      ∃ t, exec (.fetchRequest r) s = .next t
        ∧ Ended s t s.env s.fee (({ s.lib with out := [.accept r.tag] }).setEntry r.tag
            (some ⟨r, .servicePages, 0, r.addr.val, .empty, 0, none, 0⟩))
        ∧ LinkJob.burst r.tag ∈ t.lib.front.ready)

/-- R39: the windows of an accepted FETCH cover its run in the record books, in ascending order and each sector once, one window for each frame. -/
def Obligations.WindowsCoverRun : Prop :=
  ∀ r : RequestRecord, r.addr.val < 33292288 → 1 ≤ r.count.val → r.count.val ≤ 512 →
    ((cutRun r).windows.flatMap fun w => (List.range' w.first (w.last + 1 - w.first)).map w.address)
      = List.range' r.addr.val (min (r.addr.val + r.count.val) 33292288 - r.addr.val)
    ∧ (∀ w ∈ (cutRun r).windows, w.first ≤ w.last ∧ w.last ≤ 63 ∧ w.frame < 4096 ∧ w.state = .unopened)
    ∧ ((cutRun r).windows.map fun w => (w.book, w.frame)).Nodup

/-- R12: the head that a look down from below the frame `f` finds, with its class: the nearest frame that counts as a head, with none between that ends the look. -/
def HeadBelow (mark : Nat → HeadMark) (f h : Nat) (c : FeeClass) : Prop :=
  h < f ∧ mark h = .head c ∧ ∀ k, h < k → k < f → mark k = .cont ∨ mark k = .pass

/-- R35, check 7: below the frame `f` there is an instrument to continue: the nearest frame that is not passed over is HEAD, CONT, or LOST and a head. -/
def ContinuesBelow (mark : Nat → HeadMark) (f : Nat) : Prop :=
  ∃ h, h < f ∧ ((∃ c, mark h = .head c) ∨ mark h = .cont) ∧ ∀ k, h < k → k < f → mark k = .pass

/-- R32, R35, R37: the FILE checks in the order of Table 2-3, the first that fails deciding, HOLD before all of them, and the count of a FILE in the service
book.
R12, R35: how a frame counts in the look down for check 7 and for the class of a CONT: by its directory entry below the filing mark, and from there on by the kind that its accepted FILE will give it. -/
def Obligations.FileChecksRefuse : Prop :=
  (∀ (s : State) (r : RequestRecord), s.env.startUp = none → s.lib.entry r.tag = none → s.lib.front.ending = [] →
    let ends (o : Outcome) := ∃ t, exec (.fileRequest r) s = .next t ∧ RefusedAtArrival s t r o
    (s.env.hold = true → ends .powerHold)
    ∧ (s.env.hold = false →
      (33292288 ≤ r.addr.val → r.count.val ≠ 1 → ends .badRequest)
      ∧ ∀ b, bookOf r.addr.val = some b →
        (r.count.val < 1 ∨ 64 < r.count.val → ends .badRequest)
        ∧ (1 ≤ r.count.val → r.count.val ≤ 64 →
          (r.addr.val % 64 ≠ 0 → ends .notAtMark)
          ∧ (r.addr.val % 64 = 0 →
            ((s.lib.book b).state = .unassigned → ends .bookUnassigned)
            ∧ ((s.lib.book b).state = .closed → ends .bookClosed)
            ∧ ∀ p, (s.lib.book b).state = .opened → (s.lib.book b).primary = some p →
              (s.lib.available s.env p = false → ends .sideUnavailable)
              ∧ (s.lib.available s.env p = true →
                (frameOf r.addr.val ≠ (s.lib.book b).intake → ends .notAtMark)
                ∧ (frameOf r.addr.val = (s.lib.book b).intake → r.flag = .cont →
                  ¬ ContinuesBelow (s.lib.acceptMark s.env b) (frameOf r.addr.val) → ends .badContinuation))))))
  ∧ (∀ (e : Env) (l : Library) (b : Book) (f : Nat),
      (f < (l.book b).filing → l.acceptMark e b f = (e.frame b f).mark)
      ∧ ((l.book b).filing ≤ f →
        (∀ t x g, l.fileOf t = some (x, g) → g.book = b → g.frame = f →
          (∀ u y h, l.fileOf u = some (y, h) → h.book = b → h.frame = f → u = t) →
          l.acceptMark e b f = if g.isHead = true then .head g.cls else .cont)
        ∧ ((∀ t x g, l.fileOf t = some (x, g) → g.book = b → g.frame ≠ f) → l.acceptMark e b f = .none)))
  ∧ (∀ (c : FeeClass) (n : Nat), (Frame.head c n).mark = .head c ∧ (Frame.cont c n).mark = .cont ∧ (Frame.lost true c).mark = .head c
      ∧ (Frame.lost false c).mark = .pass ∧ Frame.void.mark = .pass ∧ Frame.blank.mark = .none)

/-- R36, R37: a FILE that passes its checks is LIVE and its pull is ready; in a record book the intake mark rises by one and the entry holds the frame, the kind, the
length and, for a HEAD, the class of the record, for a CONT that of the head found below it (R12). -/
def Obligations.FileAccepted : Prop :=
  ∀ (s : State) (r : RequestRecord), s.env.startUp = none → s.lib.entry r.tag = none → s.env.hold = false →
    (33292288 ≤ r.addr.val → r.count.val = 1 →
      ∃ t, exec (.fileRequest r) s = .next t
        ∧ Ended s t s.env s.fee (({ s.lib with out := [.accept r.tag] }).setEntry r.tag
            (some ⟨r, .serviceWrite false, 0, r.addr.val, .empty, 0, none, 0⟩))
        ∧ LinkJob.pull r.tag ∈ t.lib.front.ready)
    ∧ ∀ b p, bookOf r.addr.val = some b → 1 ≤ r.count.val → r.count.val ≤ 64 → r.addr.val % 64 = 0 → (s.lib.book b).state = .opened →
      (s.lib.book b).primary = some p → s.lib.available s.env p = true → frameOf r.addr.val = (s.lib.book b).intake →
      (r.flag = .head ∨ ContinuesBelow (s.lib.acceptMark s.env b) (frameOf r.addr.val)) →
      ∃ t g, exec (.fileRequest r) s = .next t
        ∧ Ended s t s.env s.fee
            ((({ s.lib with out := [.accept r.tag] }).setEntry r.tag (some ⟨r, .file g, 0, r.addr.val, .empty, 0, none, 0⟩)).setBook b
              { s.lib.book b with intake := (s.lib.book b).intake + 1 })
        ∧ g.book = b ∧ g.frame = frameOf r.addr.val ∧ g.isHead = (r.flag == .head) ∧ g.len = r.count.val ∧ g.phase = .intake
        ∧ g.pulled = false ∧ g.received = []
        ∧ (r.flag = .head → g.cls = r.cls)
        ∧ (r.flag = .cont → ∀ h c, HeadBelow (s.lib.acceptMark s.env b) (frameOf r.addr.val) h c → g.cls = c)
        ∧ LinkJob.pull r.tag ∈ t.lib.front.ready

/-- R27, R28: the pull that is next on the link is issued with the request's count, and its job leaves the link's order.
The model's choice: it is issued also while an earlier pull's FILE burst has not begun (log entry 68). -/
def Obligations.PullIssued : Prop :=
  ∀ (s : State) (t : Tag) (rest : List LinkJob) (x : Entry), s.env.startUp = none → s.lib.front.linkBurst = none →
    s.lib.front.ready = .pull t :: rest → s.lib.entry t = some x → x.ended = none →
    ((∃ g, x.job = .file g) ∨ ∃ p, x.job = .serviceWrite p) →
    ∃ u y, exec .pull s = .next u ∧ u.pending = s.pending ∧ u.env = s.env ∧ u.fee = s.fee ∧ SameBlocks s.lib u.lib
      ∧ u.lib.out = [.pull t x.record.count.val] ∧ (∀ v, v ≠ t → u.lib.entry v = s.lib.entry v)
      ∧ u.lib.entry t = some y ∧ y = { x with job := y.job }
      ∧ (∀ g, x.job = .file g → y.job = .file { g with pulled := true })
      ∧ (∀ p, x.job = .serviceWrite p → y.job = .serviceWrite true)
      ∧ LinkJob.pull t ∉ u.lib.front.ready

/-- R81, R50: a sector of a pulled FILE is placed behind those that have arrived and the burst stays on the link; with the last the FILE has left INTAKE, and it is in
QUEUED or has been issued unless it unwound.
R88: a FILE in INTAKE or QUEUED whose book's primary side is unavailable unwinds: it ends SIDE_UNAVAILABLE with sectors moved 0 and the rest of its burst to be discarded, its
item leaves every list, and the intake mark counts the FILEs that are left; no other request, mark or block changes.
The model's choice: a burst that answers a pull may begin after other bursts and pulls, and before those that answer earlier pulls (log entry 68). -/
def Obligations.FileSectorArrives : Prop :=
  (∀ (s : State) (t : Tag) (x : Entry) (g : Filing) (data : Sector) (key : KeyPosition), s.env.startUp = none →
    (s.lib.front.linkBurst = none ∨ s.lib.front.linkBurst = some t) → s.lib.entry t = some x → x.ended = none → x.job = .file g →
    g.phase = .intake → g.pulled = true →
    ∃ u y g', exec (.fileBurstArrival t data key) s = .next u
      ∧ Reacted s u s.env s.fee (s.begin.lib.takeSector s.env t x g data)
      ∧ u.lib.entry t = some y ∧ y.record = x.record ∧ y.job = .file g' ∧ g'.book = g.book ∧ g'.frame = g.frame
      ∧ (y.ended = none → g'.received = g.received ++ [data])
      ∧ (g.received.length + 1 < g.len → u.lib.front.linkBurst = some t ∧ (y.ended = none → g'.phase = .intake ∨ g'.phase = .writing))
      ∧ (g.len ≤ g.received.length + 1 → u.lib.front.linkBurst = none ∧ (y.ended = none → g'.phase = .queued ∨ g'.phase = .writing)))
  ∧ (∀ (e : Env) (l : Library),
      let a := l.unwindStranded e
      (∀ t x g, l.fileOf t = some (x, g) → g.phase ≠ .writing → (∀ p, (l.book g.book).primary = some p → l.available e p = false) →
        (∃ y, a.entry t = some y ∧ y.record = x.record ∧ y.ended = some .sideUnavailable ∧ y.moved = 0
          ∧ y.discard = if g.phase = .intake ∧ g.pulled = true then g.len - g.received.length else 0)
        ∧ (∀ i, listed (.file t) (a.items i) = false)
        ∧ (a.book g.book).intake = (l.book g.book).filing + a.liveFiles g.book)
      ∧ (∀ t, (∀ x g, l.fileOf t = some (x, g) → g.phase = .writing ∨ ∃ p, (l.book g.book).primary = some p ∧ l.available e p = true) →
        a.entry t = l.entry t)
      ∧ (∀ b, a.book b = { l.book b with intake := (a.book b).intake })
      ∧ (∀ b, (∀ t x g, l.fileOf t = some (x, g) → g.book = b → g.phase = .writing ∨ ∃ p, (l.book b).primary = some p ∧ l.available e p = true) →
        a.book b = l.book b)
      ∧ a.roles = l.roles ∧ a.twins = l.twins ∧ a.drives = l.drives ∧ a.picker = l.picker ∧ a.care = l.care ∧ a.log = l.log)

/-- R26, R74, R75, R24: a burst of a FETCH in the record books: up to 64 sectors from the lowest undelivered one are sent, the zero-filled sectors of a filed frame in the same burst as
the sectors below them; they count in the sectors moved and in the stop address, and their notes join the request's. R77, R78: a burst that makes no offer charges nothing: one without a charge mode, one that
does not begin at sector 0 of a frame, and one of a window that was resolved as neither HEAD nor CONT leave the Fee Unit's accounts, the request's amount and its CHARGED note as they were.
R42, R43, R44, R75: with the last sector of its last window delivered the request ends DONE, OUT_OF_VOLUME or BOOK_UNASSIGNED, as its run and its segments have it, and with the delivery at a recorded stop it ends
with that stop's outcome; its response is queued.
R40, R42, R46, R75: the course of a request: a delivered window goes, a request without windows ends, a stop at the next sector ends it, an unopened delivery window is opened, and above an open one without a stop the
look-ahead window joins the waiting list; a second segment's book is checked there, and an UNASSIGNED one cuts the request at the boundary, whose windows go and which then ends with BOOK_UNASSIGNED. The model's choices: the check
is made as the window joins the list (log entry 58), and the look-ahead window is asked for once the delivery window is open (log entry 49).
A burst is sent also while a pull waits for its FILE's burst to begin (log entry 68). -/
def Obligations.FetchBurstDelivers : Prop :=
  (∀ (s : State) (t : Tag) (rest : List LinkJob) (x : Entry) (g : Fetching) (w : Window) (ws : List Window) (count : Nat),
    s.env.startUp = none → s.lib.front.linkBurst = none → s.lib.front.ready = .burst t :: rest → s.lib.entry t = some x →
    x.ended = none → x.job = .fetch g → g.windows = w :: ws → 1 ≤ count → w.run (sectorOf (x.record.addr.val + x.moved)) ≠ [] →
    let run := w.run (sectorOf (x.record.addr.val + x.moved))
    let xs := (run.take count ++
      (if w.resolved.filed = true then (run.drop count).takeWhile (fun z => z.source == .zero) else [])).take 64
    ∃ u y os, exec (.burstSent count) s = .next u ∧ u.pending = s.pending ∧ u.env = s.env
      ∧ Reacted s u s.env u.fee (s.begin.deliver t x w xs).lib
      ∧ u.lib.out = .burst t (x.record.addr.val + x.moved) (xs.map SectorState.data) :: os
      ∧ u.lib.entry t = some y ∧ y.record = x.record ∧ y.moved = x.moved + xs.length ∧ 1 ≤ xs.length ∧ xs.length ≤ 64
      ∧ y.stopAddress = (if y.ended = none ∨ y.ended = some .done then x.record.addr.val + y.moved - 1 else x.record.addr.val + y.moved)
      ∧ (y.notes.fromTwin = (x.notes.fromTwin || xs.any fun z => z.source == .twin))
      ∧ (y.notes.fromHold = (x.notes.fromHold || xs.any fun z => z.source == .hold))
      ∧ (y.notes.blankFill = (x.notes.blankFill || xs.any fun z => z.source == .zero))
      ∧ (y.notes.corrected = (x.notes.corrected || xs.any SectorState.corrected))
      ∧ (x.record.mode = .none ∨ (x.record.addr.val + x.moved) % 64 ≠ 0 ∨ (∀ c n, w.resolved ≠ .head c n ∧ w.resolved ≠ .cont c n) →
        u.fee = s.fee ∧ y.amount = x.amount ∧ y.notes.charged = x.notes.charged)
      ∧ u.lib.picker.locations = s.lib.picker.locations ∧ (∀ b, (u.lib.book b).filing = (s.lib.book b).filing)
      ∧ u.lib.buffer.hold = s.lib.buffer.hold
      ∧ (ws = [] → w.stop = none → w.item = none → w.state ≠ .pending → w.address w.last < x.record.addr.val + x.moved + xs.length →
        RequestEnds u.lib t y g.finish (x.moved + xs.length))
      ∧ (∀ st, w.stop = some st → w.item = none → w.state ≠ .pending → (∀ v ∈ ws, v.book ≠ w.book ∨ v.frame ≠ w.frame) → st.sector ≤ w.last →
        w.address st.sector = x.record.addr.val + x.moved + xs.length → RequestEnds u.lib t y st.outcome (x.moved + xs.length)))
  ∧ (∀ (e : Env) (l : Library) (t : Tag) (x : Entry) (g : Fetching) (n : Nat), l.entry t = some x → x.ended = none → x.job = .fetch g →
      let a := Library.progress e t (n + 1) l
      (g.windows = [] → a = l.endRequest t g.finish x.moved 0)
      ∧ ∀ w ws, g.windows = w :: ws →
        (w.address w.last < x.record.addr.val + x.moved →
          let m := l.setEntry t (some (x.setWindows ws))
          a = Library.progress e t n { m with buffer := { m.buffer with lookWait := m.buffer.lookWait.filter fun u => u != t } })
        ∧ (x.record.addr.val + x.moved ≤ w.address w.last →
          (∀ st, w.stop = some st → w.address st.sector = x.record.addr.val + x.moved → a = l.endRequest t st.outcome x.moved 0)
          ∧ ((∀ st, w.stop = some st → w.address st.sector ≠ x.record.addr.val + x.moved) →
            (w.state = .unopened → (∀ y ∈ l.buffer.deliveryWait, y.tag ≠ t) → a = Library.progress e t n (l.openDelivery e t w))
            ∧ (w.state = .unopened → (∃ y ∈ l.buffer.deliveryWait, y.tag = t) → a = l)
            ∧ (w.state ≠ .unopened → (w.stop ≠ none ∨ ws = []) → a = l)
            ∧ ∀ v vs, w.state ≠ .unopened → w.stop = none → ws = v :: vs →
              (v.state ≠ .unopened ∨ t ∈ l.buffer.lookWait → a = l)
              ∧ (v.state = .unopened → t ∉ l.buffer.lookWait →
                let joins (m : Library) : Library := { m with buffer := { m.buffer with lookWait := m.buffer.lookWait ++ [t] } }
                ((∃ k ∈ g.segments, k.book = v.book ∧ k.checked = true) → a = joins l)
                ∧ ((∀ k ∈ g.segments, k.book = v.book → k.checked = false) →
                  let cut : Fetching := { g with windows := g.windows.filter fun z => z.book != v.book, finish := .bookUnassigned }
                  let checked : Fetching :=
                    { g with segments := g.segments.map fun k => if k.book = v.book then { k with checked := true } else k }
                  ((l.book v.book).state = .unassigned → a = l.setEntry t (some { x with job := .fetch cut }))
                  ∧ ((l.book v.book).state ≠ .unassigned → a = joins (l.setEntry t (some { x with job := .fetch checked }))))))))

/-- R77, R144 to R148, R152: the delivery of sector 0 of a HEAD or CONT frame under a charge mode makes its offer, at the same event: the Fee Unit's accounts are those
that the offer leaves, and its page total joins the request's amount.
R154, R177: the first saturation of the day records TALLY_SATURATED with the page's book and frame and the request's tag; that it fills an empty record before any fault of the event's reactions is the model's choice
(log entry 44).
The model's choice: the burst is sent also while a pull waits for its FILE's burst to begin (log entry 68). -/
def Obligations.DeliveredPageIsCharged : Prop :=
  ∀ (s : State) (t : Tag) (rest : List LinkJob) (x : Entry) (g : Fetching) (w : Window) (ws : List Window) (count : Nat) (m k : Bool)
    (cls : FeeClass) (n h : Nat) (hc : FeeClass),
    s.env.startUp = none → s.lib.front.linkBurst = none → s.lib.front.ready = .burst t :: rest → s.lib.entry t = some x →
    x.record.tag = t → x.ended = none → x.job = .fetch g → g.windows = w :: ws → 1 ≤ count →
    (x.record.addr.val + x.moved) % 64 = 0 → w.run 0 ≠ [] →
    (x.record.mode = .copy ∧ m = false ∨ x.record.mode = .certified ∧ m = true) →
    (w.resolved = .head cls n ∧ k = true ∨ w.resolved = .cont cls n ∧ k = false) → HeadBelow (fun n => (s.env.frame w.book n).mark) (w.frame + 1) h hc →
    let o : Offer := ⟨t, x.record.station, m, w.book, w.frame, cls, h, k⟩
    ∃ u y, exec (.burstSent count) s = .next u ∧ u.fee = (s.fee.take s.env.now s.env.hold o).1
      ∧ u.lib.entry t = some y ∧ y.record = x.record
      ∧ ((s.fee.take s.env.now s.env.hold o).2.charged = true →
        y.notes.charged = true ∧ y.amount = min 4294967295 (x.amount + (s.fee.take s.env.now s.env.hold o).2.total))
      ∧ ((s.fee.take s.env.now s.env.hold o).2.charged = false → y.notes.charged = x.notes.charged ∧ y.amount = x.amount)
      ∧ (s.fee.tallies.saturated = false → u.fee.tallies.saturated = true → s.lib.log.first = none →
        KindSet.has s.env.mask .tallySaturated = false →
        u.lib.log.first = some ⟨.tallySaturated, some w.book, none, some w.frame, none, none, some t, s.env.day⟩)

/-! ### The pages of the service book -/

/-- R185: an absent value reads as 255 in a one-byte field, a present one as its number. -/
def byteOf {n : Nat} (x : Option (Fin n)) : Nat :=
  match x with
  | some i => i.val
  | none => 255

/-- A flag reads as 1 or 0. -/
def bitOf (b : Bool) : Nat := if b = true then 1 else 0

/-- Table 11-3, Table 11-2: the status page. -/
def StatusPageReads (e : Env) (l : Library) (p : Sector) : Prop :=
  bytesAt p 0 1 = e.configured % 256 ∧ [PickerState.idle, .moving, .retry, .faulted][bytesAt p 1 1]? = some l.picker.state
    ∧ bytesAt p 2 1 = bitOf e.hold ∧ bytesAt p 3 1 = (allTags.filter fun t => (l.entry t).isSome).length
    ∧ bytesAt p 4 2 = (l.buffer.hold.map fun h => h.data.length).sum % 65536 ∧ bytesAt p 6 1 = bitOf l.buffer.escalation
    ∧ bytesAt p 7 1 = byteOf l.care.cursor
    ∧ (∀ d : Drive, d.val < e.configured →
      [DriveState.empty, .loading, .spinUp, .ready, .active, .stopped, .spinDown, .unloading, .failed][bytesAt p (8 + 6 * d.val) 1]?
          = some (l.drive d).state
        ∧ bytesAt p (9 + 6 * d.val) 1 = byteOf (l.mountedSide d) ∧ bytesAt p (10 + 6 * d.val) 1 = (l.drive d).corrected % 256
        ∧ bytesAt p (11 + 6 * d.val) 1 = (l.drive d).uncorrectable % 256 ∧ bytesAt p (12 + 6 * d.val) 1 = (l.drive d).commandFailures % 256
        ∧ bytesAt p (13 + 6 * d.val) 1 = bitOf (l.drive d).unload)
    ∧ (∀ d : Drive, e.configured ≤ d.val → bytesAt p (8 + 6 * d.val) 6 = 0) ∧ bytesAt p 32 992 = 0

/-- Table 11-4: the tally page. -/
def TallyPageReads (day : Nat) (t : Tallies) (p : Sector) : Prop :=
  bytesAt p 0 2 = day % 65536 ∧ bytesAt p 2 1 = bitOf t.saturated ∧ bytesAt p 4 4 = t.amount % 4294967296
    ∧ bytesAt p 8 4 = t.pages % 4294967296 ∧ bytesAt p 12 2 = t.orders % 65536 ∧ bytesAt p 14 2 = t.certified % 65536
    ∧ (∀ k : Station, bytesAt p (16 + 12 * k.val) 4 = (look t.stations k).amount % 4294967296
      ∧ bytesAt p (20 + 12 * k.val) 4 = (look t.stations k).pages % 4294967296 ∧ bytesAt p (24 + 12 * k.val) 2 = (look t.stations k).orders % 65536)
    ∧ ∀ c : FeeClass, bytesAt p (208 + 8 * c.val) 4 = (look t.classes c).amount % 4294967296
      ∧ bytesAt p (212 + 8 * c.val) 4 = (look t.classes c).pages % 4294967296

/-- Table 11-6, Table 11-2: the fault page. -/
def FaultPageReads (e : Env) (g : FaultLog) (p : Sector) : Prop :=
  let kinds := [FaultKind.pickerFault, .driveFailed, .readUncorrectable, .writeFailed, .frameLost, .noBlank, .rescueQueueFull, .cartridgeMissing,
    .tallySaturated, .powerWarning, .recordMemoryBlank]
  (g.first = none → bytesAt p 0 1 = 0 ∧ bytesAt p 1 1 = 0 ∧ bytesAt p 2 1 = 255 ∧ bytesAt p 3 1 = 255 ∧ bytesAt p 4 2 = 65535
      ∧ bytesAt p 6 1 = 255 ∧ bytesAt p 7 1 = 255 ∧ bytesAt p 8 1 = 255 ∧ bytesAt p 10 2 = 65535)
    ∧ (∀ r, g.first = some r → bytesAt p 0 1 = 1 ∧ 1 ≤ bytesAt p 1 1 ∧ kinds[bytesAt p 1 1 - 1]? = some r.kind
      ∧ bytesAt p 2 1 = byteOf r.book ∧ bytesAt p 3 1 = byteOf r.side ∧ bytesAt p 4 2 = r.frame.getD 65535 % 65536
      ∧ bytesAt p 6 1 = byteOf r.drive ∧ bytesAt p 7 1 = byteOf r.slot ∧ bytesAt p 8 1 = byteOf r.tag ∧ bytesAt p 10 2 = r.day % 65536)
    ∧ (∀ i k, kinds[i]? = some k → (bytesAt p 12 2).testBit i = KindSet.has g.later k ∧ (bytesAt p 16 2).testBit i = KindSet.has e.mask k)
    ∧ bytesAt p 14 1 = g.laterCount % 256
    ∧ bytesAt p 18 1 = bitOf e.causes.powerOn + 2 * bitOf e.causes.resetLine + 4 * bitOf e.causes.afterWarning

/-- Table 11-7: the kind, slot, face and drive of a move at a byte; 255 each without one. A RETURN names no face. -/
def MoveReads (p : Sector) (o : Nat) : Option Move → Prop
  | none => bytesAt p o 1 = 255 ∧ bytesAt p (o + 1) 1 = 255 ∧ bytesAt p (o + 2) 1 = 255 ∧ bytesAt p (o + 3) 1 = 255
  | some (.load s f d) =>
    bytesAt p o 1 = 0 ∧ bytesAt p (o + 1) 1 = s.val ∧ bytesAt p (o + 2) 1 = (if f = .a then 0 else 1) ∧ bytesAt p (o + 3) 1 = d.val
  | some (.back s od _) =>
    bytesAt p o 1 = 1 ∧ bytesAt p (o + 1) 1 = s.val ∧ bytesAt p (o + 2) 1 = 255 ∧ bytesAt p (o + 3) 1 = byteOf od

/-- Table 11-7, Table 11-2: the picker page. -/
def PickerPageReads (l : Library) (p : Sector) : Prop :=
  [PickerState.idle, .moving, .retry, .faulted][bytesAt p 0 1]? = some l.picker.state ∧ bytesAt p 1 1 = bitOf l.picker.record.isSome
    ∧ MoveReads p 2 l.picker.record
    ∧ bytesAt p 6 1 = (if l.picker.record = none then 255 else if l.picker.state = .retry then 1 else 0)
    ∧ bytesAt p 7 1 = l.picker.moves.length % 256 ∧ (∀ i, i < 8 → MoveReads p (8 + 4 * i) l.picker.moves[i]?)
    ∧ ∀ k : Slot, bytesAt p (67 + 4 * k.val) 1 = bitOf (l.seated k)
      ∧ (match l.location k with
        | .inSlot => bytesAt p (64 + 4 * k.val) 1 = 0 ∧ bytesAt p (65 + 4 * k.val) 1 = 255 ∧ bytesAt p (66 + 4 * k.val) 1 = 255
        | .inDrive d f => bytesAt p (64 + 4 * k.val) 1 = 1 ∧ bytesAt p (65 + 4 * k.val) 1 = d.val
          ∧ bytesAt p (66 + 4 * k.val) 1 = if f = .a then 0 else 1
        | .inPicker => bytesAt p (64 + 4 * k.val) 1 = 2 ∧ bytesAt p (65 + 4 * k.val) 1 = 255 ∧ bytesAt p (66 + 4 * k.val) 1 = 255
        | .absent => bytesAt p (64 + 4 * k.val) 1 = 3 ∧ bytesAt p (65 + 4 * k.val) 1 = 255 ∧ bytesAt p (66 + 4 * k.val) 1 = 255)

/-- Table 11-8: the order page of a station. -/
def OrderPageReads (e : Env) (f : Fee) (k : Station) (p : Sector) : Prop :=
  (look f.orders k = none → bytesAt p 0 1 = 0 ∧ bytesAt p 1 1 = 255 ∧ bytesAt p 2 2 = 65535 ∧ bytesAt p 4 1 = 255 ∧ bytesAt p 5 1 = 255
      ∧ bytesAt p 6 1 = 255 ∧ bytesAt p 8 2 = 65535)
    ∧ ∀ o, look f.orders k = some o → bytesAt p 0 1 = 1 ∧ bytesAt p 1 1 = o.book.val ∧ bytesAt p 2 2 = o.head % 65536
      ∧ bytesAt p 4 1 = o.cls.val ∧ bytesAt p 5 1 = (if o.certified = true then 2 else 1) ∧ bytesAt p 6 1 = bitOf o.surcharged
      ∧ bytesAt p 8 2 = o.pages % 65536 ∧ bytesAt p 12 4 = o.amount % 4294967296 ∧ bytesAt p 16 4 = (e.now - o.lastCharge) % 4294967296

/-- Table 11-9: the fee schedule page. -/
def SchedulePageReads (c : Schedule) (p : Sector) : Prop :=
  (∀ k : FeeClass, bytesAt p (10 * k.val) 2 = (look c.lines k).fee % 65536 ∧ bytesAt p (10 * k.val + 2) 2 = (look c.lines k).threshold % 65536
      ∧ bytesAt p (10 * k.val + 4) 1 = (look c.lines k).rate % 256 ∧ bytesAt p (10 * k.val + 6) 4 = (look c.lines k).cap % 4294967296)
    ∧ bytesAt p 80 4 = c.surcharge % 4294967296 ∧ bytesAt p 84 1 = c.timeout % 256

/-- Table 11-10: the blank pool page. -/
def PoolPageReads (l : Library) (p : Sector) : Prop :=
  let pool := allSides.filter fun q => l.role q == .blank
  bytesAt p 0 1 = pool.length ∧ bytesAt p 1 1 = 0 ∧ (∀ i (q : Side), pool[i]? = some q → bytesAt p (2 + i) 1 = q.val)
    ∧ ∀ i, pool.length ≤ i → i < 1022 → bytesAt p (2 + i) 1 = 0

/-- Table 11-11: the rescue page. -/
def RescuePageReads (e : Env) (c : Care) (p : Sector) : Prop :=
  (c.rescue = none → bytesAt p 0 1 = 0 ∧ bytesAt p 1 1 = 255 ∧ bytesAt p 2 1 = 255 ∧ bytesAt p 3 1 = 255 ∧ bytesAt p 4 1 = 255
      ∧ bytesAt p 5 1 = 255 ∧ bytesAt p 6 2 = 65535)
    ∧ (∀ r, c.rescue = some r → bytesAt p 0 1 = 1 ∧ bytesAt p 1 1 = r.source.val ∧ bytesAt p 2 1 = (if r.ofTwin = true then 3 else 2)
      ∧ bytesAt p 3 1 = r.book.val ∧ bytesAt p 4 1 = byteOf r.target ∧ bytesAt p 5 1 = bitOf r.stopped ∧ bytesAt p 6 2 = r.copyMark % 65536)
    ∧ bytesAt p 8 1 = c.queue.length % 256 ∧ (∀ i, i < 8 → bytesAt p (9 + i) 1 = byteOf c.queue[i]?) ∧ bytesAt p 20 2 = e.threshold % 65536

/-- Table 11-12, Table 11-2: a side of the side pages. -/
def SideReads (l : Library) (q : Side) (p : Sector) : Prop :=
  let o := 16 * (q.val % 64)
  (match l.role q with
      | .unlisted => bytesAt p o 1 = 0 ∧ bytesAt p (o + 1) 1 = 255
      | .blank => bytesAt p o 1 = 1 ∧ bytesAt p (o + 1) 1 = 255
      | .primary b => bytesAt p o 1 = 2 ∧ bytesAt p (o + 1) 1 = b.val
      | .twin b => bytesAt p o 1 = 3 ∧ bytesAt p (o + 1) 1 = b.val
      | .rescueTarget b => bytesAt p o 1 = 4 ∧ bytesAt p (o + 1) 1 = b.val
      | .retired b => bytesAt p o 1 = 5 ∧ bytesAt p (o + 1) 1 = b.val)
    ∧ bytesAt p (o + 2) 2 = (l.health q).corrected % 65536 ∧ bytesAt p (o + 4) 1 = (l.health q).uncorrectable % 256
    ∧ bytesAt p (o + 6) 2 = (l.health q).patrolMark % 65536 ∧ bytesAt p (o + 8) 2 = ((l.health q).lastPass.getD 0) % 65536

/-- Table 11-13, Table 11-2: a book table entry page. -/
def BookPageReads (l : Library) (b : Book) (p : Sector) : Prop :=
  [BookState.unassigned, .opened, .closed][bytesAt p 0 1]? = some (l.book b).state ∧ bytesAt p 1 1 = byteOf (l.book b).primary
    ∧ bytesAt p 2 1 = byteOf (l.book b).twin ∧ [TwinState.none, .caughtUp, .working, .paused, .blocked][bytesAt p 3 1]? = some (l.twin b).state
    ∧ bytesAt p 4 2 = (l.book b).filing % 65536 ∧ bytesAt p 6 2 = (l.book b).intake % 65536 ∧ bytesAt p 8 2 = (l.book b).twinMark % 65536

/-- Table 11-14, Table 11-2: an entry of a frame directory page. -/
def DirectoryReads (x : Frame) (o : Nat) (p : Sector) : Prop :=
  match x with
  | .blank => bytesAt p o 1 = 0 ∧ bytesAt p (o + 1) 1 = 0
  | .head c n => bytesAt p o 1 = 1 + 16 * c.val ∧ bytesAt p (o + 1) 1 = n % 256
  | .cont c n => bytesAt p o 1 = 2 + 16 * c.val ∧ bytesAt p (o + 1) 1 = n % 256
  | .void => bytesAt p o 1 = 3 ∧ bytesAt p (o + 1) 1 = 0
  | .lost wasHead c => bytesAt p o 1 = (if wasHead = true then 4 else 12) + 16 * c.val ∧ bytesAt p (o + 1) 1 = 0

/-- Table 11-1: the page of each service block. -/
def PageReads (e : Env) (f : Fee) (l : Library) (n : Nat) (p : Sector) : Prop :=
  (n = 0 → StatusPageReads e l p) ∧ (n = 1 → TallyPageReads e.day f.tallies p) ∧ (n = 2 → TallyPageReads f.closedDay f.closedTallies p)
    ∧ (n = 3 → bytesAt p 0 2 = e.day % 65536 ∧ bytesAt p 2 1022 = 0) ∧ (n = 4 → FaultPageReads e l.log p) ∧ (n = 5 → PickerPageReads l p)
    ∧ (∀ k : Station, n = 16 + k.val → OrderPageReads e f k p) ∧ (n = 32 → SchedulePageReads f.schedule p) ∧ (n = 33 → PoolPageReads l p)
    ∧ (n = 34 → RescuePageReads e l.care p) ∧ (∀ q : Side, n = 35 + q.val / 64 → SideReads l q p)
    ∧ (∀ b : Book, n = 64 + b.val → BookPageReads l b p)
    ∧ (∀ (b : Book) (k i : Nat), k < 8 → n = 1024 + 8 * b.val + k → i < 512 → DirectoryReads (e.frame b (512 * k + i)) (2 * i) p)
    ∧ (¬ (n ≤ 5 ∨ (16 ≤ n ∧ n ≤ 36) ∨ (64 ≤ n ∧ n ≤ 190) ∨ (1024 ≤ n ∧ n ≤ 2039)) → bytesAt p 0 1024 = 0)

/-- R26, R34, R185: a burst of a FETCH in the service book: its pages are built as the state stands, in block order, and the last of them ends the
request DONE; no block changes.
R185, R191: the fields of every page, as Tables 11-1 to 11-14 lay them out; the page of a block that Table 11-1 does not name is all zero. That each field of an absent record, and a RETURN's face, reads 255 or 65535, and
that the pool page reads zero beyond its list and at its byte 1, which is named for a write alone, is the model's reading (log entry 10).
The model's choice: the burst is sent also while a pull waits for its FILE's burst to begin (log entry 68). -/
def Obligations.ServicePagesDelivered : Prop :=
  (∀ (s : State) (t : Tag) (rest : List LinkJob) (x : Entry) (count : Nat),
    s.env.startUp = none → s.lib.front.linkBurst = none → s.lib.front.ready = .burst t :: rest → s.lib.entry t = some x →
    x.ended = none → x.job = .servicePages → 1 ≤ count → x.moved < x.record.count.val →
    let n := min (min count 64) (x.record.count.val - x.moved)
    ∃ u, exec (.burstSent count) s = .next u ∧ u.pending = s.pending ∧ u.env = s.env ∧ u.fee = s.fee ∧ SameBlocks s.lib u.lib
      ∧ u.lib.out = [.burst t (x.record.addr.val + x.moved)
          ((List.range n).map fun i => servicePage s.env s.fee s.begin.lib (x.record.addr.val + x.moved + i - 33292288))]
      ∧ (∀ v, v ≠ t → u.lib.entry v = s.lib.entry v)
      ∧ (x.moved + n < x.record.count.val → ∃ y, u.lib.entry t = some y ∧ y.record = x.record ∧ y.ended = none ∧ y.moved = x.moved + n)
      ∧ (x.moved + n = x.record.count.val → RequestEnds u.lib t x .done (x.moved + n)))
  ∧ ∀ (e : Env) (f : Fee) (l : Library) (n : Nat), PageReads e f l n (servicePage e f l n)

/-- R28, R44: the response that is next is sent, and its entry is FREE. -/
def Obligations.ResponseFreesEntry : Prop :=
  ∀ (s : State) (r : Response) (rest : List Response) (x : Entry), s.env.startUp = none → s.lib.front.responses = r :: rest →
    s.lib.entry r.tag = some x → x.discard = 0 → s.lib.front.ending = [] →
    ∃ t, exec .responseSent s = .next t ∧ t.pending = s.pending ∧ t.env = s.env ∧ t.fee = s.fee ∧ SameBlocks s.lib t.lib
      ∧ t.lib.out = [.response r] ∧ t.lib.front.responses = rest ∧ t.lib.entry r.tag = none
      ∧ ∀ u, u ≠ r.tag → t.lib.entry u = s.lib.entry u

/-! ## Outcomes of sector commands -/

/-- What every outcome of a read or verify leaves of its drive and of the side that gave it (R65, R109, R115, R161): the drive's failure count is 0, its last-use time is set,
each CORRECTED result and each UNCORRECTABLE or BLANK one is counted, saturating, for the drive and, unless a rescue can reset its record, for the side;
the other drives and sides keep theirs. -/
def ReadCounted (s t : State) (d : Drive) (side : Side) (rs : List ReadResult) : Prop :=
  (t.lib.drive d).failures = 0 ∧ (t.lib.drive d).lastUse = s.env.now
    ∧ (t.lib.drive d).corrected = min 255 ((s.lib.drive d).corrected + countCorrected rs)
    ∧ (t.lib.drive d).uncorrectable = min 255 ((s.lib.drive d).uncorrectable + countFailed rs)
    ∧ (t.lib.drive d).commandFailures = (s.lib.drive d).commandFailures
    ∧ (s.lib.untargeted side →
      (t.lib.health side).corrected = min 65535 ((s.lib.health side).corrected + countCorrected rs)
      ∧ (t.lib.health side).uncorrectable = min 255 ((s.lib.health side).uncorrectable + countFailed rs))
    ∧ (∀ d', d' ≠ d → (s.lib.drive d').KeptTo (t.lib.drive d'))
    ∧ (∀ i, i ≠ side → s.lib.untargeted i → (t.lib.health i).corrected = (s.lib.health i).corrected
      ∧ (t.lib.health i).uncorrectable = (s.lib.health i).uncorrectable)

/-- R177: a read or verify outcome with a result UNCORRECTABLE or BLANK records READ_UNCORRECTABLE, once, with the book, side and frame read, the drive, and the tag of a fetch. -/
def FailedReadLogged (s t : State) (d : Drive) (side : Side) (b : Book) (f : Nat) (tag : Option Tag) (rs : List ReadResult) : Prop :=
  (∃ r ∈ rs, r = .uncorrectable ∨ r = .blank) → s.lib.log.first = none → KindSet.has s.env.mask .readUncorrectable = false →
    s.lib.care.queue.length < 8 → t.lib.log.first = some ⟨.readUncorrectable, some b, some side, some f, some d, none, tag, s.env.day⟩

/-- R64, R65, R115, R161: a fetch read outcome is counted, whatever becomes of its data, and changes no directory, mark or account.
R177: a failed result in it records READ_UNCORRECTABLE; that it fills an empty record though the same event may record NO_BLANK too is the model's choice (log entry 44). -/
def Obligations.FetchReadOutcomeCounted : Prop :=
  ∀ (s : State) (d : Drive) (v : InService) (t : Tag) (b : Book) (f : Nat) (ss : List Nat) (live : Bool) (k : Nat) (rs : List ReadResult),
    Answered s d v → v.command = .fetchRead t b f ss live k → rs.length = ss.length →
    ∃ u, exec (.fetchReadOutcome d rs) s = .next u
      ∧ Reacted s u s.env s.fee (((s.begin.finishCommand d).lib.countRead s.env d v.side b f (some t) rs).fetchOutcome s.env t b f live ss rs)
      ∧ ReadCounted s u d v.side rs ∧ FailedReadLogged s u d v.side b f (some t) rs

/-- R65, R68, R74: the sectors of a read outcome in a window: one read OK or CORRECTED takes the data and the source of the copy that was read, a corrected one its note; one that failed keeps what it
had and is marked; a sector that the command did not cover is untouched. -/
def Obligations.ReadResultsFillWindow : Prop :=
  ∀ (w : Window) (ss : List Nat) (rs : List ReadResult) (j : Nat) (old : SectorState), rs.length = ss.length → ss.Nodup →
    w.sectors[j]? = some old →
    let src := if w.onTwin then Source.twin else Source.primary
    ((w.receive ss rs).sectors.length = w.sectors.length)
    ∧ (w.first + j ∉ ss → (w.receive ss rs).sectors[j]? = some old)
    ∧ ∀ i : Nat, ss[i]? = some (w.first + j) →
      (∀ x, rs[i]? = some (.ok x) → (w.receive ss rs).sectors[j]? = some { old with source := src, data := x })
      ∧ (∀ x, rs[i]? = some (.corrected x) →
        (w.receive ss rs).sectors[j]? = some { old with source := src, corrected := true, data := x })
      ∧ (rs[i]? = some .uncorrectable ∨ rs[i]? = some .blank →
        (w.receive ss rs).sectors[j]? = some { old with failed := true })

/-- R83, R84, R4: a primary write that ends OK: the directory entry is HEAD with the class of the record, or CONT with the class of the head found below it, or HEAD where none is
found; the filing mark rises by one, and the twin mark with it in a book without a twin; the request ends DONE.
R53, R54, R56: with a twin the page joins the tail of the twin hold list behind the entries that its demotion keeps, and escalation is tested on the total that this leaves; a change of the flag reaches the Mount
Scheduler's copy and calls for a decision (R128, R131).
R85, R161: a primary write that ends WRITE_FAIL: the frame is VOID, the filing mark passes it, no hold entry is made, the side's uncorrectable count rises by one, WRITE_FAILED is recorded, and
the request ends FILE_FAILED. That WRITE_FAILED fills an empty record though the same event may record NO_BLANK too is the model's choice (log entry 44). -/
def Obligations.PrimaryWriteOutcomes : Prop :=
  (∀ (s : State) (d : Drive) (v : InService) (t : Tag) (x : Entry) (g : Filing),
      Answered s d v → v.command = .primaryWrite t g.book g.frame → s.lib.fileOf t = some (x, g) →
      ∃ u entry, exec (.primaryWriteOk d) s = .next u
        ∧ u.env = s.env.setFrame g.book g.frame entry ∧ u.fee = s.fee ∧ u.pending = s.pending
        ∧ (g.isHead = true → entry = .head g.cls g.len)
        ∧ (g.isHead = false → ∀ h c, HeadBelow (fun n => (s.env.frame g.book n).mark) g.frame h c → entry = .cont c g.len)
        ∧ (g.isHead = false → (∀ h c, ¬ HeadBelow (fun n => (s.env.frame g.book n).mark) g.frame h c) → entry = .head g.cls g.len)
        ∧ (u.lib.book g.book).filing = (s.lib.book g.book).filing + 1
        ∧ (∀ b, b ≠ g.book → (u.lib.book b).filing = (s.lib.book b).filing)
        ∧ ((s.lib.book g.book).twin = none → (u.lib.book g.book).twinMark = (s.lib.book g.book).filing + 1)
        ∧ ((s.lib.book g.book).twin = none → u.lib.buffer.hold = s.lib.buffer.hold ∧ u.lib.buffer.escalation = s.lib.buffer.escalation
          ∧ u.lib.scheduler.escalation = s.lib.scheduler.escalation)
        ∧ (let a := (s.begin.finishCommand d).lib.filed u.env t g
          Reacted s u u.env s.fee a
            ∧ ((s.lib.book g.book).twin ≠ none →
              u.lib.buffer.hold = (demote s.lib.writingFrom g.received.length s.lib.holdFree s.lib.buffer.hold).1 ++ [⟨g.book, g.frame, g.received⟩]
                ∧ a.buffer.hold = u.lib.buffer.hold ∧ u.lib.buffer.escalation = a.buffer.escalation
                ∧ u.lib.scheduler.escalation = a.scheduler.escalation ∧ EscalationTested s.lib a))
        ∧ RequestEnds u.lib t x .done g.len
        ∧ (u.lib.drive d).failures = 0 ∧ (u.lib.drive d).lastUse = s.env.now
        ∧ (∀ r y, r ≠ t → s.lib.entry r = some y → ∃ z, u.lib.entry r = some z ∧ y.KeptTo z)
        ∧ (∀ d', d' ≠ d → (s.lib.drive d').KeptTo (u.lib.drive d'))
        ∧ (∀ b, (u.lib.book b).state = (s.lib.book b).state) ∧ u.lib.picker.locations = s.lib.picker.locations)
  ∧ (∀ (s : State) (d : Drive) (v : InService) (t : Tag) (x : Entry) (g : Filing),
      Answered s d v → v.command = .primaryWrite t g.book g.frame → s.lib.fileOf t = some (x, g) →
      ∃ u, exec (.primaryWriteFail d) s = .next u
        ∧ u.env = s.env.setFrame g.book g.frame .void ∧ u.fee = s.fee ∧ u.pending = s.pending
        ∧ (u.lib.book g.book).filing = (s.lib.book g.book).filing + 1
        ∧ (∀ b, b ≠ g.book → (u.lib.book b).filing = (s.lib.book b).filing)
        ∧ ((s.lib.book g.book).twin = none → (u.lib.book g.book).twinMark = (s.lib.book g.book).filing + 1)
        ∧ u.lib.buffer.hold = s.lib.buffer.hold
        ∧ (s.lib.untargeted v.side → (u.lib.health v.side).uncorrectable = min 255 ((s.lib.health v.side).uncorrectable + 1))
        ∧ (s.lib.log.first = none → KindSet.has s.env.mask .writeFailed = false → s.lib.care.queue.length < 8 →
          u.lib.log.first = some ⟨.writeFailed, some g.book, some v.side, some g.frame, some d, none, some t, s.env.day⟩)
        ∧ RequestEnds u.lib t x .fileFailed 0
        ∧ (u.lib.drive d).failures = 0 ∧ (u.lib.drive d).commandFailures = (s.lib.drive d).commandFailures
        ∧ (∀ r y, r ≠ t → s.lib.entry r = some y → ∃ z, u.lib.entry r = some z ∧ y.KeptTo z)
        ∧ (∀ d', d' ≠ d → (s.lib.drive d').KeptTo (u.lib.drive d'))
        ∧ (∀ b, (u.lib.book b).state = (s.lib.book b).state) ∧ u.lib.picker.locations = s.lib.picker.locations)

/-- R99, R55, R56, R95: a twin write that is verified: the twin mark passes its frame and the VOID and LOST frames above it, the frame's hold entry and its re-read record go and the other
entries stay, escalation follows the held-sector total, a change of it reaches the Mount Scheduler's copy and calls for a decision (R128, R131), and the next twin write item is placed when its data is there.
R100: a twin write that ends WRITE_FAIL: the twin mark and the hold list stay, the side's uncorrectable count rises by one, WRITE_FAILED is recorded, and the book is PAUSED with no write in
progress, no re-read record and no twin item on any list.
R8: with the twin removed since the issue, either outcome releases the slots of its source and changes nothing else of the book.
R97: a re-read whose sectors were all read is READY with their data; one with a sector that failed is removed with those above it, and its frame becomes the failed frame unless a lower one is
recorded; the data of one whose record is gone is discarded. R177: a failed result records READ_UNCORRECTABLE.
R52: a reservation that fits the re-read half is GRANTED at once, with the re-read item on the primary's list, and one that does not joins the tail of the waiting list; slots that come free go to
the head of that list while the head fits; those that have joined it at one event stand behind those that waited, in ascending book number, then ascending frame. That one which fits is granted while others wait is
the model's reading (log entry 18), and that those behind a withdrawn head are granted at the withdrawal, as the named libraries have it, is its choice (log entry 65).
That WRITE_FAILED or READ_UNCORRECTABLE fills an empty record though the same event may record NO_BLANK too is the model's choice (log entry 44). -/
def Obligations.TwinOutcomes : Prop :=
  (∀ (s : State) (d : Drive) (v : InService) (b : Book) (f n : Nat) (h live : Bool),
      Answered s d v → v.command = .twinWrite b f n h live → (s.lib.book b).twin = some v.side → (s.lib.book b).twinMark = f →
      f < (s.lib.book b).filing → (s.lib.book b).filing ≤ 4096 →
      let a := (s.begin.finishCommand d).lib.twinWritten s.env b f
      let mark := (a.book b).twinMark
      ∃ u, exec (.twinWriteVerified d) s = .next u ∧ Reacted s u s.env s.fee a
        ∧ f + 1 ≤ (u.lib.book b).twinMark
        ∧ u.lib.buffer.hold = s.lib.buffer.hold.filter (fun e => !(e.book == b && e.frame == f))
        ∧ u.lib.buffer.escalation = escalationAfter s.lib.buffer.escalation (u.lib.buffer.hold.map fun e => e.data.length).sum
        ∧ EscalationTested s.lib a ∧ u.lib.buffer.escalation = a.buffer.escalation ∧ u.lib.scheduler.escalation = a.scheduler.escalation
        ∧ (∀ c, (u.lib.book c).filing = (s.lib.book c).filing ∧ (u.lib.book c).state = (s.lib.book c).state)
        ∧ (∀ t x, s.lib.entry t = some x → ∃ y, u.lib.entry t = some y ∧ x.KeptTo y)
        ∧ (∀ d', d' ≠ d → (s.lib.drive d').KeptTo (u.lib.drive d')) ∧ u.lib.picker.locations = s.lib.picker.locations
        ∧ (u.lib.drive d).failures = 0 ∧ (u.lib.drive d).lastUse = s.env.now
        ∧ (a.twin b).writing = none ∧ (∀ r ∈ (a.twin b).rereads, r.frame ≠ f)
        ∧ ((s.lib.twin b).state ≠ .paused →
          (∀ g, f + 1 ≤ g → g < mark → (s.env.frame b g).skipped = true)
          ∧ (mark = (s.lib.book b).filing ∨ (s.env.frame b mark).skipped = false)
          ∧ (a.twin b).state = twinStateOf (a.book b) (s.lib.twin b).failed
          ∧ ((a.twin b).state = .working → (s.env.frame b mark).filed = true → (a.twinData b mark).isSome = true →
            listed (.twinWrite b) (a.items v.side) = true)))
  ∧ (∀ (s : State) (d : Drive) (v : InService) (b : Book) (f n : Nat) (h live : Bool),
      Answered s d v → v.command = .twinWrite b f n h live → (s.lib.book b).twin = some v.side →
      let a := ((s.begin.finishCommand d).lib.countWriteFail s.env v.side).twinFailed s.env b f v.side d
      ∃ u, exec (.twinWriteFail d) s = .next u ∧ Reacted s u s.env s.fee a
        ∧ (a.twin b).state = .paused ∧ (a.twin b).writing = none ∧ (a.twin b).rereads = []
        ∧ (∀ i, ∀ x ∈ a.items i, x.kind ≠ .twinWrite b ∧ x.kind ≠ .twinReread b)
        ∧ a.books = s.lib.books ∧ a.buffer.hold = s.lib.buffer.hold ∧ a.roles = s.lib.roles
        ∧ (a.health v.side).uncorrectable = min 255 ((s.lib.health v.side).uncorrectable + 1)
        ∧ (∀ i, i ≠ v.side → a.health i = s.lib.health i)
        ∧ (s.lib.log.first = none → KindSet.has s.env.mask .writeFailed = false → s.lib.care.queue.length < 8 →
          u.lib.log.first = some ⟨.writeFailed, some b, some v.side, some f, some d, none, none, s.env.day⟩)
        ∧ (∀ t, a.entry t = s.lib.entry t) ∧ a.picker = s.lib.picker)
  ∧ (∀ (s : State) (d : Drive) (v : InService) (b : Book) (f n : Nat) (h live : Bool),
      Answered s d v → v.command = .twinWrite b f n h live → (s.lib.book b).twin ≠ some v.side →
      ∀ c l, (c = .twinWriteVerified d ∧ l = (s.begin.finishCommand d).lib)
          ∨ (c = .twinWriteFail d ∧ l = (s.begin.finishCommand d).lib.countWriteFail s.env v.side) →
        ∃ u, exec c s = .next u ∧ Reacted s u s.env s.fee (l.grantRereads s.env)
          ∧ (l.grantRereads s.env).books = s.lib.books ∧ (l.grantRereads s.env).buffer.hold = s.lib.buffer.hold
          ∧ (l.grantRereads s.env).roles = s.lib.roles ∧ ∀ t, (l.grantRereads s.env).entry t = s.lib.entry t)
  ∧ (∀ (s : State) (d : Drive) (v : InService) (b : Book) (f n : Nat) (live : Bool) (rs : List ReadResult),
      Answered s d v → v.command = .reread b f n live → rs.length = n →
      let l := (s.begin.finishCommand d).lib.countRead s.env d v.side b f none rs
      ∃ u, exec (.rereadOutcome d rs) s = .next u ∧ ReadCounted s u d v.side rs ∧ FailedReadLogged s u d v.side b f none rs
        ∧ u.lib.buffer.hold = s.lib.buffer.hold
        ∧ (live = false → Reacted s u s.env s.fee (l.grantRereads s.env))
        ∧ (live = true → (∃ r ∈ rs, r = .uncorrectable ∨ r = .blank) →
          let a := l.rereadFailed s.env b f
          let low := min f ((s.lib.twin b).failed.getD f)
          Reacted s u s.env s.fee a ∧ a.roles = s.lib.roles
            ∧ ((s.lib.book b).twin ≠ none → (a.twin b).failed = some low ∧ ∀ r ∈ (a.twin b).rereads, r.frame ≠ f ∧ r.frame ≤ low)
            ∧ ((s.lib.book b).twin ≠ none → (s.lib.twin b).state ≠ .paused → (a.twin b).state = twinStateOf (a.book b) (some low)))
        ∧ (live = true → ∀ data, rs.map resultData = data.map some →
          let a := l.rereadDone s.env b f data
          Reacted s u s.env s.fee a ∧ a.roles = s.lib.roles
            ∧ ((s.lib.book b).twin ≠ none → (a.twin b).failed = (s.lib.twin b).failed)
            ∧ ((∃ r ∈ (s.lib.twin b).rereads, r.frame = f) →
              ∀ r ∈ (a.twin b).rereads, r.frame = f → r.state = .ready ∧ r.data = data)))
  ∧ (∀ (e : Env) (l : Library) (b : Book) (f len : Nat),
      let a := l.askReread e b f len
      (len ≤ l.rereadFree → ⟨f, len, .granted, []⟩ ∈ (a.twin b).rereads ∧ a.buffer.rereadWait = l.buffer.rereadWait
        ∧ ∀ p, (l.book b).primary = some p → listed (.twinReread b) (a.items p) = true)
      ∧ (l.rereadFree < len → ⟨f, len, .asked, []⟩ ∈ (a.twin b).rereads ∧ a.buffer.rereadWait = l.buffer.rereadWait ++ [(b, f)]
        ∧ a.scheduler = l.scheduler)
      ∧ (∀ r ∈ (l.twin b).rereads, r ∈ (a.twin b).rereads) ∧ (∀ c, c ≠ b → a.twin c = l.twin c))
  ∧ (∀ (e : Env) (l : Library) (b : Book) (f : Nat) (rest : List (Book × Nat)), l.buffer.rereadWait = (b, f) :: rest →
      let waits (m : Library) : Library := { m with buffer := { m.buffer with rereadWait := rest } }
      ((l.twin b).rereads.find? (fun r => r.frame == f) = none → l.grantRereads e = (waits l).grantRereads e)
      ∧ ∀ r, (l.twin b).rereads.find? (fun r => r.frame == f) = some r →
        (l.rereadFree < r.len → l.grantRereads e = l)
        ∧ (r.len ≤ l.rereadFree →
          let m := (l.mapRereads b fun rs => rs.map fun q => if q.frame = f then { q with state := .granted } else q).syncReread e b
          l.grantRereads e = (waits m).grantRereads e
            ∧ ∀ p, (l.book b).primary = some p → listed (.twinReread b) (m.items p) = true))
  ∧ (∀ (e : Env) (l was : Library), ∃ m, l.settle e was = (Library.orderReservations was m).finish)
  ∧ (∀ (was l : Library) (old new : List (Book × Nat)), l.buffer.rereadWait = old ++ new → (∀ p ∈ old, p ∈ was.buffer.rereadWait) →
      (∀ p, new.head? = some p → p ∉ was.buffer.rereadWait) →
      let a := Library.orderReservations was l
      ∃ ordered, a = { l with buffer := { l.buffer with rereadWait := old ++ ordered } } ∧ ordered.Perm new
        ∧ ordered.Pairwise fun p q => p.1 < q.1 ∨ (p.1 = q.1 ∧ p.2 ≤ q.2))

/-- R3, R4, R10: every step keeps the book table, the directories and the FILEs of every book in agreement: twin mark ≤ filing mark ≤ intake mark ≤ 4096, the intake mark counts the live FILEs above the
filing mark, a book without a twin keeps its twin mark at its filing mark, and the directory is BLANK exactly at and above the filing mark.
The clauses of the invariant that are not the specification's (`FilesSound`) say what a write in progress and a waiting response belong to, and that an entry holds the record of its own tag. -/
def Obligations.StepKeepsBooksSound : Prop :=
  ∀ s t : State, s.BooksSound → step s = .next t → t.BooksSound

/-- R170, R171, R172, R11: a rescue read outcome is counted; the directory changes only by the loss of the frame read, which keeps its class and its kind as retained ones.
R170, R171: the sectors that were read take their data in the frame of the batch, which is READY when none is lacking and else has failed on the side that was read and turns to its next copy;
the outcome of a read whose batch has been discarded is only counted. R177: a failed result records READ_UNCORRECTABLE; that it fills an empty record before FRAME_LOST or NO_BLANK of the same event is the
model's choice (log entry 44).
R172, R11: a HEAD or CONT frame that is lost is LOST with its kind and its class retained, and FRAME_LOST is recorded with the book, the frame and the source side. -/
def Obligations.RescueReadOutcomeCounted : Prop :=
  ∀ (s : State) (d : Drive) (v : InService) (b : Book) (f : Nat) (ss : List Nat) (live : Bool) (rs : List ReadResult),
    Answered s d v → v.command = .rescueRead b f ss live → rs.length = ss.length →
    ∃ u, exec (.rescueReadOutcome d rs) s = .next u ∧ u.pending = s.pending ∧ u.fee = s.fee ∧ ReadCounted s u d v.side rs
      ∧ FailedReadLogged s u d v.side b f none rs
      ∧ (u.env = s.env ∨ ∃ r, s.lib.care.rescue = some r ∧ live = true
          ∧ u.env = s.env.setFrame r.book f (s.env.frame r.book f).lose)
      ∧ (live = false → u.env = s.env)
      ∧ (∀ c k, (s.env.frame c k).isLost = true → (u.env.frame c k).isLost = true)
      ∧ (let l := (s.begin.finishCommand d).lib.countRead s.env d v.side b f none rs
        (live = false → Reacted s u s.env s.fee l)
        ∧ ∀ r xs x, live = true → s.lib.care.rescue = some r → s.lib.care.batch = some xs → xs.find? (fun z => z.frame == f) = some x →
          let y := l.rescueRead s.env r v.side x ss rs
          let placed := l.mapBatch fun z => if z.frame = f then y else z
          (y.state ≠ .lost → Reacted s u s.env s.fee placed)
          ∧ (y.state = .lost → Reacted s u (s.env.lose r.book f) s.fee (placed.frameLost (s.env.lose r.book f) r.book f r.source)
            ∧ (∀ c n, dirWf s.env.directory = true → f < 4096 →
              (s.env.frame r.book f = .head c n → u.env.frame r.book f = .lost true c)
              ∧ (s.env.frame r.book f = .cont c n → u.env.frame r.book f = .lost false c)
              ∧ ∀ b' f', f' < 4096 → (b' ≠ r.book ∨ f' ≠ f) → u.env.frame b' f' = s.env.frame b' f')
            ∧ (KindSet.has s.env.mask .frameLost = false →
              (u.lib.log.first = some ⟨.frameLost, some r.book, some r.source, some f, none, none, none, s.env.day⟩
                ∨ KindSet.has u.lib.log.later .frameLost = true)
              ∧ (s.lib.log.first = none → KindSet.has s.env.mask .readUncorrectable = true → s.lib.care.queue.length < 8 →
                u.lib.log.first = some ⟨.frameLost, some r.book, some r.source, some f, none, none, none, s.env.day⟩)))
          ∧ y.frame = x.frame ∧ y.len = x.len ∧ y.reading = false
          ∧ (∀ (j i : Nat) z, ss.Nodup → ss[j]? = some i → i < x.data.length → (rs[j]? = some (.ok z) ∨ rs[j]? = some (.corrected z)) →
            y.data[i]? = some (some z))
          ∧ ((x.receive ss rs).lacking = [] → y.state = .ready ∧ y.waits = none)
          ∧ ((x.receive ss rs).lacking ≠ [] → y.failedOn (r.copyOf v.side) = true
            ∧ y = l.turnFrame s.env r ((x.receive ss rs).failOn (r.copyOf v.side))))

/-- R173: a rescue write that is verified: the frame of the batch is WRITTEN; the outcome of one whose batch has been discarded changes nothing of the rescue.
R174: a rescue write that ends WRITE_FAIL: the target is RETIRED with the book, the batch goes with its items, the copying begins again from frame 0 with no target until one is found, the target's
uncorrectable count rises by one and WRITE_FAILED is recorded; that this is so of a stopped rescue too is the model's choice (log entry 32). One whose target has been given up since is only
counted and recorded. That WRITE_FAILED fills an empty record though the search for a new target may record NO_BLANK at the same event is the model's choice (log entry 44). -/
def Obligations.RescueWriteOutcomes : Prop :=
  (∀ (s : State) (d : Drive) (v : InService) (b : Book) (f : Nat) (live : Bool),
      Answered s d v → v.command = .rescueWrite b f live →
      let l := (s.begin.finishCommand d).lib
      let a := if live = true then l.setBatchState f .written else l
      ∃ u, exec (.rescueWriteVerified d) s = .next u ∧ Reacted s u s.env s.fee a
        ∧ (live = true → a.care.batch = s.lib.care.batch.map fun xs => xs.map fun x => if x.frame = f then { x with state := .written } else x)
        ∧ (live = false → a.care = s.lib.care)
        ∧ a.care.rescue = s.lib.care.rescue ∧ a.roles = s.lib.roles ∧ a.books = s.lib.books ∧ (∀ t, a.entry t = s.lib.entry t)
        ∧ (u.lib.drive d).failures = 0 ∧ (u.lib.drive d).lastUse = s.env.now)
  ∧ (∀ (s : State) (d : Drive) (v : InService) (b : Book) (f : Nat) (live : Bool),
      Answered s d v → v.command = .rescueWrite b f live →
      let l := ((s.begin.finishCommand d).lib.countWriteFail s.env v.side).faultWrite s.env b v.side f d none
      ∃ u, exec (.rescueWriteFail d) s = .next u
        ∧ (∀ r, s.lib.care.rescue = some r → r.target = some v.side →
          let a := l.loseTarget r v.side
          Reacted s u s.env s.fee a
            ∧ a.role v.side = .retired r.book ∧ (∀ i, i ≠ v.side → a.role i = s.lib.role i)
            ∧ a.care.rescue = some { r with target := none, copyMark := 0 } ∧ a.care.batch = none
            ∧ (∀ i, ∀ x ∈ a.items i, x.kind ≠ .rescueRead ∧ x.kind ≠ .rescueWrite)
            ∧ (a.health v.side).uncorrectable = min 255 ((s.lib.health v.side).uncorrectable + 1)
            ∧ a.books = s.lib.books ∧ (∀ t, a.entry t = s.lib.entry t) ∧ a.buffer.hold = s.lib.buffer.hold)
        ∧ ((∀ r, s.lib.care.rescue = some r → r.target ≠ some v.side) → Reacted s u s.env s.fee l)
        ∧ (s.lib.log.first = none → KindSet.has s.env.mask .writeFailed = false → s.lib.care.queue.length < 8 →
          u.lib.log.first = some ⟨.writeFailed, some b, some v.side, some f, some d, none, none, s.env.day⟩))

/-- R164: a patrol verify outcome is counted; the side's patrol mark passes the frame verified, and the pass is full on the current day when no HEAD or CONT frame of its book lies above it below the
patrol top. R177: a failed result records READ_UNCORRECTABLE; that it fills an empty record though the same event may record NO_BLANK too is the model's choice (log entry 44). That the mark of a side that has left PRIMARY and
TWIN is set without a full pass is the model's reading (log entry 31). -/
def Obligations.PatrolVerifyAdvances : Prop :=
  ∀ (s : State) (d : Drive) (v : InService) (b : Book) (f n : Nat) (rs : List ReadResult),
    Answered s d v → v.command = .patrolVerify b f n → rs.length = n →
    let a := ((s.begin.lib.finishCommand s.env d true).countRead s.env d v.side b f none rs).patrolled s.env v.side f
    ∃ u, exec (.patrolVerifyOutcome d rs) s = .next u ∧ Reacted s u s.env s.fee a ∧ ReadCounted s u d v.side rs
      ∧ FailedReadLogged s u d v.side b f none rs
      ∧ (∀ c, (s.lib.role v.side).holds = some c →
        ((∃ g, f + 1 ≤ g ∧ g < s.lib.patrolTop v.side ∧ (s.env.frame c g).filed = true) →
          (a.health v.side).patrolMark = f + 1 ∧ (a.health v.side).lastPass = (s.lib.health v.side).lastPass)
        ∧ ((∀ g, f + 1 ≤ g → g < s.lib.patrolTop v.side → (s.env.frame c g).filed = false) →
          (a.health v.side).patrolMark = 0 ∧ (a.health v.side).lastPass = some s.env.day ∧ a.scheduler.patrolMount ≠ some v.side))
      ∧ (s.lib.untargeted v.side → (u.lib.health v.side).patrolMark = f + 1
          ∨ ((u.lib.health v.side).patrolMark = 0 ∧ (u.lib.health v.side).lastPass = some s.env.day))
      ∧ (∀ t x, s.lib.entry t = some x → ∃ y, u.lib.entry t = some y ∧ x.KeptTo y)
      ∧ (∀ c, (u.lib.book c).filing = (s.lib.book c).filing)

/-! ## Drive command failures -/

/-- R112, R113, R115: a drive command failure is counted; the second without a success between makes the drive FAILED. -/
def FailureCounted (s t : State) (d : Drive) : Prop :=
  (t.lib.drive d).commandFailures = min 255 ((s.lib.drive d).commandFailures + 1)
    ∧ (t.lib.drive d).failures = min 2 ((s.lib.drive d).failures + 1)
    ∧ (1 ≤ (s.lib.drive d).failures → (t.lib.drive d).state = .failed)
    ∧ ((s.lib.drive d).failures = 0 → (t.lib.drive d).state ≠ .failed)
    ∧ (t.lib.drive d).corrected = (s.lib.drive d).corrected ∧ (t.lib.drive d).uncorrectable = (s.lib.drive d).uncorrectable
    ∧ ∀ d', d' ≠ d → (t.lib.drive d').commandFailures = (s.lib.drive d').commandFailures
      ∧ (t.lib.drive d').failures = (s.lib.drive d').failures

/-- R113: what a drive's entry to FAILED does to the library `l` that its failure found: the unload flag is cleared, spin down is sent, a RETURN of its cartridge that waits on the list becomes the
failure return at its place (the model's choice: log entry 67) and otherwise one is asked, and a full first-fault record gains DRIVE_FAILED in the later set. -/
def DriveFails (e : Env) (l a : Library) (d : Drive) : Prop :=
  (a.drive d).state = .failed ∧ (a.drive d).unload = false ∧ (a.drive d).service = none ∧ Output.spinDown d ∈ a.out
    ∧ (∀ i, l.mountedSide d = some i → (∀ m ∈ l.picker.moves, m.drive? = some d → m.byScheduler = true) →
      a.picker.moves = l.picker.moves ++ [.back (slotOf i) (some d) .failure])
    ∧ (∀ k q, Move.back k (some d) q ∈ l.picker.moves → Move.back k (some d) .failure ∈ a.picker.moves)
    ∧ (∀ m ∈ l.picker.moves, m.drive? ≠ some d → m ∈ a.picker.moves)
    ∧ a.picker = { l.picker with moves := a.picker.moves } ∧ (∀ i, a.mountedSide i = l.mountedSide i)
    ∧ ∀ r, l.log.first = some r → KindSet.has e.mask .driveFailed = false →
      a.log.first = some r ∧ KindSet.has a.log.later .driveFailed = true

/-- R113, R177: DRIVE_FAILED with the drive, the side mounted in it and that side's book. -/
def driveFault (e : Env) (l : Library) (d : Drive) : FaultRecord :=
  ⟨.driveFailed, (l.mountedSide d).bind fun i => (l.role i).book?, l.mountedSide d, none, some d, none, none, e.day⟩

/-- R108, R110, R112: the expiry of a spin-up or spin-down limit, or a hardware fault during either, is a command failure; when the drive does not become FAILED its command is sent again under a new
limit. R113: the second failure makes it FAILED, with DRIVE_FAILED and its failure return. The model's choices: a hardware fault report repeats the command as an expiry does (log entry 14),
an expiry moves the time on to its deadline without testing it (log entry 3), the failure of a spin command leaves the quiet time alone, with all else that the equation at a first failure leaves (log entry 42), a hardware fault
report at the time of an expiry, after it, counts against the command sent again (log entry 51), and DRIVE_FAILED fills an empty record before the PICKER_FAULT of a failure return that is dropped at the same event, or any other fault
of the reactions (log entry 44), and a RETURN that waits on the list becomes the failure return at its place (log entry 67). -/
def Obligations.SpinFailureRepeatsOrFails : Prop :=
  ∀ (s : State) (d : Drive) (c : Instr), s.env.startUp = none →
    (((s.lib.drive d).state = .spinUp ∧ (c = .spinUpLimitExpiry d ∨ c = .hardwareFaultReport d))
      ∨ ((s.lib.drive d).state = .spinDown ∧ (c = .spinDownLimitExpiry d ∨ c = .hardwareFaultReport d))) →
    ∃ u, exec c s = .next u ∧ u.pending = s.pending ∧ u.fee = s.fee ∧ FailureCounted s u d
      ∧ u.env = { s.env with now := u.env.now }
      ∧ ((c = .spinUpLimitExpiry d ∨ c = .spinDownLimitExpiry d) → u.env.now = max s.env.now ((s.lib.drive d).limitStart + 20))
      ∧ (c = .hardwareFaultReport d → u.env.now = s.env.now)
      ∧ ((s.lib.drive d).failures = 0 → (u.lib.drive d).state = (s.lib.drive d).state
        ∧ ∃ os, u.lib.out = (if (s.lib.drive d).state = .spinUp then Output.spinUp d else Output.spinDown d) :: os)
      ∧ (∀ t x, s.lib.entry t = some x → ∃ y, u.lib.entry t = some y ∧ x.KeptTo y)
      ∧ u.lib.picker.locations = s.lib.picker.locations
      ∧ (let w := State.failCommand { s.begin with env := u.env } d
        u = w.react s.begin.lib
          ∧ ((s.lib.drive d).failures = 0 → w.lib = ({ s.lib with out := [if (s.lib.drive d).state = DriveState.spinUp then Output.spinUp d else .spinDown d] }).setDrive d
            { s.lib.drive d with
              failures := 1, commandFailures := min 255 ((s.lib.drive d).commandFailures + 1), limitStart := u.env.now })
          ∧ (1 ≤ (s.lib.drive d).failures → (s.lib.drive d).service = none → DriveFails s.env s.lib w.lib d
            ∧ (s.lib.log.first = none → KindSet.has s.env.mask .driveFailed = false → u.lib.log.first = some (driveFault s.env s.lib d))))

/-- R112: an item that a command failure returns stands on a side's list, with its former placement time unless one of its kind stood there already. -/
def ItemReturned (s : State) (l : Library) (v : InService) (i : Side) : Prop :=
  listed v.item.kind (l.items i) = true ∧ (listed v.item.kind (s.lib.items i) = true ∨ v.item ∈ l.items i)

/-- R112, R86, R66, R101, R165, R170, R173: a sector command that gets no outcome within 10 s, or ends with a hardware fault, is a command failure: stop is sent, nothing is counted into any health record, and a primary
write's frame is spent, with WRITE_FAILED, and its request ends FILE_FAILED; any other owner takes its item back: a fetch read, a rescue read and a rescue write to the side that the command was issued on, a
re-read to its primary side, and a twin write to its twin side while its book goes on. The drive goes on to READY, or to SPINDOWN with its unload flag set; R113: the second failure makes it FAILED, with
DRIVE_FAILED and its failure return.
The model's choices: an expiry moves the time on to its deadline without testing it (log entry 3); a hardware fault report at the time of an expiry, after it, counts against the command that is then in progress (log
entry 51); WRITE_FAILED comes before DRIVE_FAILED, and both before the faults of the reactions (log entry 44); a read's item is returned also when its frame has become LOST meanwhile (log entry 39); the slots that the
command kept come free here (log entry 41), and a patrol item withdrawn meanwhile is not put back (log entry 46), as the named library has them; a RETURN that waits on the list becomes the failure return at its place (log entry 67).
R109: an outcome that arrives after its command's limit has expired is discarded without counting. The model's choice (log entry 48): it is the one that arrives at the time of the expiry, whatever command has been
issued since, and one is discarded for each expiry. -/
def Obligations.SectorCommandFailure : Prop :=
  (∀ (s : State) (d : Drive) (c : Instr), s.env.startUp = none → (s.lib.drive d).expired = some s.env.now →
    ((∃ rs, c = .fetchReadOutcome d rs ∨ c = .rereadOutcome d rs ∨ c = .rescueReadOutcome d rs ∨ c = .patrolVerifyOutcome d rs)
      ∨ c = .primaryWriteOk d ∨ c = .primaryWriteFail d ∨ c = .twinWriteVerified d ∨ c = .twinWriteFail d
      ∨ c = .rescueWriteVerified d ∨ c = .rescueWriteFail d) →
    exec c s = .next { s with lib := ({ s.lib with out := [] }).setDrive d { s.lib.drive d with expired := none } })
  ∧ ∀ (s : State) (d : Drive) (v : InService) (c : Instr), Running s d v → (c = .commandLimitExpiry d ∨ c = .hardwareFaultReport d) →
    (∃ u os, exec c s = .next u ∧ u.pending = s.pending ∧ u.fee = s.fee ∧ FailureCounted s u d ∧ u.lib.out = .stop d :: os
      ∧ (c = .commandLimitExpiry d → u.env.now = max s.env.now (v.issued + 10)) ∧ (c = .hardwareFaultReport d → u.env.now = s.env.now)
      ∧ (s.lib.untargeted v.side → (u.lib.health v.side).corrected = (s.lib.health v.side).corrected
        ∧ (u.lib.health v.side).uncorrectable = (s.lib.health v.side).uncorrectable)
      ∧ ((∀ t b f, v.command ≠ .primaryWrite t b f) → u.env = { s.env with now := u.env.now }
        ∧ ∀ b, (u.lib.book b).filing = (s.lib.book b).filing)
      ∧ (∀ t x g, v.command = .primaryWrite t g.book g.frame → s.lib.fileOf t = some (x, g) →
        u.env.directory = dirPut s.env.directory (frameKey g.book g.frame) .void
        ∧ (u.lib.book g.book).filing = (s.lib.book g.book).filing + 1 ∧ RequestEnds u.lib t x .fileFailed 0
        ∧ (s.lib.log.first = none → KindSet.has s.env.mask .writeFailed = false →
          u.lib.log.first = some ⟨.writeFailed, some g.book, some v.side, some g.frame, some d, none, some t, s.env.day⟩))
      ∧ (∀ r y, (∀ b f, v.command ≠ .primaryWrite r b f) → s.lib.entry r = some y → ∃ z, u.lib.entry r = some z ∧ y.KeptTo z)
      ∧ u.lib.picker.locations = s.lib.picker.locations ∧ (∀ b, (u.lib.book b).state = (s.lib.book b).state))
    ∧ (let e : Env := if c = .commandLimitExpiry d then { s.env with now := max s.env.now (v.issued + 10) } else s.env
      let l := if c = .commandLimitExpiry d then s.begin.lib.setDrive d { s.lib.drive d with expired := some e.now } else s.begin.lib
      let w := State.failCommand { s.begin with env := e, lib := l } d
      exec c s = .next (w.react l)
        ∧ (∀ t b f ss k x, v.command = .fetchRead t b f ss true k →
          (s.lib.windows t).find? (fun w => w.book == b && w.frame == f && w.reading) = some x →
          ItemReturned s w.lib v v.side)
        ∧ (∀ b f ss, v.command = .rescueRead b f ss true → ItemReturned s w.lib v v.side
          ∧ ∀ xs, w.lib.care.batch = some xs → ∀ x ∈ xs, x.frame = f → x.reading = false)
        ∧ (∀ b f, v.command = .rescueWrite b f true → ItemReturned s w.lib v v.side
          ∧ ∀ xs, w.lib.care.batch = some xs → ∀ x ∈ xs, x.frame = f → x.state = .ready)
        ∧ (∀ b f n p, v.command = .reread b f n true → (s.lib.book b).primary = some p → ItemReturned s w.lib v p
          ∧ ∀ r ∈ (w.lib.twin b).rereads, r.frame = f → r.state = .granted)
        ∧ (∀ b f n h, v.command = .twinWrite b f n h true → (s.lib.book b).twin = some v.side →
          (w.lib.twin b).writing = none ∧ (v.item.kind = .twinWrite b → (w.lib.twin b).state = .working → ItemReturned s w.lib v v.side))
        ∧ ((s.lib.drive d).failures = 0 → (w.lib.drive d).service = none
          ∧ (w.lib.drive d).state = if (s.lib.drive d).unload = true then .spinDown else .ready)
        ∧ (1 ≤ (s.lib.drive d).failures → DriveFails s.env s.lib w.lib d
          ∧ ((∀ t b f, v.command ≠ .primaryWrite t b f) → s.lib.log.first = none → KindSet.has s.env.mask .driveFailed = false →
            w.lib.log.first = some (driveFault s.env s.lib d))))

/-! ## Drive reports -/

/-- R108, R111: a drive in SPINUP that reports ready: its failure count is 0 and its last-use time is set; chosen to unload it enters SPINDOWN, else it is READY for the
reactions to serve.
R110, R111: a drive in SPINDOWN that reports stopped is STOPPED with its failure count 0; with its unload flag set it asks its RETURN at the tail of the move list, unless the picker is FAULTED.
R119, R108: a LOAD that completes, whether the picker reports it or a retry finds the cartridge seated: the location is IN_DRIVE with the drive and face, and the drive is in SPINUP with its mount time
set.
R119: a RETURN that completes: its drive is left EMPTY, or stays FAILED; the location is IN_SLOT at a home slot that reads seated, and a removal follows at once at one that reads vacant.
R118: the move at the head of the list is begun when its conditions hold, with its record written and its drive in LOADING or UNLOADING, and is otherwise dropped and the next one tried. The
model's choice: the RETURN of a held cartridge that is dropped at a seated slot faults the picker after a start-up (R123) as it does after a picker clear (R122; log entry 20). -/
def Obligations.ReportsEndSpinsAndMoves : Prop :=
  (∀ (s : State) (d : Drive), s.env.startUp = none → (s.lib.drive d).state = .spinUp →
      let a := s.begin.lib.driveReady s.env d
      ∃ u, exec (.readyReport d) s = .next u ∧ Reacted s u s.env s.fee a
        ∧ (∀ d', d' ≠ d → a.drive d' = s.lib.drive d')
        ∧ ((s.lib.drive d).unload = false → a.drive d = { s.lib.drive d with failures := 0, lastUse := s.env.now, state := .ready })
        ∧ ((s.lib.drive d).unload = true → (u.lib.drive d).state = .spinDown ∧ ∃ os, u.lib.out = .spinDown d :: os)
        ∧ (u.lib.drive d).failures = 0 ∧ (u.lib.drive d).lastUse = s.env.now
        ∧ a.front = s.lib.front ∧ a.books = s.lib.books ∧ a.roles = s.lib.roles ∧ a.picker = s.lib.picker ∧ a.log = s.lib.log
        ∧ a.care = { s.lib.care with patrolDue := true })
  ∧ (∀ (s : State) (d : Drive), s.env.startUp = none → (s.lib.drive d).state = .spinDown →
      let a := s.begin.lib.driveStopped d
      ∃ u, exec (.stoppedReport d) s = .next u ∧ Reacted s u s.env s.fee a
        ∧ a.drive d = { s.lib.drive d with state := .stopped, failures := 0 } ∧ (∀ d', d' ≠ d → a.drive d' = s.lib.drive d')
        ∧ ((s.lib.drive d).unload = false → a.picker = s.lib.picker)
        ∧ (s.lib.picker.state = .faulted → a.picker = s.lib.picker)
        ∧ (∀ m, (s.lib.drive d).unload = true → s.lib.picker.state ≠ .faulted → s.lib.mountedSide d = some m →
          (∀ x ∈ s.lib.picker.moves, x.drive? ≠ some d) →
          a.picker.moves = s.lib.picker.moves ++ [.back (slotOf m) (some d) .unload])
        ∧ (u.lib.drive d).failures = 0
        ∧ a.front = s.lib.front ∧ a.books = s.lib.books ∧ a.roles = s.lib.roles ∧ a.care = s.lib.care ∧ a.log = s.lib.log)
  ∧ (∀ (s : State) (i : Slot) (f : Face) (d : Drive) (c : Instr), s.env.startUp = none → s.lib.picker.record = some (.load i f d) →
      ((c = .moveCompletion ∧ s.lib.picker.awaitCaddy = false ∧ (s.lib.picker.state = .moving ∨ s.lib.picker.state = .retry)
          ∧ s.lib.picker.expired ≠ some s.env.now)
        ∨ (c = .caddyReport d true ∧ s.lib.picker.awaitCaddy = true)) →
      let a := s.begin.lib.completeMove s.env (.load i f d)
      ∃ u os, exec c s = .next u ∧ Reacted s u s.env s.fee a
        ∧ a.picker.state = .idle ∧ a.picker.record = none ∧ a.picker.moves = s.lib.picker.moves
        ∧ u.lib.location i = .inDrive d f ∧ (∀ j, j ≠ i → u.lib.location j = s.lib.location j)
        ∧ (u.lib.drive d).state = .spinUp ∧ (u.lib.drive d).mountTime = s.env.now ∧ u.lib.out = .spinUp d :: os
        ∧ (∀ d', d' ≠ d → (s.lib.drive d').KeptTo (u.lib.drive d'))
        ∧ (∀ t x, s.lib.entry t = some x → ∃ y, u.lib.entry t = some y ∧ x.KeptTo y)
        ∧ (∀ b, (u.lib.book b).filing = (s.lib.book b).filing) ∧ (∀ r, s.lib.log.first = some r → u.lib.log.first = some r))
  ∧ (∀ (s : State) (i : Slot) (od : Option Drive) (q : ReturnReason), s.env.startUp = none → s.lib.picker.record = some (.back i od q) →
      s.lib.picker.awaitCaddy = false → (s.lib.picker.state = .moving ∨ s.lib.picker.state = .retry) →
      s.lib.picker.expired ≠ some s.env.now →
      let a := s.begin.lib.completeMove s.env (.back i od q)
      ∃ u, exec .moveCompletion s = .next u ∧ Reacted s u s.env s.fee a
        ∧ u.lib.location i = (if s.lib.seated i = true then .inSlot else .absent) ∧ (∀ j, j ≠ i → u.lib.location j = s.lib.location j)
        ∧ a.picker.state = .idle ∧ a.picker.record = none ∧ a.picker.moves = s.lib.picker.moves
        ∧ (∀ d, od = some d → (a.drive d).state = (if (s.lib.drive d).state = .failed then .failed else .empty)
          ∧ (a.drive d).unload = false ∧ ((s.lib.drive d).state = .failed → (u.lib.drive d).state = .failed))
        ∧ (s.lib.seated i = true → (∀ d, od ≠ some d → a.drive d = s.lib.drive d)
          ∧ a.roles = s.lib.roles ∧ a.care = s.lib.care ∧ a.log = s.lib.log)
        ∧ (s.lib.seated i = false → ∀ p, slotOf p = i → s.lib.role p = .blank → a.role p = .unlisted)
        ∧ a.front = s.lib.front ∧ a.books = s.lib.books)
  ∧ (∀ (e : Env) (l : Library) (m : Move) (rest : List Move) (n : Nat), e.hold = false → l.picker.state = .idle → l.picker.moves = m :: rest →
      let r := { l with picker := { l.picker with moves := rest } }
      let a := l.tryMoves e (n + 1)
      let holds := match m with
        | .load i f d => d.val < e.configured ∧ (l.drive d).state = .empty ∧ l.location i = .inSlot ∧ l.seated i = true
          ∧ l.available e (sideOf i f) = true
        | .back i (some d) _ => ((l.drive d).state = .stopped ∨ (l.drive d).state = .failed) ∧ l.seated i = false
        | .back i none _ => l.location i = .inPicker ∧ l.seated i = false
      (holds → a.picker = { r.picker with state := .moving, record := some m, limitStart := e.now, awaitCaddy := false }
        ∧ a.out = l.out ++ [.move m] ∧ a.log = l.log
        ∧ (∀ i f d, m = .load i f d → a.drive d = { l.drive d with state := .loading })
        ∧ (∀ i d q, m = .back i (some d) q → (l.drive d).state = .stopped → a.drive d = { l.drive d with state := .unloading })
        ∧ (∀ i d q, m = .back i (some d) q → (l.drive d).state = .failed → a.drive d = l.drive d))
      ∧ (¬ holds → a = (r.dropMove e m).tryMoves e n ∧ (r.dropMove e m).picker.locations = l.picker.locations
        ∧ (r.dropMove e m).out = l.out
        ∧ (∀ i f d, m = .load i f d → (r.dropMove e m).scheduler.decisionDue = true ∧ (r.dropMove e m).log = l.log)
        ∧ (∀ i d q, m = .back i (some d) q → ((l.drive d).state = .stopped ∨ (l.drive d).state = .failed) →
          ((r.dropMove e m).drive d).state = (l.drive d).state ∧ ((r.dropMove e m).drive d).askAgain = some q)
        ∧ (∀ i q, m = .back i none q → l.location i = .inPicker → (r.dropMove e m).picker.state = .faulted)
        ∧ (∀ i od q, m = .back i od q → (∀ d, od = some d → (l.drive d).state = .stopped ∨ (l.drive d).state = .failed) →
          (od = none → l.location i = .inPicker) → l.log.first = none → KindSet.has e.mask .pickerFault = false →
          (r.dropMove e m).log.first = some ⟨.pickerFault, none, none, none, od, some i, none, e.day⟩)))

/-- R110: a READY drive with no item in service and no patrol item on its side's list spins down 300 s after its last use. The model's choice: the event moves the time on to that moment without testing
it (log entry 3). -/
def Obligations.IdleDriveSpinsDown : Prop :=
  ∀ (s : State) (d : Drive), s.env.startUp = none → (s.lib.drive d).state = .ready → (s.lib.drive d).service = none →
    (∀ i, s.lib.mountedSide d = some i → ∀ x ∈ s.lib.items i, x.kind ≠ .patrol) →
    ∃ u os, exec (.idleSpinDown d) s = .next u
      ∧ Reacted s u { s.env with now := max s.env.now ((s.lib.drive d).lastUse + 300) } s.fee
          (({ s.lib with out := [.spinDown d] }).setDrive d
            { s.lib.drive d with state := .spinDown, limitStart := max s.env.now ((s.lib.drive d).lastUse + 300) })
      ∧ (u.lib.drive d).state = .spinDown ∧ u.lib.out = .spinDown d :: os

/-! ## The picker -/

/-- R59, R60, R63, R64, R70: the resolution of a window by the directory entry of its frame and its book's marks (Table 4-2).
R67: what a read left without a source turns to the twin side, when the book has one, the frame is below the twin mark and the side is available, and else to the held data.
R69, R71: the held data supplies every sector that is lacking; without it the window stops at the lowest of them, UNREADABLE where a side was read for it and SIDE_UNAVAILABLE else, and is the last of
its request.
R46, R48: a look-ahead window is opened when the free slots hold it, and leaves the waiting list. R47: a delivery window is opened when the free slots hold it; else look-ahead windows of other requests without a
read are displaced, the last opened first, while slots are missing; with some still missing it waits for displaced reads. A displaced window is UNOPENED again, keeps its stop, joins the waiting list, loses its item,
and leaves its slots with its read command.
R70: a window whose item waits on a side that has become unavailable withdraws it and turns, from the primary side to the twin side under R67's conditions and else to the held data, from the twin side to the held data. R61: a
PENDING window is resolved again when its frame is below the filing mark or not below the intake mark any more. R63, R67, R68: what a read outcome has left without a source turns in the same way, or stops the window,
UNREADABLE at the lowest such sector, when the frame has become LOST meanwhile. That the waiting window takes the free slots meanwhile, that a displaced window keeps its stop,
that a hold entry which is shorter than its frame supplies zeros, and that a window whose frame became LOST during a read that failed turns like any other when its side is unavailable, are the model's (log entries 21, 38, 36, 66). -/
def Obligations.WindowTurnsThroughCopies : Prop :=
  (∀ (e : Env) (l : Library) (t : Tag) (w : Window), (∃ v ∈ l.windows t, v.book = w.book ∧ v.frame = w.frame) →
    let blank := List.replicate w.size SectorState.empty
    (e.frame w.book w.frame = .void
        ∨ (e.frame w.book w.frame = .blank ∧ ¬ ((l.book w.book).filing ≤ w.frame ∧ w.frame < (l.book w.book).intake)) →
      w.stop = none → (l.resolve e t w).scheduler = l.scheduler
        ∧ ∃ v ∈ (l.resolve e t w).windows t, v = { w with
            resolved := v.resolved, state := .staged, sectors := List.replicate w.size .zero, item := none, onTwin := false, reading := false })
    ∧ (e.frame w.book w.frame = .blank → (l.book w.book).filing ≤ w.frame → w.frame < (l.book w.book).intake →
      (l.resolve e t w).scheduler = l.scheduler
        ∧ { w with resolved := .blank, state := .pending, sectors := blank, item := none, onTwin := false, reading := false }
          ∈ (l.resolve e t w).windows t)
    ∧ ((e.frame w.book w.frame).isLost = true → w.stop = none →
      ∃ v, ((l.resolve e t w).windows t).getLast? = some v ∧ v.book = w.book ∧ v.frame = w.frame ∧ v.state = .stopped ∧ v.item = none
        ∧ v.stop = some ⟨w.first, .unreadable⟩)
    ∧ (∀ n, (e.frame w.book w.frame).filed = true → (e.frame w.book w.frame).length = n → w.stop = none →
      (n ≤ w.first → (l.resolve e t w).scheduler = l.scheduler
        ∧ ∃ v ∈ (l.resolve e t w).windows t, v.book = w.book ∧ v.frame = w.frame ∧ v.state = .staged ∧ v.sectors = List.replicate w.size .zero)
      ∧ (∀ p, w.first < n → w.first ≤ w.last → (l.book w.book).primary = some p → l.available e p = true →
        listed (.fetch t w.book w.frame) ((l.resolve e t w).items p) = true
        ∧ ∃ v ∈ (l.resolve e t w).windows t, v.book = w.book ∧ v.frame = w.frame ∧ v.state = .sourcing ∧ v.item = some p ∧ v.onTwin = false
          ∧ v.missing = List.range' w.first (min (w.last + 1) n - w.first)
          ∧ ∀ i, n ≤ i → w.first ≤ i → i ≤ w.last → v.sector i = .zero)
      ∧ (∀ p, w.first < n → w.first ≤ w.last → (l.book w.book).primary = some p → l.available e p = false →
        l.resolve e t w = l.twinFallback e t { w.split n with resolved := e.frame w.book w.frame, item := none, onTwin := false, reading := false }))
    ∧ (w.missing ≠ [] → w.sectors.length = w.size →
      (∀ s, (l.book w.book).twin = some s → w.frame < (l.book w.book).twinMark → l.available e s = true →
        listed (.fetch t w.book w.frame) ((l.twinFallback e t w).items s) = true
        ∧ { w with item := some s, onTwin := true, reading := false, state := .sourcing } ∈ (l.twinFallback e t w).windows t)
      ∧ ((∀ s, (l.book w.book).twin = some s → (l.book w.book).twinMark ≤ w.frame ∨ l.available e s = false) →
        l.twinFallback e t w = l.holdFallback t w)
      ∧ (∀ h, l.held w.book w.frame = some h → w.stop = none →
        ∃ v ∈ (l.holdFallback t w).windows t, v.book = w.book ∧ v.frame = w.frame ∧ v.state = .staged ∧ v.item = none
          ∧ v.sectors.length = w.sectors.length
          ∧ ∀ (j : Nat) old, w.sectors[j]? = some old →
            (w.first + j ∈ w.missing → v.sectors[j]? = some { old with source := .hold, data := (h.data[w.first + j]?).getD Sector.zeros })
            ∧ (w.first + j ∉ w.missing → v.sectors[j]? = some old))
      ∧ (∀ i, l.held w.book w.frame = none → w.missing.head? = some i → w.stop = none →
        ∃ v, ((l.holdFallback t w).windows t).getLast? = some v ∧ v.book = w.book ∧ v.frame = w.frame ∧ v.state = .stopped ∧ v.item = none
          ∧ v.stop = some ⟨i, if (w.sector i).failed = true then .unreadable else .sideUnavailable⟩ ∧ v.sectors = w.sectors)))
  ∧ (∀ (e : Env) (l : Library) (t : Tag) (v : Window), l.lookAhead t = some v → v.isOpen = false →
      (l.stagingFree < v.size → l.openLookAhead e t = l)
      ∧ (v.size ≤ l.stagingFree → t ∉ (l.openLookAhead e t).buffer.lookWait
        ∧ ∃ w ∈ (l.openLookAhead e t).windows t, w.book = v.book ∧ w.frame = v.frame ∧ w.isOpen = true))
  ∧ (∀ (e : Env) (l : Library) (t : Tag) (w : Window),
      (w.size ≤ l.stagingFree → l.openDelivery e t w = l.openWindow e t w)
      ∧ (let m := Library.displaceIdle w.size t 16 l
        (w.size ≤ m.stagingFree → l.openDelivery e t w = m.openWindow e t w)
        ∧ (m.stagingFree < w.size → ∃ x ∈ (l.openDelivery e t w).buffer.deliveryWait, x.tag = t ∧ x.held = m.stagingFree)))
  ∧ (∀ (l : Library) (need : Nat) (t : Tag) (n : Nat),
      (need ≤ l.stagingFree → Library.displaceIdle need t (n + 1) l = l)
      ∧ (l.stagingFree < need →
        (∀ u v, l.lastLookAhead t false = some (u, v) →
          Library.displaceIdle need t (n + 1) l = Library.displaceIdle need t n (l.displace u v))
        ∧ (l.lastLookAhead t false = none → Library.displaceIdle need t (n + 1) l = l)))
  ∧ (∀ (l : Library) (t : Tag) (reading : Bool),
      let open_ (u : Tag) (v : Window) := u ≠ t ∧ l.lookAhead u = some v ∧ v.isOpen = true ∧ v.reading = reading
      (∀ u v, l.lastLookAhead t reading = some (u, v) → open_ u v ∧ ∀ u' v', open_ u' v' → v'.opened ≤ v.opened)
      ∧ (l.lastLookAhead t reading = none → ∀ u v, ¬ open_ u v))
  ∧ (∀ (l : Library) (u : Tag) (v : Window), l.lookAhead u = some v →
      let a := l.displace u v
      a.buffer.lookWait = l.buffer.lookWait ++ [u] ∧ v.close ∈ a.windows u ∧ v.close.isOpen = false ∧ v.close.stop = v.stop
        ∧ (∀ i, v.item = some i → listed (.fetch u v.book v.frame) (a.items i) = false)
        ∧ (∀ d x ss k, v.reading = true → (l.drive d).service = some x → x.command = .fetchRead u v.book v.frame ss true k →
          a.slotsKept d = v.size)
        ∧ (v.reading = false → a.drives = l.drives))
  ∧ (∀ (e : Env) (l : Library) (t : Tag) (w : Window) (ss : List Nat) (rs : List ReadResult),
      (∃ v ∈ l.windows t, v.book = w.book ∧ v.frame = w.frame) →
      let r := { w.receive ss rs with reading := false, item := none }
      let a := l.windowOutcome e t w ss rs
      ((e.frame w.book w.frame).isLost = false → (w.onTwin = false → a = l.twinFallback e t r) ∧ (w.onTwin = true → a = l.holdFallback t r))
      ∧ (r.missing = [] → r.stop = none → { r with state := .staged } ∈ a.windows t)
      ∧ ((e.frame w.book w.frame).isLost = true → ∀ i, r.missing.head? = some i → r.stop = none →
        ∃ v, (a.windows t).getLast? = some v ∧ v.book = w.book ∧ v.frame = w.frame ∧ v.state = .stopped ∧ v.item = none
          ∧ v.stop = some ⟨i, .unreadable⟩ ∧ v.sectors = r.sectors))
  ∧ (∀ (e : Env) (l : Library) (t : Tag),
      let stays (v : Window) : Prop := v.item = none ∨ v.reading = true ∨ ∃ q, v.item = some q ∧ l.available e q = true
      ((∀ v ∈ l.windows t, stays v) → l.turnWindows e t = l)
      ∧ ∀ w q, w ∈ l.windows t → w.item = some q → w.reading = false → l.available e q = false →
        ((l.windows t).map fun v => (v.book, v.frame)).Nodup → (∀ v ∈ l.windows t, v ≠ w → stays v) →
        let m := l.withdraw q (.fetch t w.book w.frame)
        listed (.fetch t w.book w.frame) (m.items q) = false
          ∧ l.turnWindows e t = if w.onTwin = true then m.holdFallback t w else m.twinFallback e t w)
  ∧ (∀ (e : Env) (l : Library) (t : Tag),
      let stays (v : Window) : Prop := v.state ≠ .pending ∨ ((l.book v.book).filing ≤ v.frame ∧ v.frame < (l.book v.book).intake)
      ((∀ v ∈ l.windows t, stays v) → l.resolvePending e t = l)
      ∧ ∀ w ∈ l.windows t, ¬ stays w → ((l.windows t).map fun v => (v.book, v.frame)).Nodup → (∀ v ∈ l.windows t, v ≠ w → stays v) →
        l.resolvePending e t = l.resolve e t w)

/-- R120: the first failure of a move, by its limit or by a fault report: the picker is in RETRY with the records unchanged; a LOAD asks the drive for its caddy report, and a RETURN
whose home slot reads vacant is sent again at once under a new limit; one whose home slot reads seated is complete without motion. A caddy report without the cartridge sends a LOAD again under a new limit.
R121: the second failure of a move: the picker is FAULTED with no move record, the cartridge is where the reports put it, the moves that the Mount Scheduler asked are dropped from the list, and PICKER_FAULT is
recorded in an empty log.
R114: a failure return that meets a fault report with the grip empty is over: the picker is IDLE, nothing is moved and nothing more is asked; that this is so of its retry too is the model's choice (log entry 50).
R122: a picker clear in FAULTED makes the picker IDLE, puts the RETURN of a held cartridge at the head of its list and calls for a decision; in any other state nothing changes; the write ends DONE.
The model's choices: a LOAD's retry waits for the caddy report as an event of its own (log entry 8); an expiry moves the time on to its deadline without testing it (log entry 3); a completion
at the time of an expiry is the late one of R119 and is discarded (log entry 48); PICKER_FAULT fills an empty record before the faults of the reactions (log entry 44); a LOAD whose second failure finds the cartridge
seated counts as a LOAD that completes for the patrol cursor (log entry 56); a clear in another state than FAULTED calls for no decision (log entry 55). -/
def Obligations.MoveFailuresFaultAndClear : Prop :=
  (∀ (s : State) (m : Move) (c : Instr) (grip caddy : Bool), s.env.startUp = none → s.lib.picker.record = some m →
      s.lib.picker.awaitCaddy = false →
      (c = .moveLimitExpiry grip caddy ∨ (c = .pickerFaultReport grip caddy ∧ ∀ i od, m = .back i od .failure → grip = true)) →
      let e : Env := if c = .moveLimitExpiry grip caddy then { s.env with now := max s.env.now (s.lib.picker.limitStart + 30) } else s.env
      let l := if c = .moveLimitExpiry grip caddy then
          { s.lib with out := [.pickerStop], picker := { s.lib.picker with expired := some e.now } }
        else s.begin.lib
      (s.lib.picker.state = .moving → (∀ i od q, m = .back i od q → s.lib.seated i = false) →
        let a := l.retryMove e m
        ∃ u, exec c s = .next u ∧ Reacted s u e s.fee a
          ∧ u.lib.picker.state = .retry ∧ u.lib.picker.record = some m ∧ u.lib.picker.locations = s.lib.picker.locations
          ∧ (∀ i f d, m = .load i f d → u.lib.picker.awaitCaddy = true ∧ Output.askCaddy d ∈ u.lib.out)
          ∧ (∀ i od q, m = .back i od q → u.lib.picker.awaitCaddy = false ∧ u.lib.picker.limitStart = e.now ∧ Output.move m ∈ u.lib.out)
          ∧ (c = .moveLimitExpiry grip caddy → Output.pickerStop ∈ u.lib.out)
          ∧ (∀ d, (s.lib.drive d).KeptTo (u.lib.drive d))
          ∧ (∀ t x, s.lib.entry t = some x → ∃ y, u.lib.entry t = some y ∧ x.KeptTo y))
      ∧ (s.lib.picker.state = .retry →
        let a := l.secondFailure e m grip caddy
        ∃ u, exec c s = .next u ∧ Reacted s u e s.fee a
          ∧ u.lib.picker.state = .faulted ∧ u.lib.picker.record = none
          ∧ a.picker.moves = s.lib.picker.moves.filter (fun x => !x.byScheduler) ∧ a.scheduler.decisionDue = true
          ∧ (∀ i f d, m = .load i f d →
            (grip = true → u.lib.location i = .inPicker ∧ (a.drive d).state = .empty)
            ∧ (grip = false → caddy = true → u.lib.location i = .inDrive d f ∧ (u.lib.drive d).state = .spinUp)
            ∧ (grip = false → caddy = false → u.lib.location i = s.lib.location i ∧ (a.drive d).state = .empty))
          ∧ (∀ i od q, m = .back i od q →
            (grip = true → u.lib.location i = .inPicker)
            ∧ (grip = false → s.lib.seated i = true → u.lib.location i = .inSlot)
            ∧ ((grip = true ∨ s.lib.seated i = true) → ∀ d, od = some d →
              (a.drive d).state = (if (s.lib.drive d).state = .failed then .failed else .empty))
            ∧ (grip = false → s.lib.seated i = false → u.lib.location i = s.lib.location i
              ∧ ∀ d, od = some d → (a.drive d).state = (if (s.lib.drive d).state = .failed then .failed else .stopped)))
          ∧ (∀ d, m.drive? ≠ some d → a.drive d = s.lib.drive d)
          ∧ (∀ j, j ≠ m.slot → u.lib.location j = s.lib.location j)
          ∧ (s.lib.log.first = none → KindSet.has s.env.mask .pickerFault = false →
            u.lib.log.first = some ⟨.pickerFault, none, none, none, m.drive?, some m.slot, none, s.env.day⟩)
          ∧ (∀ t x, s.lib.entry t = some x → ∃ y, u.lib.entry t = some y ∧ x.KeptTo y)))
  ∧ (∀ (s : State) (i : Slot) (od : Option Drive) (q : ReturnReason) (c : Instr) (grip caddy : Bool), s.env.startUp = none →
      s.lib.picker.record = some (.back i od q) → s.lib.picker.state = .moving → s.lib.picker.awaitCaddy = false → s.lib.seated i = true →
      (c = .moveLimitExpiry grip caddy ∨ (c = .pickerFaultReport grip caddy ∧ (q = .failure → grip = true))) →
      let e : Env := if c = .moveLimitExpiry grip caddy then { s.env with now := max s.env.now (s.lib.picker.limitStart + 30) } else s.env
      let l := if c = .moveLimitExpiry grip caddy then
          { s.lib with out := [.pickerStop], picker := { s.lib.picker with expired := some e.now } }
        else s.begin.lib
      let a := l.retryMove e (.back i od q)
      ∃ u, exec c s = .next u ∧ Reacted s u e s.fee a
        ∧ a.picker = { l.picker with state := .idle, record := none, locations := put s.lib.picker.locations i .inSlot }
        ∧ (∀ j, u.lib.location j = if j = i then .inSlot else s.lib.location j)
        ∧ (∀ d, od = some d → a.drive d = { s.lib.drive d with
            state := if (s.lib.drive d).state = .failed then .failed else .empty, unload := false, askAgain := none })
        ∧ (∀ d, od ≠ some d → a.drive d = s.lib.drive d)
        ∧ a = { s.lib with picker := a.picker, drives := a.drives, out := l.out })
  ∧ (∀ (s : State) (i : Slot) (f : Face) (d : Drive), s.env.startUp = none → s.lib.picker.record = some (.load i f d) →
      s.lib.picker.awaitCaddy = true →
      ∃ u, exec (.caddyReport d false) s = .next u
        ∧ Reacted s u s.env s.fee
            { s.lib with out := [.move (.load i f d)], picker := { s.lib.picker with limitStart := s.env.now, awaitCaddy := false } }
        ∧ (s.lib.picker.state = .retry → u.lib.picker.state = .retry ∧ u.lib.picker.record = some (.load i f d)
          ∧ u.lib.picker.limitStart = s.env.now))
  ∧ (∀ (s : State) (i : Slot) (od : Option Drive) (caddy : Bool), s.env.startUp = none →
      s.lib.picker.record = some (.back i od .failure) → s.lib.picker.awaitCaddy = false →
      (s.lib.picker.state = .moving ∨ s.lib.picker.state = .retry) →
      ∃ u, exec (.pickerFaultReport false caddy) s = .next u
        ∧ Reacted s u s.env s.fee { s.lib with out := [], picker := { s.lib.picker with state := .idle, record := none, awaitCaddy := false } }
        ∧ u.lib.picker.locations = s.lib.picker.locations ∧ (∀ d, (s.lib.drive d).KeptTo (u.lib.drive d)))
  ∧ (∀ s : State, s.env.startUp = none → s.lib.picker.expired = some s.env.now →
      exec .moveCompletion s = .next { s with lib := { s.lib with out := [], picker := { s.lib.picker with expired := none } } })
  ∧ (∀ (s : State) (tag : Tag) (x : Entry), AwaitsWrite s tag x .picker →
      let a := s.begin.lib.clearPicker
      ∃ u, exec (.pickerClear tag) s = .next u ∧ Reacted s u s.env s.fee (a.endRequest tag .done 1 0) ∧ RequestEnds u.lib tag x .done 1
        ∧ (s.lib.picker.state = .faulted → a.picker.state = .idle ∧ a.scheduler.decisionDue = true
          ∧ (∀ k, s.lib.heldSlot = some k → a.picker.moves.head? = some (.back k none .held))
          ∧ (∀ m ∈ s.lib.picker.moves, m ∈ a.picker.moves)
          ∧ (∀ d i, (s.lib.drive d).state = .stopped → (s.lib.drive d).unload = true → s.lib.mountedSide d = some i →
            ∃ m ∈ a.picker.moves, m.drive? = some d ∧ m.byScheduler = false))
        ∧ (s.lib.picker.state ≠ .faulted → a = s.begin.lib)
        ∧ a.picker.locations = s.lib.picker.locations ∧ a.books = s.lib.books ∧ a.roles = s.lib.roles ∧ a.drives = s.lib.drives
        ∧ a.care = s.lib.care ∧ a.log = s.lib.log)

/-! ## Presence -/

/-- R17, R176: a removal: the record is ABSENT, the cartridge's BLANK sides are UNLISTED, its sides leave the rescue queue, every other role is kept, CARTRIDGE_MISSING is recorded for a cartridge in use, and the
rescue whose source or target it holds stops with its batch discarded.
R18, R176: an insertion: the record is IN_SLOT; a cartridge with a side in use is the one that left and keeps its roles and health records, and a stopped rescue goes on when both its cartridges are present; one
whose sides are UNLISTED or RETIRED is new, UNLISTED with zero health records.
R19, R124: at a slot with a move under way, or whose cartridge stands in a drive or in the grip, a change moves no cartridge: the reading alone follows, and R118: a drive whose RETURN was dropped at that
seated slot asks it again when the slot reads vacant. An event that repeats the reading changes nothing.
That CARTRIDGE_MISSING fills an empty record though the search for a target may record NO_BLANK at the same event is the model's choice (log entry 44), and that the RETURN is asked again whatever the drive's state and
without its unload flag is the model's too (log entry 60). -/
def Obligations.PresenceFollowsLine : Prop :=
  (∀ (s : State) (i : Slot), s.env.startUp = none → s.lib.seated i = true → s.lib.location i = .inSlot → s.lib.moving i = false →
      let a := s.begin.lib.presence s.env i false
      ∃ u, exec (.presenceChange i false) s = .next u ∧ Reacted s u s.env s.fee a
        ∧ u.lib.location i = .absent ∧ u.lib.seated i = false
        ∧ (∀ j, j ≠ i → u.lib.location j = s.lib.location j ∧ u.lib.seated j = s.lib.seated j)
        ∧ (∀ q, slotOf q = i → s.lib.role q = .blank → a.role q = .unlisted)
        ∧ (∀ q, (slotOf q ≠ i ∨ s.lib.role q ≠ .blank) → a.role q = s.lib.role q)
        ∧ a.care.queue = s.lib.care.queue.filter (fun q => slotOf q != i) ∧ (∀ q ∈ u.lib.care.queue, slotOf q ≠ i)
        ∧ (∀ q, (s.lib.inUseSide i) = some q → s.lib.log.first = none → KindSet.has s.env.mask .cartridgeMissing = false →
          u.lib.log.first = some ⟨.cartridgeMissing, (s.lib.role q).book?, some q, none, none, some i, none, s.env.day⟩)
        ∧ (∀ r, s.lib.care.rescue = some r → (slotOf r.source = i ∨ r.target.map slotOf = some i) →
          a.care.rescue = some { r with stopped := true } ∧ a.care.batch = none
          ∧ ∀ j, ∀ x ∈ a.items j, x.kind ≠ .rescueRead ∧ x.kind ≠ .rescueWrite)
        ∧ ((∀ r, s.lib.care.rescue = some r → slotOf r.source ≠ i ∧ r.target.map slotOf ≠ some i) →
          a.care.rescue = s.lib.care.rescue ∧ a.care.batch = s.lib.care.batch)
        ∧ a.books = s.lib.books ∧ a.care.health = s.lib.care.health ∧ (∀ t, a.entry t = s.lib.entry t))
  ∧ (∀ (s : State) (i : Slot), s.env.startUp = none → s.lib.seated i = false → s.lib.location i = .absent → s.lib.moving i = false →
      let a := s.begin.lib.presence s.env i true
      ∃ u, exec (.presenceChange i true) s = .next u ∧ Reacted s u s.env s.fee a
        ∧ u.lib.location i = .inSlot ∧ u.lib.seated i = true
        ∧ (∀ j, j ≠ i → u.lib.location j = s.lib.location j ∧ u.lib.seated j = s.lib.seated j)
        ∧ ((∃ q, slotOf q = i ∧ (s.lib.role q).inUse = true) → a.roles = s.lib.roles ∧ a.care.health = s.lib.care.health
          ∧ (∀ r p, s.lib.care.rescue = some r → r.target = some p → r.stopped = true → (slotOf r.source = i ∨ slotOf p = i) →
            (slotOf r.source ≠ i → s.lib.location (slotOf r.source) ≠ .absent) → (slotOf p ≠ i → s.lib.location (slotOf p) ≠ .absent) →
            a.care.rescue = some { r with stopped := false })
          ∧ (∀ r p, s.lib.care.rescue = some r → r.target = some p →
            ((slotOf r.source ≠ i ∧ s.lib.location (slotOf r.source) = .absent) ∨ (slotOf p ≠ i ∧ s.lib.location (slotOf p) = .absent)) →
            a.care.rescue = some r))
        ∧ ((∀ q, slotOf q = i → s.lib.role q = .unlisted ∨ ∃ b, s.lib.role q = .retired b) →
          (∀ q, slotOf q = i → a.role q = .unlisted ∧ a.health q = .zero)
          ∧ ∀ q, slotOf q ≠ i → a.role q = s.lib.role q ∧ a.health q = s.lib.health q)
        ∧ a.books = s.lib.books ∧ a.log = s.lib.log ∧ (∀ t, a.entry t = s.lib.entry t))
  ∧ (∀ (s : State) (i : Slot) (b : Bool), s.lib.seated i = b → exec (.presenceChange i b) s = .next s.begin)
  ∧ (∀ (s : State) (i : Slot) (b : Bool), s.env.startUp = none → s.lib.seated i = !b →
      (s.lib.moving i = true ∨ s.lib.location i = .inPicker ∨ ∃ d f, s.lib.location i = .inDrive d f) →
      ∃ u a, exec (.presenceChange i b) s = .next u ∧ Reacted s u s.env s.fee a ∧ u.lib.seated i = b
        ∧ (∀ j, j ≠ i → u.lib.seated j = s.lib.seated j) ∧ u.lib.picker.locations = s.lib.picker.locations
        ∧ (b = true → a = s.begin.lib.setSeated i true)
        ∧ (∃ ms, a.picker.moves = s.lib.picker.moves ++ ms ∧ (b = true → ms = []) ∧ ∀ m ∈ ms, ∃ d q, m = .back i (some d) q
          ∧ (s.lib.drive d).askAgain = some q)
        ∧ (∀ d q p, b = false → (s.lib.drive d).askAgain = some q → s.lib.mountedSide d = some p → slotOf p = i →
          (∀ m ∈ s.lib.picker.moves, m.drive? = some d → m.byScheduler = true) → Move.back i (some d) q ∈ a.picker.moves)
        ∧ (∀ d, (s.lib.drive d).askAgain = none → a.drive d = s.lib.drive d)
        ∧ a.roles = s.lib.roles ∧ a.care = s.lib.care ∧ a.books = s.lib.books ∧ a.log = s.lib.log ∧ (∀ t, a.entry t = s.lib.entry t))

/-! ## Times -/

/-- R133: a drive that a candidate can be given: configured, not FAILED, not given before, and for a face-bound candidate its own drive. -/
def FreeDrive (e : Env) (l : Library) (given : List Drive) (i : Side) (d : Drive) : Prop :=
  d.val < e.configured ∧ (l.drive d).state ≠ .failed ∧ d ∉ given ∧ ∀ b, l.faceBound i = some b → d = b

/-- R133, step 1: an EMPTY drive with no move on the list or in progress, for a candidate that is not face-bound. -/
def EmptyDrive (l : Library) (i : Side) (d : Drive) : Prop :=
  l.faceBound i = none ∧ (l.drive d).state = .empty ∧ (∀ m ∈ l.picker.moves, m.drive? ≠ some d)
    ∧ ∀ m, l.picker.record = some m → m.drive? ≠ some d

/-- R133, step 2: a vacating drive. -/
def VacatingDrive (l : Library) (d : Drive) : Prop := (l.drive d).unload = true ∨ (l.drive d).state = .unloading

/-- R133, step 3: a drive whose mounted side has no demand. -/
def IdleDrive (l : Library) (d : Drive) : Prop :=
  ((l.drive d).state = .spinUp ∨ (l.drive d).state = .ready ∨ (l.drive d).state = .spinDown ∨ (l.drive d).state = .stopped)
    ∧ ∃ i, l.mountedSide d = some i ∧ l.hasDemand i = false

/-- R133, step 4: a drive whose mounted side ranks as `r` and has run out its dwell, for a candidate of strictly better priority. -/
def BusyDrive (e : Env) (l : Library) (c r : SideRank) (d : Drive) : Prop :=
  ((l.drive d).state = .spinUp ∨ (l.drive d).state = .ready ∨ (l.drive d).state = .active ∨ (l.drive d).state = .spinDown
      ∨ (l.drive d).state = .stopped)
    ∧ (l.drive d).mountTime + 20 ≤ e.now ∧ (∃ i, l.mountedSide d = some i ∧ l.rank e i = some r)
    ∧ (c.priority < r.priority ∨ (c.priority = 1 ∧ r.priority = 1 ∧ c.aged = true ∧ r.aged = false))

/-- R131, R128, R136: the dwell of a drive whose side has demand, an item's age limit and the patrol idle time each call for a decision at their time, and nothing else of the event's own changes. The model's
choice: the event moves the time on to its moment without testing it (log entry 3).
R131, R132: no decision is taken in HOLD or while the picker is FAULTED; one that is due is taken otherwise, and the candidates are then given their drives in side order, none given twice. (An ACTIVE drive that runs a
patrol verify is not idle: log entry 34.)
R131, R139, R20: what one event's changes call for: a decision, when an item other than a patrol item has joined the list of an unmounted side, by a placement, a return or the move of a rescue switch
(log entry 19: the model's reading, R131 names the first two), and no start-up return is under way (log entry 54: the model's reading), a mounted side
has lost its demand, a side has become available or unavailable, a drive FAILED, the picker IDLE with its list empty (log entry 61: also by the drop of a RETURN), or the patrol mount record has become absent, by the event or, R137, here, where its side has become unavailable.
R128, R129, R132: the candidates are the available sides with demand that are neither mounted nor in a move, in side order.
R133: the drive of a candidate: the lowest EMPTY one, else the lowest vacating one, else the least recently used idle one, else the one whose mounted side ranks last of those that the dwell and the priority
leave to it.
R134: with the picker free an EMPTY drive's LOAD is asked; a vacating drive is left alone; any other is chosen to unload. -/
def Obligations.TimedEventsAndDecisions : Prop :=
  (∀ (s : State) (c : Instr) (time : Nat), s.env.startUp = none →
    ((∃ d i, c = .dwellExpiry d ∧ s.lib.mountedSide d = some i ∧ s.lib.hasDemand i = true ∧ time = (s.lib.drive d).mountTime + 20)
      ∨ (∃ i p, c = .demandAgeLimit i p ∧ (∃ x ∈ s.lib.demand i, x.placed = p) ∧ time = p + 90)
      ∨ (c = .patrolIdleTime ∧ (∀ i, s.lib.hasDemand i = false) ∧ time = s.lib.scheduler.quiet + 180)) →
    ∃ u, exec c s = .next u
      ∧ Reacted s u { s.env with now := max s.env.now time } s.fee
          { s.lib with scheduler := { s.lib.scheduler with decisionDue := true }, out := [] }
      ∧ u.lib.picker.locations = s.lib.picker.locations ∧ (∀ d, (s.lib.drive d).KeptTo (u.lib.drive d)))
  ∧ (∀ (e : Env) (l : Library), e.hold = true ∨ l.picker.state = .faulted ∨ l.scheduler.decisionDue = false → l.decide e = l)
  ∧ (∀ (e : Env) (l was : Library),
      let a := l.registerEvents e was
      let free (m : Library) : Prop := m.picker.state = .idle ∧ m.picker.moves = []
      let returning : Prop := ∃ m, (m ∈ l.picker.moves ∨ l.picker.record = some m) ∧ m.atStartUp = true
      (a.scheduler.decisionDue = true ↔ l.scheduler.decisionDue = true
        ∨ (¬ returning ∧ ∃ q, l.mountedIn q = none ∧ ∃ i ∈ l.items q, i ∉ was.items q ∧ i.kind ≠ .patrol)
        ∨ (∃ q, was.mountedIn q ≠ none ∧ l.mountedIn q ≠ none ∧ was.hasDemand q = true ∧ l.hasDemand q = false)
        ∨ (∃ q, was.available e q ≠ l.available e q)
        ∨ (∃ d, (was.drive d).state ≠ .failed ∧ (l.drive d).state = .failed)
        ∨ (free l ∧ ¬ free was)
        ∨ ((was.scheduler.patrolMount ≠ none ∨ l.scheduler.patrolMount ≠ none) ∧ a.scheduler.patrolMount = none))
      ∧ a.scheduler.lists = l.scheduler.lists ∧ a.picker = l.picker ∧ a.drives = l.drives)
  ∧ (∀ (e : Env) (l : Library), l.scheduler.decisionDue = true → e.hold = false → l.picker.state ≠ .faulted →
      let l₀ := { l with scheduler := { l.scheduler with decisionDue := false } }
      ∃ gs : List (Option Gift), gs.length = (l.candidates e).length ∧ ((gs.filterMap id).map Gift.drive).Nodup
        ∧ (let found (k : Nat) : Library := (((l.candidates e).zip gs).take k).foldl (fun a p =>
            match p.2 with
            | some g => a.give e p.1.side g
            | none => a) l₀
          l.decide e = (found gs.length).considerPatrol e
            ∧ ∀ k c, (l.candidates e)[k]? = some c →
              gs[k]? = some ((found k).findDrive e (((gs.take k).filterMap id).map Gift.drive).reverse c)))
  ∧ (∀ (e : Env) (l : Library) (i : Side), (l.hasDemand i = false → l.rank e i = none)
      ∧ (l.hasDemand i = true → ∃ r, l.rank e i = some r ∧ r.side = i
        ∧ (∃ x ∈ l.demand i, x.priority e.now l.scheduler.escalation = r.priority) ∧ (∃ x ∈ l.demand i, x.placed = r.oldest)
        ∧ (∀ x ∈ l.demand i, r.priority ≤ x.priority e.now l.scheduler.escalation ∧ r.oldest ≤ x.placed)
        ∧ (r.aged = true ↔ ∃ x ∈ l.demand i, x.placed + 90 ≤ e.now)))
  ∧ (∀ (e : Env) (l : Library),
      (∀ c, c ∈ l.candidates e ↔ l.rank e c.side = some c ∧ l.available e c.side = true ∧ l.mountedIn c.side = none
        ∧ (∀ m ∈ l.picker.moves, m.slot ≠ slotOf c.side) ∧ ∀ m, l.picker.record = some m → m.slot ≠ slotOf c.side)
      ∧ (l.candidates e).Pairwise fun a b => keyBefore [a.priority, a.oldest, a.side.val] [b.priority, b.oldest, b.side.val] = true)
  ∧ (∀ (e : Env) (l : Library) (given : List Drive) (c : SideRank),
      let free := FreeDrive e l given c.side
      (∀ d, l.findDrive e given c = some (.empty d) ↔ free d ∧ EmptyDrive l c.side d ∧ ∀ d', d' < d → free d' → ¬ EmptyDrive l c.side d')
      ∧ ((∀ d, free d → ¬ EmptyDrive l c.side d) →
        (∀ d, l.findDrive e given c = some (.vacating d) ↔ free d ∧ VacatingDrive l d ∧ ∀ d', d' < d → free d' → ¬ VacatingDrive l d')
        ∧ ((∀ d, free d → ¬ VacatingDrive l d) →
          (∀ d, l.findDrive e given c = some (.idle d) ↔ free d ∧ IdleDrive l d ∧ ∀ d', free d' → IdleDrive l d' →
            (l.drive d).lastUse < (l.drive d').lastUse ∨ ((l.drive d).lastUse = (l.drive d').lastUse ∧ d ≤ d'))
          ∧ ((∀ d, free d → ¬ IdleDrive l d) →
            (∀ d, l.findDrive e given c = some (.busy d) → free d ∧ ∃ r, BusyDrive e l c r d
              ∧ ∀ d' r', free d' → BusyDrive e l c r' d' → r.before r' = false)
            ∧ ((∀ d r, free d → ¬ BusyDrive e l c r d) ↔ l.findDrive e given c = none)))))
  ∧ (∀ (e : Env) (l : Library) (i : Side) (d : Drive),
      (l.give e i (.empty d)).picker.moves = l.picker.moves ++
          (if l.picker.state = .idle ∧ l.picker.moves = [] then [.load (slotOf i) (faceOf i) d] else [])
      ∧ l.give e i (.vacating d) = l
      ∧ ∀ g, g = .idle d ∨ g = .busy d → ((l.give e i g).drive d).unload = true
        ∧ (∀ d', d' ≠ d → (l.give e i g).drive d' = l.drive d')
        ∧ ((l.drive d).state = .ready → ((l.give e i g).drive d).state = .spinDown)
        ∧ ((l.drive d).state ≠ .ready → ((l.give e i g).drive d).state = (l.drive d).state)
        ∧ ((l.drive d).state ≠ .stopped → (l.give e i g).picker = l.picker)
        ∧ (∀ j, l.mountedSide d = some j → l.scheduler.patrolMount = some j → (l.give e i g).scheduler.patrolMount = none))

/-- R149, R150: a station's order timer that expires closes its order and empties its recent-page list; no other station's order, no tally and no block changes. The model's choice: the event moves the time on
to the order's deadline without testing it (log entry 3). -/
def Obligations.OrderTimerClosesOrder : Prop :=
  ∀ (s : State) (k : Station) (o : Order), s.env.startUp = none → look s.fee.orders k = some o →
    ∃ u, exec (.orderTimerExpiry k) s = .next u ∧ u.pending = s.pending ∧ u.lib = { s.lib with out := [] }
      ∧ u.env = { s.env with now := max s.env.now (o.lastCharge + s.fee.schedule.timeout * 60) }
      ∧ look u.fee.orders k = none ∧ look u.fee.recent k = []
      ∧ (∀ j, j ≠ k → look u.fee.orders j = look s.fee.orders j ∧ look u.fee.recent j = look s.fee.recent j)
      ∧ u.fee.schedule = s.fee.schedule ∧ u.fee.tallies = s.fee.tallies ∧ u.fee.closedTallies = s.fee.closedTallies
      ∧ u.fee.closedDay = s.fee.closedDay

/-! ## Power and start-up -/

/-- R181, R152, R89, R149: the power warning with no sector in transfer: HOLD and its marker are set, every order closes, every FETCH and every service write that has not been applied ends POWER_HOLD, every
FILE that has not started its write ends POWER_HOLD, a FILE in WRITING goes on, and POWER_WARNING is recorded in an empty log.
R42, R181: with a sector of a FETCH in transfer, its burst, which is the one next on the link, is cut after that sector, at any place of the burst, also among the zero-filled sectors beyond a frame's length; its sectors count in
the sectors moved, and the FETCH then ends POWER_HOLD at the first sector not delivered, whatever stop lies there. R185: pages of the service book read as the event found them. R77, R78: a burst that makes no offer charges nothing.
R77, R152, R144 to R148: a burst that begins with sector 0 of a HEAD or CONT frame under a charge mode makes one offer. Taken after the assertion, which the sector in transfer allows while it is that sector 0, it is charged to a
new order, which closes at the same event; taken before, it is charged to the station's order as it stands, and the warning then closes that order. Its page total joins the request's amount, and every order is closed.
The model's choices: the operand gives the place and the order of the two, and names no sector in transfer where a FILE's burst is on the link or no burst is next (R28) and where the burst has not that many sectors ready (log entry 7), and a pull whose FILE's burst
has not begun leaves the link free for it (log entry 68); a FETCH whose last sector was in transfer ends DONE (log entry 30); POWER_WARNING fills an empty record before any other fault of the event, but for the TALLY_SATURATED of
an offer taken before the assertion (log entry 44).
R182: the withdrawal of the power warning ends HOLD and clears the hold marker, and it is an event that calls for a decision and for an examination of the patrol cursor. -/
def Obligations.HoldBeginsAndEnds : Prop :=
  (∀ s : State, s.env.startUp = none → s.env.hold = false →
      ∃ u, exec (.powerWarning none) s = .next u ∧ u.pending = s.pending ∧ u.env = { s.env with hold := true, holdMarker := true }
        ∧ (∀ k, look u.fee.orders k = none ∧ look u.fee.recent k = [])
        ∧ u.fee.tallies = s.fee.tallies ∧ u.fee.schedule = s.fee.schedule ∧ u.fee.closedTallies = s.fee.closedTallies
        ∧ (∀ t x, s.lib.entry t = some x → x.ended = none →
          ((∃ g, x.job = .fetch g) ∨ x.job = .servicePages ∨ ∃ p, x.job = .serviceWrite p) → RequestEnds u.lib t x .powerHold
            (match x.job with
              | .serviceWrite _ => 0
              | _ => x.moved))
        ∧ (∀ t x g, s.lib.entry t = some x → x.ended = none → x.job = .file g → g.phase ≠ .writing → RequestEnds u.lib t x .powerHold 0)
        ∧ (∀ t x g, s.lib.entry t = some x → x.ended = none → x.job = .file g → g.phase = .writing → u.lib.entry t = some x)
        ∧ (∀ b, (u.lib.book b).filing = (s.lib.book b).filing) ∧ u.lib.picker.locations = s.lib.picker.locations
        ∧ (s.lib.log.first = none → KindSet.has s.env.mask .powerWarning = false →
          u.lib.log.first = some ⟨.powerWarning, none, none, none, none, none, none, s.env.day⟩))
  ∧ (∀ (s : State) (i : InTransfer),
      s.lib.front.linkBurst ≠ none ∨ (∀ t, s.lib.front.ready.head? ≠ some (.burst t)) ∨ 64 ≤ i.sent
        ∨ (∃ t rest x, s.lib.front.ready = .burst t :: rest ∧ s.lib.entry t = some x
          ∧ ((∃ g w ws, x.job = .fetch g ∧ g.windows = w :: ws ∧ (w.run (sectorOf (x.record.addr.val + x.moved))).length ≤ i.sent)
            ∨ (x.job = .servicePages ∧ x.record.count.val ≤ x.moved + i.sent))) →
      exec (.powerWarning (some i)) s = exec (.powerWarning none) s)
  ∧ (∀ (s : State) (t : Tag) (rest : List LinkJob) (x : Entry) (g : Fetching) (w : Window) (ws : List Window) (i : InTransfer),
      s.env.startUp = none → s.env.hold = false → s.lib.front.linkBurst = none → s.lib.front.ready = .burst t :: rest → s.lib.entry t = some x →
      x.ended = none → x.job = .fetch g → g.windows = w :: ws → i.sent < 64 → i.sent < (w.run (sectorOf (x.record.addr.val + x.moved))).length →
      let xs := (w.run (sectorOf (x.record.addr.val + x.moved))).take (i.sent + 1)
      let outcome : Outcome := if x.moved + (i.sent + 1) = x.record.count.val then .done else .powerHold
      (x.record.mode = .none ∨ (x.record.addr.val + x.moved) % 64 ≠ 0 ∨ (∀ c k, w.resolved ≠ .head c k ∧ w.resolved ≠ .cont c k) →
        ∃ u os, exec (.powerWarning (some i)) s = .next u ∧ u.pending = s.pending
          ∧ u.env = { s.env with hold := true, holdMarker := true }
          ∧ u.lib.out = .burst t (x.record.addr.val + x.moved) (xs.map SectorState.data) :: os
          ∧ RequestEnds u.lib t (x.delivered xs) outcome (x.moved + (i.sent + 1))
          ∧ (∀ k, look u.fee.orders k = none ∧ look u.fee.recent k = []) ∧ u.fee.tallies = s.fee.tallies
          ∧ u.fee.schedule = s.fee.schedule ∧ u.fee.closedTallies = s.fee.closedTallies ∧ u.fee.closedDay = s.fee.closedDay)
      ∧ (∀ (m k : Bool) (cls : FeeClass) (len h : Nat) (hc : FeeClass), x.record.tag = t → (x.record.addr.val + x.moved) % 64 = 0 →
        (x.record.mode = .copy ∧ m = false ∨ x.record.mode = .certified ∧ m = true) →
        (w.resolved = .head cls len ∧ k = true ∨ w.resolved = .cont cls len ∧ k = false) →
        HeadBelow (fun n => (s.env.frame w.book n).mark) (w.frame + 1) h hc →
        let o : Offer := ⟨t, x.record.station, m, w.book, w.frame, cls, h, k⟩
        let isEarly : Prop := i.offerFirst = true ∨ 0 < i.sent
        let before := s.fee.take s.env.now false o
        let later := s.fee.closeAll.take s.env.now true o
        let charged : Entry → Charge → Entry := fun y c =>
          if c.charged = true then { y with amount := min 4294967295 (y.amount + c.total), notes := { y.notes with charged := true } } else y
        ∃ u os, exec (.powerWarning (some i)) s = .next u ∧ u.pending = s.pending
          ∧ u.env = { s.env with hold := true, holdMarker := true }
          ∧ u.lib.out = .burst t (x.record.addr.val + x.moved) (xs.map SectorState.data) :: os
          ∧ (isEarly → u.fee = before.1.closeAll ∧ RequestEnds u.lib t (charged (x.delivered xs) before.2) outcome (x.moved + (i.sent + 1)))
          ∧ (¬ isEarly → u.fee = later.1 ∧ later.2.charged = true ∧ RequestEnds u.lib t (charged (x.delivered xs) later.2) outcome (x.moved + (i.sent + 1)))
          ∧ (∀ k, look u.fee.orders k = none ∧ look u.fee.recent k = [])
          ∧ (s.fee.tallies.saturated = false → u.fee.tallies.saturated = true → KindSet.has s.env.mask .tallySaturated = false →
            (s.lib.log.first ≠ none → KindSet.has u.lib.log.later .tallySaturated = true)
            ∧ (s.lib.log.first = none → isEarly →
              u.lib.log.first = some ⟨.tallySaturated, some w.book, none, some w.frame, none, none, some t, s.env.day⟩))
          ∧ (s.lib.log.first = none → KindSet.has s.env.mask .powerWarning = false → ¬ isEarly →
            u.lib.log.first = some ⟨.powerWarning, none, none, none, none, none, none, s.env.day⟩)))
  ∧ (∀ (s : State) (t : Tag) (rest : List LinkJob) (x : Entry) (i : InTransfer),
      s.env.startUp = none → s.env.hold = false → s.lib.front.linkBurst = none → s.lib.front.ready = .burst t :: rest → s.lib.entry t = some x →
      x.ended = none → x.job = .servicePages → i.sent < 64 → x.moved + i.sent < x.record.count.val →
      ∃ u os, exec (.powerWarning (some i)) s = .next u ∧ u.pending = s.pending
        ∧ u.env = { s.env with hold := true, holdMarker := true }
        ∧ u.lib.out = .burst t (x.record.addr.val + x.moved)
            ((List.range (i.sent + 1)).map fun k => servicePage s.env s.fee s.begin.lib (serviceBlock (x.record.addr.val + x.moved + k))) :: os
        ∧ RequestEnds u.lib t x (if x.moved + (i.sent + 1) = x.record.count.val then .done else .powerHold) (x.moved + (i.sent + 1))
        ∧ (∀ k, look u.fee.orders k = none ∧ look u.fee.recent k = []) ∧ u.fee.tallies = s.fee.tallies)
  ∧ (∀ (s : State) (i : InTransfer), s.env.startUp = none → s.env.hold = false →
      ∃ u, exec (.powerWarning (some i)) s = .next u ∧ u.pending = s.pending ∧ u.env = { s.env with hold := true, holdMarker := true }
        ∧ ∀ k, look u.fee.orders k = none)
  ∧ (∀ s : State, s.env.startUp = none → s.env.hold = true →
      ∃ u, exec .holdEnd s = .next u
        ∧ Reacted s u { s.env with hold := false, holdMarker := false } s.fee
            { s.lib with
              scheduler := { s.lib.scheduler with decisionDue := true }, care := { s.lib.care with patrolDue := true }, out := [] }
        ∧ ∀ t x, s.lib.entry t = some x → ∃ y, u.lib.entry t = some y ∧ x.KeptTo y)

/-- R183: the state that steps 1 to 3 of a start-up that finds the format marker leave: every persistent record kept, every volatile one at its reset value, the presence readings taken afresh and the cause added. -/
def Restarted (s : State) (cause : ResetCause) (i : ResetInputs) : State where
  pending := s.pending
  env := { s.env with
    hold := false, configured := i.straps, holdMarker := false, startUp := none
    causes := ⟨s.env.causes.powerOn || cause == .powerOn, s.env.causes.resetLine || cause == .resetLine,
      s.env.causes.afterWarning || s.env.holdMarker⟩ }
  fee := { s.fee with orders := Vector.replicate 16 none, recent := Vector.replicate 16 [] }
  lib :=
    { front := Front.reset, books := s.lib.books, roles := s.lib.roles, buffer := Buffer.reset, twins := Vector.replicate 127 .none
      drives := Vector.replicate 4 (.empty s.env.now)
      picker :=
        { s.lib.picker with
          state := .idle, moves := [], presence := i.presence, limitStart := s.env.now, awaitCaddy := false, expired := none }
      scheduler := Scheduler.reset s.env.now
      care := { s.lib.care with
        cursor := none, lastCursor := none, batch := none, waiting := false, seekDue := true, patrolDue := true }
      log := s.lib.log, out := [] }

/-- R184: the state that a start-up leaves which a further reset breaks off after `n` of its first changes, with the marker found or before it is written: the persistent records stand, and the cause has joined the set once
two changes are taken. -/
def CutEarly (s : State) (cause : ResetCause) (i : ResetInputs) (n : Nat) (found : Bool) : State :=
  let r := Restarted s cause i
  { r with env := { r.env with
      formatMarker := found, startUp := some ⟨none, i.warning, some n⟩
      causes := if 2 ≤ n then r.env.causes else s.env.causes, holdMarker := if 2 ≤ n then false else s.env.holdMarker } }

/-- R184, R22: the same without the marker, once it has been written: every persistent record at its default, the cause of this reset alone from the second change on, and RECORD_MEMORY_BLANK at the third. -/
def CutBlank (s : State) (cause : ResetCause) (i : ResetInputs) (n : Nat) : State :=
  let r := Restarted s cause i
  { pending := s.pending
    env :=
      { now := s.env.now, day := 1, hold := false, configured := i.straps, directory := [], threshold := 200, mask := 0
        causes := ⟨decide (2 ≤ n) && cause == .powerOn, decide (2 ≤ n) && cause == .resetLine, false⟩, holdMarker := false
        formatMarker := true, startUp := some ⟨none, i.warning, some n⟩ }
    fee := Fee.blank
    lib :=
      { r.lib with
        books := Vector.replicate 127 .unassigned, roles := Vector.replicate 128 .unlisted
        picker := { r.lib.picker with record := none, locations := i.presence.map fun seated => if seated = true then .inSlot else .absent }
        care := { Care.blank with seekDue := true, patrolDue := true }
        log := ⟨if n = 3 then some ⟨.recordMemoryBlank, none, none, none, none, none, none, 1⟩ else none, 0, 0⟩ } }

/-- R22, R180, R183: a reset that finds no format marker gives every persistent record its default, writes the marker, records RECORD_MEMORY_BLANK, and enters HOLD when the warning line is
asserted.
R3, R22, R30, R45, R107, R140, R149, R153, R178, R180, R183: any other reset keeps every persistent record but for what start-up finds on the presence lines, empties every volatile one, and adds its
cause; with nothing changed on the lines, no rescue and no side queued, the roles and the sides of the books stay too.
R123: the cartridge of a move under way is recorded in the grip when the picker reports it there; else a RETURN's is in its slot when the slot reads seated.
R184: a further reset during start-up finds the changes taken that come before it, and no others; one that comes before the marker is written takes the defaults and records RECORD_MEMORY_BLANK again, and one between the
marker and the record of that fault does not.
The model's choices: the reset's operand `cut` says after how many changes the further reset comes (log entry 57), and the model's own fields take the values of log entry 35. -/
def Obligations.ResetRecords : Prop :=
  (∀ (s : State) (cause : ResetCause) (i : ResetInputs), i.cut = none → (s.env.formatMarker = false ∨ i.memoryKept = false) →
      ∃ u, exec (.reset cause i) s = .next u ∧ u.pending = s.pending
        ∧ u.env = { now := s.env.now, day := 1, hold := i.warning, configured := i.straps, directory := [], threshold := 200, mask := 0,
                    causes := ⟨cause == .powerOn, cause == .resetLine, false⟩, holdMarker := i.warning, formatMarker := true, startUp := none }
        ∧ u.fee = Fee.blank
        ∧ (∀ b, (u.lib.book b).state = .unassigned ∧ (u.lib.book b).primary = none ∧ (u.lib.book b).twin = none
          ∧ (u.lib.book b).filing = 0 ∧ (u.lib.book b).twinMark = 0)
        ∧ (∀ q, u.lib.role q = .unlisted)
        ∧ (∀ q, (u.lib.health q).corrected = 0 ∧ (u.lib.health q).uncorrectable = 0)
        ∧ (∀ k, u.lib.location k = if look i.presence k then .inSlot else .absent) ∧ u.lib.picker.presence = i.presence
        ∧ (∀ t, u.lib.entry t = none) ∧ u.lib.buffer.hold = [] ∧ u.lib.buffer.escalation = false
        ∧ u.lib.care.rescue = none ∧ u.lib.care.queue = []
        ∧ u.lib.log.first = some ⟨.recordMemoryBlank, none, none, none, none, none, none, 1⟩)
  ∧ (∀ (s : State) (cause : ResetCause) (i : ResetInputs), i.cut = none → s.env.formatMarker = true → i.memoryKept = true →
      s.lib.picker.record = none →
      exec (.reset cause i) s = .next ((Restarted s cause i).finishStart i.warning)
      ∧ ∃ u, exec (.reset cause i) s = .next u ∧ u.pending = s.pending
        ∧ u.env = { (Restarted s cause i).env with hold := i.warning, holdMarker := i.warning } ∧ u.fee = (Restarted s cause i).fee
        ∧ (∀ b, (u.lib.book b).state = (s.lib.book b).state ∧ (u.lib.book b).filing = (s.lib.book b).filing
          ∧ (s.lib.book b).twinMark ≤ (u.lib.book b).twinMark)
        ∧ (∀ t, u.lib.entry t = none) ∧ u.lib.buffer.hold = [] ∧ u.lib.buffer.escalation = false
        ∧ u.lib.picker.presence = i.presence
        ∧ (∀ d, (u.lib.drive d).corrected = 0 ∧ (u.lib.drive d).uncorrectable = 0 ∧ (u.lib.drive d).commandFailures = 0
          ∧ (u.lib.drive d).failures = 0 ∧ (u.lib.drive d).state ≠ .failed)
        ∧ (∀ d q, s.lib.mountedSide d = some q → (u.lib.drive d).lastUse = s.env.now ∧ (u.lib.drive d).mountTime = s.env.now)
        ∧ (∀ k, s.lib.location k = .inSlot → look i.presence k = false → u.lib.location k = .absent)
        ∧ (∀ k, s.lib.location k = .absent → look i.presence k = true → u.lib.location k = .inSlot)
        ∧ (∀ k, s.lib.location k = .inSlot → look i.presence k = true → u.lib.location k = .inSlot)
        ∧ (∀ k d f, s.lib.location k = .inDrive d f → u.lib.location k = .inDrive d f)
        ∧ ((∀ k, s.lib.location k = .inSlot → look i.presence k = true) → (∀ k, s.lib.location k = .absent → look i.presence k = false) →
          s.lib.care.rescue = none → s.lib.care.queue = [] →
          u.lib.roles = s.lib.roles ∧ u.lib.care.rescue = none ∧ u.lib.care.queue = []
            ∧ (∀ b, (u.lib.book b).primary = (s.lib.book b).primary ∧ (u.lib.book b).twin = (s.lib.book b).twin)
            ∧ ∀ q, s.lib.role q ≠ .blank → (u.lib.health q).corrected = (s.lib.health q).corrected
              ∧ (u.lib.health q).uncorrectable = (s.lib.health q).uncorrectable)
        ∧ (∀ r, s.lib.log.first = some r → u.lib.log.first = some r)
        ∧ (∀ k, KindSet.has s.lib.log.later k = true → KindSet.has u.lib.log.later k = true)
        ∧ (s.lib.log.laterCount ≤ 255 → s.lib.log.laterCount ≤ u.lib.log.laterCount ∧ u.lib.log.laterCount ≤ 255))
  ∧ (∀ (s : State) (cause : ResetCause) (i : ResetInputs) (m : Move), i.cut = none → s.env.formatMarker = true → i.memoryKept = true →
      s.lib.picker.record = some m → (i.grip = true ∨ ∃ k od q, m = .back k od q) →
      let r := Restarted s cause i
      exec (.reset cause i) s
          = .next (State.finishStart { r with lib := (r.lib.askReports m).settleRecord m i.grip false } i.warning)
      ∧ ∃ u os, exec (.reset cause i) s = .next u ∧ u.pending = s.pending ∧ u.fee = r.fee
        ∧ u.env = { r.env with hold := i.warning, holdMarker := i.warning }
        ∧ u.lib.out = .askFaultReport :: os ∧ (∀ d, m.drive? = some d → ∃ qs, os = .askCaddy d :: qs)
        ∧ (i.grip = true → u.lib.location m.slot = .inPicker)
        ∧ (i.grip = false → look i.presence m.slot = true → u.lib.location m.slot = .inSlot)
        ∧ (i.grip = false → look i.presence m.slot = false → ∀ d f, s.lib.location m.slot = .inDrive d f →
          u.lib.location m.slot = .inDrive d f)
        ∧ (∀ t, u.lib.entry t = none) ∧ (∀ b, (u.lib.book b).state = (s.lib.book b).state ∧ (u.lib.book b).filing = (s.lib.book b).filing))
  ∧ (∀ (s : State) (cause : ResetCause) (i : ResetInputs) (n : Nat), i.cut = some n → n ≤ 3 →
      let found := s.env.formatMarker && i.memoryKept
      ∃ u, exec (.reset cause i) s = .next u ∧ u.attn = (decide (1 ≤ n) && u.lib.log.first.isSome)
        ∧ (found = true ∨ n = 0 → u = CutEarly s cause i n found) ∧ (found = false → 1 ≤ n → u = CutBlank s cause i n))
  ∧ (∀ (s : State) (cause : ResetCause) (i : ResetInputs) (n : Nat), i.cut = some n → 4 ≤ n → s.env.formatMarker = true → i.memoryKept = true →
      let r := Restarted s cause i
      let goesOn (v : State) : Prop :=
        ∃ u, exec (.reset cause i) s = .next u ∧ u = (v.resume.take ((lastChanges i.warning).take (n - 4))).awaitReset i.warning n
          ∧ u.pending = s.pending ∧ u.env.startUp = some ⟨none, i.warning, some n⟩ ∧ u.env.directory = s.env.directory
          ∧ (∀ b, (u.lib.book b).state = (s.lib.book b).state ∧ (u.lib.book b).filing = (s.lib.book b).filing)
          ∧ (∀ q, s.lib.log.first = some q → u.lib.log.first = some q) ∧ ∀ t, u.lib.entry t = none
      (s.lib.picker.record = none → goesOn r)
      ∧ ∀ m, s.lib.picker.record = some m → (i.grip = true ∨ ∃ k od q, m = .back k od q) →
        goesOn { r with lib := (r.lib.askReports m).settleRecord m i.grip false })
  ∧ (∀ (s : State) (warning : Bool), let t := s.resume.take (lastChanges warning)
      s.finishStart warning = { t with lib := t.lib.settle t.env t.lib })
  ∧ (∀ (s : State) (cause cause' : ResetCause) (i j : ResetInputs) (n : Nat), i.cut = some n → n ≤ 3 →
      (s.env.formatMarker = false ∨ i.memoryKept = false) → j.cut = none → j.memoryKept = true → j.warning = false →
      ∃ u t, exec (.reset cause i) s = .next u ∧ exec (.reset cause' j) u = .next t
        ∧ t.env.causes = (if n ≤ 1 then ⟨cause' == .powerOn, cause' == .resetLine, false⟩
            else ⟨cause == .powerOn || cause' == .powerOn, cause == .resetLine || cause' == .resetLine, false⟩)
        ∧ t.lib.log.first = if n = 1 ∨ n = 2 then none else some ⟨.recordMemoryBlank, none, none, none, none, none, none, 1⟩)

/-- R123, R183: a reset that finds a LOAD under way and an empty grip waits for the drive's caddy report, and start-up goes on with it. The model's choice (log entry 11): every other command that arrives meanwhile is no
event, the caddy report of another drive among them, but for a presence line, whose reading alone is followed, the power warning line, which is read when start-up reaches it, and a reset; the rest of start-up is one event, or
the changes of it that come before a further reset (R184; log entry 57). A start-up that a further reset is to break off awaits that reset in the same way.
With the cartridge seated in the drive the move is taken as completed; with an empty caddy the location is left at the source. Either way every other record is as it was, compared with its fresh reading (R19): an IN_SLOT record at a vacant
slot is ABSENT, an ABSENT one at a seated slot IN_SLOT. -/
def Obligations.StartUpWaitsForCaddy : Prop :=
  (∀ (s : State) (cause : ResetCause) (i : ResetInputs) (k : Slot) (f : Face) (d : Drive), s.env.formatMarker = true →
    i.memoryKept = true → s.lib.picker.record = some (.load k f d) → i.grip = false → d.val < i.straps → (∀ n, i.cut = some n → 4 ≤ n) →
    ∃ u, exec (.reset cause i) s = .next u ∧ u.env.startUp = some ⟨some d, i.warning, i.cut⟩ ∧ u.lib.out = [.askFaultReport, .askCaddy d]
      ∧ (i.cut = none →
        (∃ w, exec (.caddyReport d true) u = .next w ∧ w.env.startUp = none ∧ w.lib.location k = .inDrive d f
          ∧ (w.lib.drive d).lastUse = s.env.now ∧ w.env.hold = i.warning)
        ∧ ∀ b, ∃ w, exec (.caddyReport d b) u = .next w
          ∧ w = State.finishStart { u.begin with lib := u.begin.lib.settleRecord (.load k f d) false b } i.warning
          ∧ w.pending = s.pending ∧ w.env = { u.env with startUp := none, hold := i.warning, holdMarker := i.warning } ∧ w.fee = u.fee
          ∧ (∀ j, (b = false ∨ j ≠ k) → w.lib.location j = match s.lib.location j with
            | .inSlot => if look i.presence j = true then .inSlot else .absent
            | .absent => if look i.presence j = true then .inSlot else .absent
            | x => x)
          ∧ (∀ c, (w.lib.book c).state = (s.lib.book c).state ∧ (w.lib.book c).filing = (s.lib.book c).filing) ∧ ∀ t, w.lib.entry t = none)
      ∧ ∀ n b, i.cut = some n → exec (.caddyReport d b) u
          = .next ((State.take (State.resume { u.begin with lib := u.begin.lib.settleRecord (.load k f d) false b })
              ((lastChanges i.warning).take (n - 4))).awaitReset i.warning n))
  ∧ (∀ (u : State) (od : Option Drive) (warning : Bool) (cut : Option Nat), u.env.startUp = some ⟨od, warning, cut⟩ →
      (∀ c : Instr, (∀ d b, od = some d → c ≠ .caddyReport d b) → (∀ j b, c ≠ .presenceChange j b) → (∀ i, c ≠ .powerWarning i) → c ≠ .holdEnd →
        (∀ q j, c ≠ .reset q j) → exec c u = .next u.begin)
      ∧ (∀ j b, ∃ w, exec (.presenceChange j b) u = .next w ∧ w = { u.begin with lib := w.lib } ∧ w.lib.seated j = b
        ∧ w.lib.picker.locations = u.lib.picker.locations)
      ∧ (∀ i, ∃ w, exec (.powerWarning i) u = .next w ∧ w = { u.begin with env := w.env }
        ∧ w.env = { u.env with startUp := some ⟨od, true, cut⟩ })
      ∧ (∃ w, exec .holdEnd u = .next w ∧ w = { u.begin with env := w.env } ∧ w.env = { u.env with startUp := some ⟨od, false, cut⟩ }))

/-! ## Service writes -/

/-- R151: a write to a station's order block closes that station's order, if one is open, and ends DONE. -/
def Obligations.OrderBlockWriteClosesOrder : Prop :=
  ∀ (s : State) (tag : Tag) (x : Entry) (k : Station), AwaitsWrite s tag x (.order k) →
    ∃ u, exec (.orderClose tag) s = .next u ∧ WriteEnds s u tag x .done 1 ∧ u.env = s.env ∧ SameBlocks s.lib u.lib
      ∧ u.fee = { s.fee with orders := put s.fee.orders k none, recent := put s.fee.recent k [] }

/-- R179, R190: the commands of the fault block: clear faults empties the record, the later set and the count and withdraws ATTN; set mask replaces the mask; clear causes empties the reset-cause set;
each leaves the rest and ends DONE.
R166, R190: the rescue threshold is set by a keyed write; 0 is taken as 1. -/
def Obligations.FaultAndThresholdWrites : Prop :=
  (∀ (s : State) (tag : Tag) (x : Entry), AwaitsWrite s tag x .fault →
      (∃ u, exec (.clearFaults tag) s = .next u ∧ WriteEnds s u tag x .done 1 ∧ u.env = s.env ∧ u.fee = s.fee
        ∧ u.lib.log.first = none ∧ (∀ k, KindSet.has u.lib.log.later k = false) ∧ u.lib.log.laterCount = 0 ∧ u.lib.attn = false
        ∧ SameBlocks { s.lib with log := u.lib.log } u.lib)
      ∧ (∀ m : BitVec 16, ∃ u, exec (.setMask tag m) s = .next u ∧ WriteEnds s u tag x .done 1 ∧ u.env = { s.env with mask := u.env.mask }
        ∧ (∀ k, KindSet.has u.env.mask k = m.getLsbD (k.code - 1)) ∧ u.fee = s.fee ∧ SameBlocks s.lib u.lib)
      ∧ ∃ u, exec (.clearCauses tag) s = .next u ∧ WriteEnds s u tag x .done 1
        ∧ u.env = { s.env with causes := ⟨false, false, false⟩ } ∧ u.fee = s.fee ∧ SameBlocks s.lib u.lib)
  ∧ (∀ (s : State) (tag : Tag) (x : Entry) (v : Nat), AwaitsWrite s tag x .rescue →
      ∃ u, exec (.thresholdWrite tag .opened v) s = .next u ∧ WriteEnds s u tag x .done 1
        ∧ u.env = { s.env with threshold := if v = 0 then 1 else v } ∧ u.fee = s.fee ∧ SameBlocks s.lib u.lib)

/-- R141, R150: a schedule write with the key open: every value is clamped into its range; an open order whose expiry under the new timeout is past closes; any other keeps its class and its count, with its amount brought down to a new cap.
The model's choice: an order whose expiry is exactly the time of the write stays open (log entry 29). -/
def Obligations.ScheduleWriteReplacesSchedule : Prop :=
  ∀ (s : State) (tag : Tag) (x : Entry) (v : ScheduleData), AwaitsWrite s tag x .schedule →
    ∃ u, exec (.scheduleWrite tag .opened v) s = .next u ∧ WriteEnds s u tag x .done 1 ∧ u.env = s.env ∧ SameBlocks s.lib u.lib
      ∧ (∀ c, look u.fee.schedule.lines c
          = ⟨min (look v.lines c).fee 9999, min (look v.lines c).threshold 255, min (look v.lines c).rate 100, min (look v.lines c).cap 999999⟩)
      ∧ u.fee.schedule.surcharge = min v.surcharge 99999 ∧ u.fee.schedule.timeout = max 1 (min v.timeout 60)
      ∧ u.fee.tallies = s.fee.tallies ∧ u.fee.closedTallies = s.fee.closedTallies ∧ u.fee.closedDay = s.fee.closedDay
      ∧ ∀ k,
        (look s.fee.orders k = none → look u.fee.orders k = none ∧ look u.fee.recent k = look s.fee.recent k)
        ∧ ∀ o, look s.fee.orders k = some o →
          (o.lastCharge + max 1 (min v.timeout 60) * 60 < s.env.now → look u.fee.orders k = none ∧ look u.fee.recent k = [])
          ∧ (s.env.now ≤ o.lastCharge + max 1 (min v.timeout 60) * 60 →
            look u.fee.orders k = some { o with
              amount := if min (look v.lines o.cls).cap 999999 = 0 then o.amount else min o.amount (min (look v.lines o.cls).cap 999999) }
            ∧ look u.fee.recent k = look s.fee.recent k)

/-- R158, R157, R149: a day close whose number is the current day's closes every order, copies the tallies aside, clears them and raises the day number, which wraps from 65535 to 1; any other number is refused with DAY_MISMATCH and changes
nothing. The reactions then run in the model's order, the patrol examination of R163 among them (log entry 23). -/
def Obligations.DayCloseMovesDayOn : Prop :=
  ∀ (s : State) (tag : Tag) (x : Entry) (day : Nat), AwaitsWrite s tag x .day →
    (day = s.env.day → ∃ u, exec (.dayClose tag day) s = .next u
      ∧ Reacted s u { s.env with day := if s.env.day = 65535 then 1 else s.env.day + 1 } u.fee
          (({ s.lib with care := { s.lib.care with patrolDue := true }, out := [] }).endRequest tag .done 1 0)
      ∧ RequestEnds u.lib tag x .done 1
      ∧ (∀ k, look u.fee.orders k = none ∧ look u.fee.recent k = []) ∧ u.fee.schedule = s.fee.schedule
      ∧ u.fee.closedTallies = s.fee.tallies ∧ u.fee.closedDay = s.env.day ∧ u.fee.tallies = Tallies.zero)
    ∧ (day ≠ s.env.day → ∃ u, exec (.dayClose tag day) s = .next u ∧ WriteEnds s u tag x .dayMismatch 0 ∧ u.env = s.env ∧ u.fee = s.fee
      ∧ SameBlocks s.lib u.lib)

/-- R5: a close of a book: an OPEN book becomes CLOSED, a CLOSED one stays so, and an UNASSIGNED one is refused with TABLE_REFUSED. -/
def Obligations.CloseWriteClosesBook : Prop :=
  ∀ (s : State) (tag : Tag) (x : Entry) (b : Book), AwaitsWrite s tag x (.book b) →
    ((s.lib.book b).state = .opened → ∃ u, exec (.closeBook tag .opened) s = .next u ∧ WriteEnds s u tag x .done 1
      ∧ u.env = s.env ∧ u.fee = s.fee ∧ u.lib.book b = { s.lib.book b with state := .closed }
      ∧ (∀ c, c ≠ b → u.lib.book c = s.lib.book c) ∧ SameBlocks { s.lib with books := u.lib.books } u.lib)
    ∧ ((s.lib.book b).state = .closed → ∃ u, exec (.closeBook tag .opened) s = .next u ∧ WriteEnds s u tag x .done 1
      ∧ u.env = s.env ∧ u.fee = s.fee ∧ SameBlocks s.lib u.lib)
    ∧ ((s.lib.book b).state = .unassigned → ∃ u, exec (.closeBook tag .opened) s = .next u ∧ WriteEnds s u tag x .tableRefused 0
      ∧ u.env = s.env ∧ u.fee = s.fee ∧ SameBlocks s.lib u.lib)

/-- R15, R189: a pool addition whose sides are UNLISTED in cartridges that are not ABSENT, none named twice, makes them BLANK together; a removal whose sides are BLANK makes them UNLISTED; with one side that fails, the write is refused with
TABLE_REFUSED and no role changes; a count of 0 or above 128 is refused with BAD_REQUEST. -/
def Obligations.PoolWritesChangeRoles : Prop :=
  ∀ (s : State) (tag : Tag) (x : Entry) (sides : List Nat) (n : Nat), AwaitsWrite s tag x .pool →
    (1 ≤ n → n ≤ 128 → (sides.take n).Nodup → (∀ k ∈ sides.take n, ∃ h : k < 128, s.lib.role ⟨k, h⟩ = .unlisted ∧ s.lib.location (slotOf ⟨k, h⟩) ≠ .absent) →
      ∃ u a, exec (.poolAddition tag .opened n sides) s = .next u ∧ s.begin.lib.addToPool (sides.take n) = some a
        ∧ Reacted s u s.env s.fee (a.endRequest tag .done 1 0) ∧ RequestEnds u.lib tag x .done 1
        ∧ (∀ i : Side, a.role i = if i.val ∈ sides.take n then .blank else s.lib.role i)
        ∧ a.books = s.lib.books ∧ a.care = { s.lib.care with seekDue := true } ∧ a.picker = s.lib.picker ∧ a.log = s.lib.log)
    ∧ (1 ≤ n → n ≤ 128 → (sides.take n).Nodup → (∀ k ∈ sides.take n, ∃ h : k < 128, s.lib.role ⟨k, h⟩ = .blank) →
      ∃ u a, exec (.poolRemoval tag .opened n sides) s = .next u ∧ s.begin.lib.takeFromPool (sides.take n) = some a
        ∧ Reacted s u s.env s.fee (a.endRequest tag .done 1 0) ∧ RequestEnds u.lib tag x .done 1
        ∧ (∀ i : Side, a.role i = if i.val ∈ sides.take n then .unlisted else s.lib.role i)
        ∧ a.books = s.lib.books ∧ a.care = s.lib.care ∧ a.picker = s.lib.picker ∧ a.log = s.lib.log)
    ∧ (1 ≤ n → n ≤ 128 → (¬ (sides.take n).Nodup ∨ ∃ k ∈ sides.take n, ∀ h : k < 128,
        s.lib.role ⟨k, h⟩ ≠ .unlisted ∨ s.lib.location (slotOf ⟨k, h⟩) = .absent) →
      ∃ u, exec (.poolAddition tag .opened n sides) s = .next u ∧ WriteEnds s u tag x .tableRefused 0 ∧ u.env = s.env ∧ u.fee = s.fee
        ∧ SameBlocks s.lib u.lib)
    ∧ (1 ≤ n → n ≤ 128 → (¬ (sides.take n).Nodup ∨ ∃ k ∈ sides.take n, ∀ h : k < 128, s.lib.role ⟨k, h⟩ ≠ .blank) →
      ∃ u, exec (.poolRemoval tag .opened n sides) s = .next u ∧ WriteEnds s u tag x .tableRefused 0 ∧ u.env = s.env ∧ u.fee = s.fee
        ∧ SameBlocks s.lib u.lib)
    ∧ (n = 0 ∨ 128 < n → ∀ c, c = .poolAddition tag .opened n sides ∨ c = .poolRemoval tag .opened n sides →
      ∃ u, exec c s = .next u ∧ WriteEnds s u tag x .badRequest 0 ∧ u.env = s.env ∧ u.fee = s.fee ∧ SameBlocks s.lib u.lib)

/-- R168: the first queued side for which a target is found begins its rescue; a target is the first side of the blank pool in another cartridge than the source's and the other side's.
R169: with no target for any queued side the rescue waits, and NO_BLANK is recorded once, with the first of them.
R170, R171: a batch covers up to 8 frames from the copy mark, and each filed frame of it goes to its first open copy: an available side, else the hold entry, else the first side that it has not failed on; with none
of these it is LOST.
R173: a complete batch raises the copy mark and its items leave the lists; the items of any other batch stand where its frames wait and are to be written.
R175, R73: with the copy mark at the chased mark and no write to the source in progress the switch is taken: the target has the source's role and place in the book table, the source is RETIRED, and the book's FETCH, FILE and
twin items are on the target's list, with their placement times kept, and its windows wait there. R102, R52: the Twin Writer examines the books whose sides an event has switched, in ascending book number, after the last switch.
R176: nothing goes on while the rescue is stopped.
R174: a record without a target takes the first that the pool gives it, and waits without one, NO_BLANK being recorded once with its source and book.
The model's choices: a switch of the primary clears the book's failed frame whatever the state of its twin writing (log entry 16), a record without a target takes one though it is stopped as well (log entry 63), and a hold entry
that is shorter than its frame supplies zeros (log entry 36). -/
def Obligations.RescueCourse : Prop :=
  (∀ (l : Library) (b : Book) (q p : Side), l.findTarget b q = some p ↔ l.role p = .blank ∧ slotOf p ≠ slotOf q
      ∧ (∀ o, l.otherSide b q = some o → slotOf p ≠ slotOf o)
      ∧ ∀ p', p' < p → l.role p' = .blank → slotOf p' = slotOf q ∨ ∃ o, l.otherSide b q = some o ∧ slotOf p' = slotOf o)
  ∧ (∀ (e : Env) (l : Library) (xs ys : List Side) (q : Side) (b : Book) (p : Side), l.care.rescue = none → l.care.queue = xs ++ q :: ys →
      (∀ x ∈ xs, ∀ c, (l.role x).holds = some c → l.findTarget c x = none) → (l.role q).holds = some b → l.findTarget b q = some p →
      let a := l.seekRescue e
      a.care.rescue = some ⟨q, l.role q == .twin b, b, some p, 0, false⟩ ∧ a.care.queue = l.care.queue.filter (fun x => x != q)
        ∧ a.care.waiting = false ∧ a.role p = .rescueTarget b ∧ (∀ i, i ≠ p → a.role i = l.role i)
        ∧ a.health p = .zero ∧ (∀ i, i ≠ p → a.health i = l.health i) ∧ a.books = l.books ∧ a.log = l.log)
  ∧ (∀ (e : Env) (l : Library) (q : Side) (qs : List Side), l.care.rescue = none → l.care.queue = q :: qs →
      (∀ x ∈ l.care.queue, ∀ c, (l.role x).holds = some c → l.findTarget c x = none) →
      let a := l.seekRescue e
      a.care.rescue = none ∧ a.care.queue = l.care.queue ∧ a.care.waiting = true ∧ a.roles = l.roles
        ∧ (l.care.waiting = true → a.log = l.log)
        ∧ (l.care.waiting = false → l.log.first = none → KindSet.has e.mask .noBlank = false →
          a.log.first = some ⟨.noBlank, (l.role q).book?, some q, none, none, none, none, e.day⟩))
  ∧ (∀ (e : Env) (l : Library) (r : RescueRecord), l.care.rescue = some r → r.target = none →
      let a := l.seekRescue e
      (∀ p, l.findTarget r.book r.source = some p → a.care.rescue = some { r with target := some p } ∧ a.care.waiting = false
        ∧ a.care.queue = l.care.queue ∧ a.role p = .rescueTarget r.book ∧ (∀ i, i ≠ p → a.role i = l.role i)
        ∧ a.health p = .zero ∧ (∀ i, i ≠ p → a.health i = l.health i) ∧ a.books = l.books ∧ a.log = l.log)
      ∧ (l.findTarget r.book r.source = none → a.care.rescue = some r ∧ a.care.waiting = true ∧ a.care.queue = l.care.queue ∧ a.roles = l.roles
        ∧ (l.care.waiting = true → a.log = l.log)
        ∧ (l.care.waiting = false → l.log.first = none → KindSet.has e.mask .noBlank = false →
          a.log.first = some ⟨.noBlank, some r.book, some r.source, none, none, none, none, e.day⟩)))
  ∧ (∀ (e : Env) (l : Library) (r : RescueRecord),
      let xs := l.formBatch e r
      xs.map BatchFrame.frame = List.range' r.copyMark (min (r.copyMark + 8) (l.chasedMark r) - r.copyMark)
        ∧ ∀ x ∈ xs, x.reading = false
          ∧ ((e.frame r.book x.frame).filed = false → x.state = .skipped ∧ x.len = 0)
          ∧ ((e.frame r.book x.frame).filed = true →
            let n := (e.frame r.book x.frame).length
            x = l.turnFrame e r ⟨x.frame, n, .toRead, List.replicate n none, none, false, false, false⟩
              ∧ (x.state = .toRead ∨ x.state = .ready) ∧ x.len = n ∧ x.data.length = x.len))
  ∧ (∀ (e : Env) (l : Library) (r : RescueRecord) (x : BatchFrame),
      let copies : List Copy := if r.ofTwin = true ∨ ((l.otherSide r.book r.source).isSome = true ∧ x.frame < (l.book r.book).twinMark)
        then [.source, .other] else [.source]
      let untried := copies.filter fun c => !x.failedOn c
      let y := l.turnFrame e r x
      (∀ cs c ds, untried = cs ++ c :: ds → l.copyAvailable e r c = true → (∀ c' ∈ cs, l.copyAvailable e r c' = false) →
        y = { x with waits := some c })
      ∧ ((∀ c ∈ untried, l.copyAvailable e r c = false) →
        (∀ h, l.held r.book x.frame = some h → y.state = .ready ∧ y.waits = none ∧ y.data.length = x.data.length
          ∧ ∀ i : Nat, (∀ z, x.data[i]? = some (some z) → y.data[i]? = some (some z))
            ∧ (x.data[i]? = some none → y.data[i]? = some (some ((h.data[i]?).getD Sector.zeros))))
        ∧ (l.held r.book x.frame = none → (∀ c, untried.head? = some c → y = { x with waits := some c })
          ∧ (untried = [] → y.state = .lost))))
  ∧ (∀ (e : Env) (l : Library) (r : RescueRecord) (p : Side) (n : Nat), l.care.seekDue = false → l.care.rescue = some r → r.target = some p →
      (r.stopped = true → l.runRescue e (n + 1) = l)
      ∧ (r.stopped = false →
        (∀ xs, l.care.batch = some xs → (∀ x ∈ xs, x.state = .written ∨ x.state = .skipped ∨ x.state = .lost) →
          let a := l.completeBatch r xs
          l.runRescue e (n + 1) = a.runRescue e n ∧ a.care.rescue = some { r with copyMark := r.copyMark + xs.length } ∧ a.care.batch = none
            ∧ (∀ i, ∀ x ∈ a.items i, x.kind ≠ .rescueRead ∧ x.kind ≠ .rescueWrite) ∧ a.roles = l.roles ∧ a.books = l.books)
        ∧ (∀ xs, l.care.batch = some xs → (∃ x ∈ xs, x.state ≠ .written ∧ x.state ≠ .skipped ∧ x.state ≠ .lost) →
          let a := l.runRescue e (n + 1)
          a.care = l.care ∧ a.roles = l.roles ∧ a.books = l.books
            ∧ (∀ i, l.copySide r .source = some i → l.copySide r .other ≠ some i →
              (listed .rescueRead (a.items i) = true ↔ ∃ x ∈ xs, x.state = .toRead ∧ x.waits = some .source))
            ∧ (∀ i, l.copySide r .other = some i → l.copySide r .source ≠ some i →
              (listed .rescueRead (a.items i) = true ↔ ∃ x ∈ xs, x.state = .toRead ∧ x.waits = some .other))
            ∧ (∀ x, xs.find? (fun x => x.state != .skipped && x.state != .lost) = some x → x.state ≠ .toRead →
              listed .rescueWrite (a.items p) = true))
        ∧ (l.care.batch = none →
          (r.copyMark < l.chasedMark r →
            l.runRescue e (n + 1) = Library.runRescue e n { l with care := { l.care with batch := some (l.formBatch e r) } })
          ∧ (r.copyMark = l.chasedMark r → l.sourceWriting r = false → l.runRescue e (n + 1) = (l.switch r p).runRescue e n)
          ∧ (r.copyMark = l.chasedMark r → l.sourceWriting r = true → l.runRescue e (n + 1) = l))))
  ∧ (∀ (e : Env) (l : Library) (r : RescueRecord) (p : Side), p ≠ r.source →
      let a := l.switch r p
      a.role p = (if r.ofTwin = true then .twin r.book else .primary r.book) ∧ a.role r.source = .retired r.book
        ∧ (∀ i, i ≠ p → i ≠ r.source → a.role i = l.role i)
        ∧ (a.book r.book).primary = (if r.ofTwin = true then (l.book r.book).primary else some p)
        ∧ (a.book r.book).twin = (if r.ofTwin = true then some p else (l.book r.book).twin)
        ∧ (a.book r.book).filing = (l.book r.book).filing ∧ (∀ c, c ≠ r.book → a.book c = l.book c)
        ∧ a.care.rescue = none ∧ a.care.batch = none ∧ a.care.queue = l.care.queue ∧ a.care.seekDue = true ∧ a.care.patrolDue = true
        ∧ a.health p = .zero ∧ (∀ i, i ≠ p → a.health i = l.health i)
        ∧ (let moves (x : Item) : Prop := (∃ t f, x.kind = .fetch t r.book f) ∨ (∃ t y g, x.kind = .file t ∧ l.fileOf t = some (y, g) ∧ g.book = r.book)
            ∨ x.kind = .twinWrite r.book ∨ x.kind = .twinReread r.book
          (∀ x ∈ l.items r.source, moves x → listed x.kind (a.items p) = true ∧ listed x.kind (a.items r.source) = false
            ∧ ((∀ y ∈ l.items r.source, y.kind = x.kind → y = x) → (∀ y ∈ l.items p, y.kind ≠ x.kind) → x ∈ a.items p))
          ∧ (∀ x ∈ l.items r.source, ¬ moves x → x ∈ a.items r.source)
          ∧ (∀ x ∈ l.items p, x ∈ a.items p) ∧ (∀ x ∈ a.items p, x ∈ l.items p ∨ (x ∈ l.items r.source ∧ moves x))
          ∧ (∀ x ∈ a.items r.source, x ∈ l.items r.source) ∧ (∀ i, i ≠ p → i ≠ r.source → a.items i = l.items i))
        ∧ (∀ t, ∀ w ∈ l.windows t, (w.book = r.book ∧ w.item = some r.source → { w with item := some p } ∈ a.windows t)
          ∧ (w.book ≠ r.book ∨ w.item ≠ some r.source → w ∈ a.windows t))
        ∧ (r.ofTwin = true → (a.twin r.book).state = if (l.twin r.book).state = .paused then .working else (l.twin r.book).state)
        ∧ (r.ofTwin = true → ((a.examine e r.book).twin r.book).state = twinStateOf ((a.examine e r.book).book r.book) (l.twin r.book).failed)
        ∧ (r.ofTwin = false → (l.book r.book).twin ≠ none → (a.twin r.book).failed = none))
  ∧ (∀ (e : Env) (l : Library),
      let m := l.runRescue e 1100
      l.rescueReaction e = (allBooks.filter fun b => decide ((l.book b).primary ≠ (m.book b).primary ∨ (l.book b).twin ≠ (m.book b).twin)).foldl
        (fun a b => a.examine e b) m)

/-- R6, R160: an assignment whose checks pass: the book is OPEN with its marks 0 and the sides named, whose roles name it and whose health records are zero, and its directory is BLANK.
R7, R160, R94: a twin addition whose checks pass: the side takes role TWIN with a zero health record, the book names it, and its twin mark begins again at 0; R188: a number that names no side is refused.
R8, R4, R55: a twin removal whose checks pass: the side is RETIRED with the book, the book has no twin and its twin mark is its filing mark, its twin record is NONE, and every hold entry of the book leaves the list,
which tests escalation; a change of the flag reaches the Mount Scheduler's copy and calls for a decision (R56, R128, R131); a book without a twin is refused.
R6, R7, R8, R9: a change with a check that fails is refused with TABLE_REFUSED and changes nothing: the book's state, a side that is not BLANK or no side at all, two sides of one cartridge, a rescue that names the
book or a side.
The model's choice: the twin record that a removal leaves holds no twin write in progress, though one that was issued on the removed twin still runs (log entry 64). -/
def Obligations.BookTableWrites : Prop :=
  (∀ (s : State) (tag : Tag) (x : Entry) (b : Book) (p : Side) (t : Option Side), AwaitsWrite s tag x (.book b) →
    (s.lib.book b).state = .unassigned → s.lib.role p = .blank → s.lib.bookUnderRescue b = false → s.lib.sideUnderRescue p = false →
    (∀ q, t = some q → s.lib.role q = .blank ∧ slotOf q ≠ slotOf p ∧ s.lib.sideUnderRescue q = false) →
    let e := { s.env with directory := dirClear s.env.directory b }
    let a := s.begin.lib.assignSides e b p t
    ∃ u, exec (.assignment tag .opened p.val (match t with | some q => q.val | none => 255)) s = .next u
      ∧ Reacted s u e s.fee (a.endRequest tag .done 1 0) ∧ RequestEnds u.lib tag x .done 1
      ∧ a.book b = ⟨.opened, some p, t, 0, 0, 0⟩ ∧ (∀ c, c ≠ b → a.book c = s.lib.book c)
      ∧ a.role p = .primary b ∧ a.health p = .zero ∧ (∀ q, t = some q → a.role q = .twin b ∧ a.health q = .zero)
      ∧ (∀ i, i ≠ p → t ≠ some i → a.role i = s.lib.role i ∧ a.health i = s.lib.health i)
      ∧ (u.lib.book b).state = .opened ∧ (u.lib.book b).filing = 0 ∧ (∀ f, f < 4096 → u.env.frame b f = .blank)
      ∧ (a.twin b).state = (if t = none then .none else .caughtUp)
      ∧ a.care.queue = s.lib.care.queue ∧ a.care.rescue = s.lib.care.rescue ∧ a.picker = s.lib.picker ∧ a.log = s.lib.log)
  ∧ (∀ (s : State) (tag : Tag) (x : Entry) (b : Book), AwaitsWrite s tag x (.book b) →
      (∀ t : Side, (s.lib.book b).state ≠ .unassigned → (s.lib.book b).twin = none → s.lib.role t = .blank →
        (s.lib.book b).primary.map slotOf ≠ some (slotOf t) → s.lib.bookUnderRescue b = false → s.lib.sideUnderRescue t = false →
        ∃ u a, exec (.twinAddition tag .opened t.val) s = .next u ∧ s.begin.lib.addTwin s.env b t.val = some a
          ∧ Reacted s u s.env s.fee (a.endRequest tag .done 1 0) ∧ RequestEnds u.lib tag x .done 1
          ∧ a.role t = .twin b ∧ a.health t = .zero ∧ (a.book b).twin = some t
          ∧ (∀ i, i ≠ t → a.role i = s.lib.role i ∧ a.health i = s.lib.health i)
          ∧ (a.book b).primary = (s.lib.book b).primary ∧ (a.book b).filing = (s.lib.book b).filing
          ∧ ((s.env.frame b 0).filed = true → (a.book b).twinMark = 0)
          ∧ ((s.lib.book b).filing ≤ 4096 → ∀ g, g < (a.book b).twinMark → (s.env.frame b g).skipped = true)
          ∧ (a.twin b).state = twinStateOf (a.book b) none ∧ (a.twin b).failed = none
          ∧ a.care.queue = s.lib.care.queue ∧ a.care.rescue = s.lib.care.rescue
          ∧ (∀ c, c ≠ b → a.book c = s.lib.book c) ∧ a.picker = s.lib.picker ∧ a.log = s.lib.log)
      ∧ (∀ n, 128 ≤ n → ∃ u, exec (.twinAddition tag .opened n) s = .next u ∧ WriteEnds s u tag x .tableRefused 0
        ∧ u.env = s.env ∧ u.fee = s.fee ∧ SameBlocks s.lib u.lib))
  ∧ (∀ (s : State) (tag : Tag) (x : Entry) (b : Book), AwaitsWrite s tag x (.book b) →
      (∀ t, (s.lib.book b).state ≠ .unassigned → (s.lib.book b).twin = some t → s.lib.bookUnderRescue b = false →
        s.lib.sideUnderRescue t = false →
        ∃ u a, exec (.twinRemoval tag .opened) s = .next u ∧ s.begin.lib.removeTwin s.env b = some a
          ∧ Reacted s u s.env s.fee (a.endRequest tag .done 1 0) ∧ RequestEnds u.lib tag x .done 1
          ∧ a.role t = .retired b ∧ (∀ i, i ≠ t → a.role i = s.lib.role i)
          ∧ a.book b = { s.lib.book b with twin := none, twinMark := (s.lib.book b).filing } ∧ (∀ c, c ≠ b → a.book c = s.lib.book c)
          ∧ a.twin b = .none
          ∧ u.lib.buffer.hold = s.lib.buffer.hold.filter (fun h => !(h.book == b))
          ∧ u.lib.buffer.escalation = escalationAfter s.lib.buffer.escalation (u.lib.buffer.hold.map fun h => h.data.length).sum
          ∧ EscalationTested s.lib a ∧ u.lib.buffer.escalation = a.buffer.escalation ∧ u.lib.scheduler.escalation = a.scheduler.escalation
          ∧ a.care.queue = s.lib.care.queue.filter (fun i => i != t) ∧ a.care.rescue = s.lib.care.rescue
          ∧ a.care.health = s.lib.care.health ∧ a.picker = s.lib.picker ∧ a.log = s.lib.log)
      ∧ ((s.lib.book b).twin = none → ∃ u, exec (.twinRemoval tag .opened) s = .next u ∧ WriteEnds s u tag x .tableRefused 0
        ∧ u.env = s.env ∧ u.fee = s.fee ∧ SameBlocks s.lib u.lib))
  ∧ (∀ (s : State) (tag : Tag) (x : Entry) (b : Book), AwaitsWrite s tag x (.book b) →
      let refused (c : Instr) := ∃ u, exec c s = .next u ∧ WriteEnds s u tag x .tableRefused 0 ∧ u.env = s.env ∧ u.fee = s.fee
        ∧ SameBlocks s.lib u.lib
      let rescued (n : Nat) := ∃ r, s.lib.care.rescue = some r ∧ (r.book = b ∨ r.source.val = n ∨ ∃ t, r.target = some t ∧ t.val = n)
      let notBlank (n : Nat) := ∀ h : n < 128, s.lib.role ⟨n, h⟩ ≠ .blank
      (∀ p t, (s.lib.book b).state ≠ .unassigned ∨ notBlank p ∨ rescued p
          ∨ (t ≠ 255 ∧ (notBlank t ∨ t / 2 = p / 2 ∨ rescued t)) → refused (.assignment tag .opened p t))
      ∧ (∀ t, (s.lib.book b).state = .unassigned ∨ (s.lib.book b).twin ≠ none ∨ notBlank t ∨ rescued t
          ∨ (∃ p, (s.lib.book b).primary = some p ∧ p.val / 2 = t / 2) → refused (.twinAddition tag .opened t))
      ∧ ((s.lib.book b).state = .unassigned ∨ (∃ t, (s.lib.book b).twin = some t ∧ rescued t.val) → refused (.twinRemoval tag .opened)))

/-- R13, R168: every step keeps the side registry, the book table and the rescue record in agreement: each side is the primary or twin of at most one book, the one that its role names, a RESCUE_TARGET is the
target of the rescue, and the sides of a book and its rescue target lie in different cartridges. -/
def Obligations.StepKeepsRolesSound : Prop :=
  ∀ s t : State, s.lib.RolesSound → step s = .next t → t.lib.RolesSound

/-- R186, R187: a keyed write while the schedule key reads locked ends PROTECTED and changes nothing.
Table 11-1: the blocks 3 to 5, 16 to 34 and 64 to 190 take writes, the day, the faults, the picker, the orders, the schedule, the pool, the threshold and the book table, and no other block does.
R186: a sector that its block does not take ends BAD_REQUEST and changes nothing: any sector for a block without writes, and, with the key open or in a block that is not keyed, one whose command or action the block does not
know; an unknown one of a keyed block ends PROTECTED with the key locked. -/
def Obligations.RefusedWritesChangeNothing : Prop :=
  (∀ (s : State) (tag : Tag) (x : Entry) (k : Block) (c : Instr), AwaitsWrite s tag x k →
      ((k = .schedule ∧ ∃ v, c = .scheduleWrite tag .locked v)
        ∨ (k = .pool ∧ ∃ n sides, c = .poolAddition tag .locked n sides ∨ c = .poolRemoval tag .locked n sides)
        ∨ (k = .rescue ∧ ∃ v, c = .thresholdWrite tag .locked v)
        ∨ ∃ b, k = .book b ∧ ((∃ p t, c = .assignment tag .locked p t) ∨ (∃ t, c = .twinAddition tag .locked t)
          ∨ c = .twinRemoval tag .locked ∨ c = .closeBook tag .locked)) →
      ∃ u, exec c s = .next u ∧ WriteEnds s u tag x .protected_ 0 ∧ u.env = s.env ∧ u.fee = s.fee ∧ SameBlocks s.lib u.lib)
  ∧ (∀ (s : State) (tag : Tag) (x : Entry) (k : Block) (key : KeyPosition) (data : Sector), AwaitsWrite s tag x k →
      (readWrite k data = .readOnly ∨ readWrite k data = .unknown false ∨ (key = .opened ∧ readWrite k data = .unknown true) →
        ∃ u, exec (.serviceWriteRefused tag key data) s = .next u ∧ WriteEnds s u tag x .badRequest 0 ∧ u.env = s.env ∧ u.fee = s.fee
          ∧ SameBlocks s.lib u.lib)
      ∧ (key = .locked → readWrite k data = .unknown true →
        ∃ u, exec (.serviceWriteRefused tag key data) s = .next u ∧ WriteEnds s u tag x .protected_ 0 ∧ u.env = s.env ∧ u.fee = s.fee
          ∧ SameBlocks s.lib u.lib)
      ∧ (k = .fault → (bytesAt data 0 1 = 0 ∨ 3 < bytesAt data 0 1) → readWrite k data = .unknown false)
      ∧ (∀ b, k = .book b → (bytesAt data 0 1 = 0 ∨ 4 < bytesAt data 0 1) → readWrite k data = .unknown true)
      ∧ (k = .pool → (bytesAt data 0 1 = 0 ∨ 2 < bytesAt data 0 1) → readWrite k data = .unknown true))
  ∧ (∀ (s : State) (tag : Tag) (x : Entry) (n : Nat) (key : KeyPosition) (data : Sector), AwaitsWrite s tag x (blockOf n) →
      (n ≤ 2 ∨ (6 ≤ n ∧ n ≤ 15) ∨ (35 ≤ n ∧ n ≤ 63) ∨ 191 ≤ n) →
      ∃ u, exec (.serviceWriteRefused tag key data) s = .next u ∧ WriteEnds s u tag x .badRequest 0 ∧ u.env = s.env ∧ u.fee = s.fee
        ∧ SameBlocks s.lib u.lib)
  ∧ (∀ (n : Nat) (data : Sector), readWrite (blockOf n) data = .readOnly ↔ n ≤ 2 ∨ (6 ≤ n ∧ n ≤ 15) ∨ (35 ≤ n ∧ n ≤ 63) ∨ 191 ≤ n)
  ∧ blockOf 3 = .day ∧ blockOf 4 = .fault ∧ blockOf 5 = .picker ∧ (∀ k : Station, blockOf (16 + k.val) = .order k)
  ∧ blockOf 32 = .schedule ∧ blockOf 33 = .pool ∧ blockOf 34 = .rescue ∧ (∀ b : Book, blockOf (64 + b.val) = .book b)

/-- R188, R189, R190: the raw sector of a service write, as a FILE burst brings it, does what the command that its bytes spell does. That the raw sector and the row of its command are two
spellings of one event is the model's choice (log entry 5); the fields of the bytes are the specification's. -/
def Obligations.RawSectorSpellsCommand : Prop :=
  ∀ (s : State) (tag : Tag) (x : Entry) (k : Block) (data : Sector) (key : KeyPosition), AwaitsWrite s tag x k →
    (k = .day → exec (.fileBurstArrival tag data key) s = exec (.dayClose tag (bytesAt data 0 2)) s)
    ∧ (k = .picker → exec (.fileBurstArrival tag data key) s = exec (.pickerClear tag) s)
    ∧ (∀ st, k = .order st → exec (.fileBurstArrival tag data key) s = exec (.orderClose tag) s)
    ∧ (k = .rescue → exec (.fileBurstArrival tag data key) s = exec (.thresholdWrite tag key (bytesAt data 20 2)) s)
    ∧ (k = .schedule → exec (.fileBurstArrival tag data key) s = exec (.scheduleWrite tag key (readSchedule data)) s)
    ∧ (k = .fault →
      (bytesAt data 0 1 = 1 → exec (.fileBurstArrival tag data key) s = exec (.clearFaults tag) s)
      ∧ (bytesAt data 0 1 = 2 →
        exec (.fileBurstArrival tag data key) s = exec (.setMask tag (BitVec.ofNat 16 (bytesAt data 16 2))) s)
      ∧ (bytesAt data 0 1 = 3 → exec (.fileBurstArrival tag data key) s = exec (.clearCauses tag) s)
      ∧ (bytesAt data 0 1 = 0 ∨ 3 < bytesAt data 0 1 → exec (.fileBurstArrival tag data key) s = exec (.serviceWriteRefused tag key data) s))
    ∧ (∀ b, k = .book b →
      (bytesAt data 0 1 = 1 →
        exec (.fileBurstArrival tag data key) s = exec (.assignment tag key (bytesAt data 1 1) (bytesAt data 2 1)) s)
      ∧ (bytesAt data 0 1 = 2 → exec (.fileBurstArrival tag data key) s = exec (.twinAddition tag key (bytesAt data 2 1)) s)
      ∧ (bytesAt data 0 1 = 3 → exec (.fileBurstArrival tag data key) s = exec (.twinRemoval tag key) s)
      ∧ (bytesAt data 0 1 = 4 → exec (.fileBurstArrival tag data key) s = exec (.closeBook tag key) s)
      ∧ (bytesAt data 0 1 = 0 ∨ 4 < bytesAt data 0 1 →
        exec (.fileBurstArrival tag data key) s = exec (.serviceWriteRefused tag key data) s))
    ∧ (k = .pool →
      (bytesAt data 0 1 = 1 → exec (.fileBurstArrival tag data key) s
        = exec (.poolAddition tag key (bytesAt data 1 1) ((List.range (bytesAt data 1 1)).map fun i => bytesAt data (2 + i) 1)) s)
      ∧ (bytesAt data 0 1 = 2 → exec (.fileBurstArrival tag data key) s
        = exec (.poolRemoval tag key (bytesAt data 1 1) ((List.range (bytesAt data 1 1)).map fun i => bytesAt data (2 + i) 1)) s)
      ∧ (bytesAt data 0 1 = 0 ∨ 2 < bytesAt data 0 1 →
        exec (.fileBurstArrival tag data key) s = exec (.serviceWriteRefused tag key data) s))

/-! ## Fees -/

/-- R146: the base fee is P while the position is below the threshold or the threshold is 0, else P × R / 100 to the nearest cent with a half rounded up; the charge
is the base fee, or the smaller of it and what the cap leaves. -/
def Obligations.PageChargeFollowsSchedule : Prop :=
  ∀ (p : FeeLine) (o : Order),
    (p.threshold = 0 ∨ o.pages + 1 < p.threshold → p.base (o.pages + 1) = p.fee)
    ∧ (p.threshold ≠ 0 → p.threshold ≤ o.pages + 1 →
      p.fee * p.rate < 100 * p.base (o.pages + 1) + 50 ∧ 100 * p.base (o.pages + 1) ≤ p.fee * p.rate + 50)
    ∧ (p.cap = 0 → p.charge o = p.base (o.pages + 1))
    ∧ (p.cap ≠ 0 → o.amount ≤ p.cap → p.charge o = min (p.base (o.pages + 1)) (p.cap - o.amount) ∧ o.amount + p.charge o ≤ p.cap)

/-- R145: an offer whose frame is in the recent-page list of the station's open order for its instrument is not charged: the accounts, the request's amount and notes, and everything
else stay as they were. -/
def Obligations.RecentPageIsFree : Prop :=
  ∀ (e : Env) (f : Fee) (l : Library) (x : Offer) (o : Order), e.hold = false → look f.orders x.station = some o → o.book = x.book →
    o.head = x.head → x.frame ∈ look f.recent x.station → takeOffer e f l x = (f, l) ∧ (f.take e.now false x).2.charged = false

/-- R144, R149, R154: an offer that finds no open order for its instrument opens one: it is counted for the station and in the grand count, saturating, and its first page is charged.
R147, R148, R154: a page charged to the station's open order: the order's amount and count rise, the surcharge joins the order's first CERTIFIED page and is counted, the page total joins the amounts of the station, of the class and of
the day and one page their page counts, each saturating; the flag is set exactly when one of them, or a count of orders, saturates; no other station's order or tally changes. -/
def Obligations.OrdersOpenAndAreCharged : Prop :=
  (∀ (f : Fee) (now : Nat) (x : Offer), f.hasOrder x = false →
      ∃ o, look (f.take now false x).1.orders x.station = some o ∧ o.book = x.book ∧ o.head = x.head ∧ o.cls = x.cls ∧ o.pages = 1
        ∧ o.lastCharge = now ∧ o.certified = x.certified ∧ o.surcharged = x.certified
        ∧ look (f.take now false x).1.recent x.station = [x.frame] ∧ (f.take now false x).2.charged = true
        ∧ (look (f.take now false x).1.tallies.stations x.station).orders = min 65535 ((look f.tallies.stations x.station).orders + 1)
        ∧ (f.take now false x).1.tallies.orders = min 65535 (f.tallies.orders + 1)
        ∧ ((f.settleOrder now x).tallies.saturated = true ↔ f.tallies.saturated = true ∨ 65535 < f.tallies.orders + 1
          ∨ 65535 < (look f.tallies.stations x.station).orders + 1)
        ∧ f.take now false x = (f.settleOrder now x).take now false x
        ∧ ∀ k, k ≠ x.station → look (f.take now false x).1.orders k = look f.orders k)
  ∧ (∀ (f : Fee) (now : Nat) (x : Offer) (o : Order), look f.orders x.station = some o → o.book = x.book → o.head = x.head →
      x.frame ∉ look f.recent x.station →
      let charge := (look f.schedule.lines o.cls).charge o
      let total := charge + (if x.certified = true ∧ o.surcharged = false then f.schedule.surcharge else 0)
      let g := (f.take now false x).1
      let a := look f.tallies.stations x.station
      let c := look f.tallies.classes o.cls
      (f.take now false x).2 = ⟨true, total⟩
        ∧ (∃ o', look g.orders x.station = some o' ∧ o'.amount = min 4294967295 (o.amount + charge) ∧ o'.pages = min 65535 (o.pages + 1)
          ∧ o'.lastCharge = now ∧ o'.surcharged = (o.surcharged || x.certified) ∧ o'.cls = o.cls ∧ o'.book = o.book ∧ o'.head = o.head)
        ∧ x.frame ∈ look g.recent x.station ∧ (∀ k, k ≠ x.station → look g.orders k = look f.orders k)
        ∧ g.tallies.amount = min 4294967295 (f.tallies.amount + total) ∧ g.tallies.pages = min 4294967295 (f.tallies.pages + 1)
        ∧ g.tallies.orders = f.tallies.orders
        ∧ g.tallies.certified = min 65535 (f.tallies.certified + if x.certified = true ∧ o.surcharged = false then 1 else 0)
        ∧ look g.tallies.stations x.station
            = ⟨min 4294967295 (a.amount + total), min 4294967295 (a.pages + 1), a.orders⟩
        ∧ look g.tallies.classes o.cls = ⟨min 4294967295 (c.amount + total), min 4294967295 (c.pages + 1)⟩
        ∧ (∀ k, k ≠ x.station → look g.tallies.stations k = look f.tallies.stations k)
        ∧ (∀ k, k ≠ o.cls → look g.tallies.classes k = look f.tallies.classes k)
        ∧ (g.tallies.saturated = true ↔ f.tallies.saturated = true
          ∨ 4294967295 < f.tallies.amount + total ∨ 4294967295 < f.tallies.pages + 1
          ∨ 4294967295 < a.amount + total ∨ 4294967295 < a.pages + 1
          ∨ 4294967295 < c.amount + total ∨ 4294967295 < c.pages + 1
          ∨ 65535 < f.tallies.certified + if x.certified = true ∧ o.surcharged = false then 1 else 0)
        ∧ g.schedule = f.schedule ∧ g.closedTallies = f.closedTallies)

/-! ## Lists and choices -/

/-- R20, Table 1-7: side availability. -/
def Obligations.AvailabilityFollowsTable : Prop :=
  ∀ (e : Env) (l : Library) (i : Side),
    l.available e i = true ↔
      (∃ d, l.location (slotOf i) = .inDrive d (faceOf i) ∧ d.val < e.configured ∧ (l.drive d).state ≠ .failed)
      ∨ (∃ d g, l.location (slotOf i) = .inDrive d g ∧ g ≠ faceOf i ∧ d.val < e.configured ∧ (l.drive d).state ≠ .failed
          ∧ l.picker.state ≠ .faulted)
      ∨ (l.location (slotOf i) = .inSlot ∧ (∃ m, l.picker.record = some m ∧ m.slot = slotOf i))
      ∨ (l.location (slotOf i) = .inSlot ∧ l.seated (slotOf i) = true ∧ l.picker.state ≠ .faulted)

/-- R109: an item of side `q` has been handed to its drive: the drive is ACTIVE with it in service, its command has been sent, and no other drive, book, role, mark or buffer changes. -/
def Handed (e : Env) (l a : Library) (d : Drive) (q : Side) (i : Item) (c : Command) (o : Output) : Prop :=
  a.drive d = { l.drive d with state := .active, service := some ⟨i, q, c, e.now⟩ } ∧ a.out = l.out ++ [o]
    ∧ (∀ d', d' ≠ d → a.drive d' = l.drive d') ∧ a.books = l.books ∧ a.roles = l.roles ∧ a.picker = l.picker ∧ a.log = l.log
    ∧ a.buffer = l.buffer ∧ a.care.health = l.care.health ∧ a.care.queue = l.care.queue ∧ a.care.rescue = l.care.rescue

/-- R125, R126: an item joins a list at the place that its kind, its placement time and its tag, book and frame give; the list keeps its order, and an item that is there already is not placed again.
R134: a decision asks at most one LOAD. That it withdraws no move that was asked before, as R118 would let it, is the model's choice (log entry 52).
R126, R135: the first servable item of a list is the one that is handed; a drive that is neither READY nor STOPPED, and one whose unload flag is set, is handed nothing.
R108, R109, R126: a servable item spins a STOPPED drive up and is handed to a READY one outside HOLD, which is then ACTIVE with it in service and its command sent; R64, R82, R98, R97, R170, R173, R164: what the hand-out does
to the item and to the work that it names.
That a twin write item without data stands on its list until its hand-out withdraws it is the model's reading (log entry 47); that an ACTIVE drive which runs a patrol verify is not idle (log entry 34), and that a sector
missing from a batch frame's data is written as zeros (log entry 36), are too.
R136: a patrol mount is made for the candidate whose last full pass is oldest, then the lower number, and only while the library is quiet: its LOAD is asked for the lowest EMPTY drive, or else the least recently used idle drive is chosen
to unload. The model's choice: it is considered at any decision that finds the conditions (log entry 53).
R163: the cursor stays on a side that is still eligible; else its patrol item is withdrawn and it takes the patrol-mounted side when it is eligible, else the next eligible side in ascending number after the one last
named, wrapping from 127 to 0. R162, R128: which sides are patrol-eligible and which have demand. R164: the frame verified next, or the full pass. The model's
choice: a cursor that has named no side yet begins at side 0 (log entry 27). -/
def Obligations.DemandListAndDecision : Prop :=
  (∀ (i : Item) (xs : List Item), xs.Pairwise (fun a b => keyBefore b.key a.key = false) → (xs.map Item.kind).Nodup →
      (joinItem i xs).Pairwise (fun a b => keyBefore b.key a.key = false) ∧ ((joinItem i xs).map Item.kind).Nodup
        ∧ (∀ j, j ∈ joinItem i xs ↔ j ∈ xs ∨ (j = i ∧ ∀ k ∈ xs, k.kind ≠ i.kind)))
  ∧ (∀ (e : Env) (l : Library),
      ((l.decide e).picker.moves.filter Move.byScheduler).length ≤ (l.picker.moves.filter Move.byScheduler).length + 1
      ∧ ∀ m ∈ l.picker.moves, m ∈ (l.decide e).picker.moves)
  ∧ (∀ (l : Library) (q : Side) (i : Item), l.firstServable q = some i ↔
      ∃ xs ys, l.items q = xs ++ i :: ys ∧ l.canServe q i = true ∧ ∀ j ∈ xs, l.canServe q j = false)
  ∧ (∀ (e : Env) (l : Library) (d : Drive), ((l.drive d).unload = true ∨ ((l.drive d).state ≠ .ready ∧ (l.drive d).state ≠ .stopped)
      ∨ l.mountedSide d = none ∨ e.hasDrive d = false ∨ ((l.drive d).state = .ready ∧ e.hold = true)) → l.serveDrive e d = l)
  ∧ (∀ (e : Env) (l : Library) (d : Drive) (q : Side) (i : Item), d.val < e.configured → (l.drive d).unload = false → l.mountedSide d = some q →
      l.firstServable q = some i →
      let a := l.serveDrive e d
      ((l.drive d).state = .stopped →
        a = ({ l with out := l.out ++ [Output.spinUp d] }).setDrive d { l.drive d with state := .spinUp, limitStart := e.now })
      ∧ ((l.drive d).state = .ready → e.hold = false → (l.drive d).service = none →
        (∀ t b f w, i.kind = .fetch t b f → (l.windows t).find? (fun w => w.book == b && w.frame == f && w.isOpen) = some w →
          Handed e l a d q i (.fetchRead t b f w.missing true 0) (.read d (w.missing.map fun k => 64 * f + k))
            ∧ listed i.kind (a.items q) = false ∧ { w with reading := true } ∈ a.windows t)
        ∧ (∀ t x g, i.kind = .file t → l.fileOf t = some (x, g) →
          Handed e l a d q i (.primaryWrite t g.book g.frame) (.write d (64 * g.frame) g.received)
            ∧ listed i.kind (a.items q) = false ∧ a.entry t = some { x with job := .file { g with phase := .writing } })
        ∧ (∀ b h data, i.kind = .twinWrite b → l.twinData b (l.book b).twinMark = some (h, data) →
          let f := (l.book b).twinMark
          Handed e l a d q i (.twinWrite b f (e.frame b f).length h true) (.write d (64 * f) data)
            ∧ listed i.kind (a.items q) = false ∧ a.twin b = { l.twin b with writing := some ⟨f, h⟩ })
        ∧ (∀ b r, i.kind = .twinReread b → (l.twin b).rereads.find? (fun r => r.state == .granted) = some r →
          Handed e l a d q i (.reread b r.frame r.len true) (.read d ((List.range r.len).map fun k => 64 * r.frame + k))
            ∧ (∀ x ∈ (a.twin b).rereads, x.frame = r.frame → x.state = .reading)
            ∧ ((listed i.kind (a.items q) = true) ↔ ∃ x ∈ (a.twin b).rereads, x.state = .granted))
        ∧ (∀ r x, i.kind = .rescueRead → l.rescueReadFrame q = some (r, x) →
          Handed e l a d q i (.rescueRead r.book x.frame x.lacking true) (.read d (x.lacking.map fun k => 64 * x.frame + k))
            ∧ a.scheduler = l.scheduler ∧ ∀ xs, a.care.batch = some xs → ∀ y ∈ xs, y.frame = x.frame → y.reading = true)
        ∧ (∀ r x, i.kind = .rescueWrite → l.care.rescue = some r → l.lowestOpen = some x →
          Handed e l a d q i (.rescueWrite r.book x.frame true) (.write d (64 * x.frame) (x.data.map fun z => z.getD Sector.zeros))
            ∧ a.scheduler = l.scheduler ∧ ∀ xs, a.care.batch = some xs → ∀ y ∈ xs, y.frame = x.frame → y.state = .writing)
        ∧ (∀ b f, i.kind = .patrol → l.nextPatrol e q = some (b, f) →
          Handed e l a d q i (.patrolVerify b f (e.frame b f).length) (.verify d ((List.range (e.frame b f).length).map fun k => 64 * f + k))
            ∧ a.scheduler = l.scheduler)
        ∧ ((∃ t b f, i.kind = .fetch t b f ∧ (l.windows t).find? (fun w => w.book == b && w.frame == f && w.isOpen) = none)
            ∨ (∃ b, i.kind = .twinWrite b ∧ l.twinData b (l.book b).twinMark = none) →
          a = Library.handOut e d q 63 (l.withdraw q i.kind))
        ∧ (i.kind = .patrol → l.nextPatrol e q = none → a = Library.handOut e d q 63 ((l.withdraw q .patrol).fullPass e q))))
  ∧ (∀ (e : Env) (l : Library),
      (∀ q, q ∈ l.patrolCandidates e ↔ 0 < l.patrolTop q ∧ (l.health q).lastPass ≠ some e.day ∧ l.mountedIn q = none ∧ l.available e q = true)
      ∧ (∀ q, l.oldestPatrol e = some q → q ∈ l.patrolCandidates e
        ∧ ∀ p ∈ l.patrolCandidates e, l.passAge e p < l.passAge e q ∨ (l.passAge e p = l.passAge e q ∧ q ≤ p))
      ∧ ((∃ q, l.hasDemand q = true) ∨ l.scheduler.patrolMount ≠ none ∨ l.picker.state ≠ .idle ∨ l.picker.moves ≠ [] ∨ e.hold = true
          ∨ e.now < l.scheduler.quiet + 180 ∨ l.patrolCandidates e = [] → l.considerPatrol e = l))
  ∧ (∀ (e : Env) (l : Library) (q : Side), e.hold = false → l.scheduler.patrolMount = none → l.picker.state = .idle → l.picker.moves = [] →
      l.scheduler.quiet + 180 ≤ e.now → (∀ i, l.hasDemand i = false) → l.oldestPatrol e = some q →
      let free := FreeDrive e l [] q
      let a := l.considerPatrol e
      (∀ d, free d → EmptyDrive l q d → (∀ d', d' < d → free d' → ¬ EmptyDrive l q d') →
        a.picker = { l.picker with moves := [.load (slotOf q) (faceOf q) d] } ∧ a.scheduler = { l.scheduler with patrolMount := some q }
          ∧ a.drives = l.drives)
      ∧ ((∀ d, free d → ¬ EmptyDrive l q d) →
        (∀ d, free d → IdleDrive l d → (∀ d', free d' → IdleDrive l d' →
            (l.drive d).lastUse < (l.drive d').lastUse ∨ ((l.drive d).lastUse = (l.drive d').lastUse ∧ d ≤ d')) →
          a = l.takeDrive e d ∧ (a.drive d).unload = true ∧ (∀ d', d' ≠ d → a.drive d' = l.drive d') ∧ a.scheduler.patrolMount = none)
        ∧ ((∀ d, free d → ¬ IdleDrive l d) → a = l)))
  ∧ (∀ (e : Env) (l : Library),
      (∀ q, l.scheduler.patrolMount = some q → l.patrolEligible e q = true → l.nextCursor e = some q)
      ∧ ((∀ q, l.scheduler.patrolMount = some q → l.patrolEligible e q = false) →
        ((∀ q, l.patrolEligible e q = false) ↔ l.nextCursor e = none)
        ∧ ∀ q, l.nextCursor e = some q → l.patrolEligible e q = true
          ∧ (l.care.lastCursor = none → ∀ p, l.patrolEligible e p = true → q ≤ p)
          ∧ ∀ k p, l.care.lastCursor = some k → l.patrolEligible e p = true →
            (q.val + 127 - k.val) % 128 ≤ (p.val + 127 - k.val) % 128))
  ∧ (∀ (e : Env) (l : Library) (q : Side),
      (∀ b, l.role q = .primary b → l.patrolTop q = (l.book b).filing) ∧ (∀ b, l.role q = .twin b → l.patrolTop q = (l.book b).twinMark)
      ∧ (l.hasDemand q = true ↔ (∃ x ∈ l.items q, x.kind ≠ .patrol)
        ∨ ∃ d v, l.location (slotOf q) = .inDrive d (faceOf q) ∧ (l.drive d).service = some v ∧ v.item.kind ≠ .patrol)
      ∧ (l.patrolEligible e q = true ↔ (∃ b, l.role q = .primary b ∨ l.role q = .twin b) ∧ 0 < l.patrolTop q
        ∧ (l.health q).lastPass ≠ some e.day
        ∧ (∃ d, l.location (slotOf q) = .inDrive d (faceOf q) ∧ d.val < e.configured ∧ (l.drive d).state ≠ .failed ∧ (l.drive d).unload = false)
        ∧ l.hasDemand q = false)
      ∧ ∀ b f, l.nextPatrol e q = some (b, f) ↔
        let start := if l.patrolTop q < (l.health q).patrolMark then 0 else (l.health q).patrolMark
        (l.role q = .primary b ∨ l.role q = .twin b) ∧ start ≤ f ∧ f < l.patrolTop q ∧ (e.frame b f).filed = true
          ∧ ∀ g, start ≤ g → g < f → (e.frame b g).filed = false)
  ∧ (∀ (e : Env) (l : Library),
      let m := { l with care := { l.care with patrolDue := false } }
      let a := l.examineCursor e
      (l.care.patrolDue = false → a = l)
      ∧ (l.care.patrolDue = true → (l.care.cursor = none → a = Library.moveCursor e 8 m)
        ∧ ∀ q, l.care.cursor = some q → (l.patrolEligible e q = true → a = m)
          ∧ (l.patrolEligible e q = false → a = Library.moveCursor e 8 (m.withdraw q .patrol))))
  ∧ (∀ (e : Env) (l : Library) (n : Nat),
      let a := Library.moveCursor e (n + 1) l
      (l.nextCursor e = none → a = { l with care := { l.care with cursor := none } })
      ∧ ∀ q, l.nextCursor e = some q →
        let m := { l with care := { l.care with cursor := some q, lastCursor := some q } }
        (∀ b f, l.nextPatrol e q = some (b, f) → a.care = m.care ∧ listed .patrol (a.items q) = true ∧ (∀ i, i ≠ q → a.items i = l.items i)
          ∧ ∀ x ∈ a.items q, x ∈ l.items q ∨ x = ⟨.patrol, e.now⟩)
        ∧ (l.nextPatrol e q = none → a = Library.moveCursor e n (m.fullPass e q)
          ∧ (m.fullPass e q).health q = { l.health q with patrolMark := 0, lastPass := some e.day } ∧ (m.fullPass e q).scheduler.patrolMount ≠ some q))

/-- R54: demotion takes the oldest entries whose twin write is not in progress, keeps the others in their order, and stops as soon as the room is free.
R56: escalation turns on at a held-sector total of 4096, off below 3584, and stays between.
R53, R54: an entry that joins stands at the tail behind those that its demotion keeps, and the demotion passes over the entry whose twin write from the list is in progress and begins with the slots that the list and the
twin writes of removed entries leave free. R55: entries that leave go alone. R56, R128, R131: each tests the flag on the total that it leaves, and a change reaches the Mount Scheduler's copy and calls for a
decision. -/
def Obligations.HoldListDemotesAndEscalates : Prop :=
  (∀ (busy : HoldEntry → Bool) (k free : Nat) (xs : List HoldEntry),
      let r := demote busy k free xs
      r.1.Sublist xs ∧ r.2.Sublist xs ∧ (r.1 ++ r.2).Perm xs ∧ r.2 <+: xs.filter (fun h => !busy h)
        ∧ (k ≤ free + (r.2.map fun h => h.data.length).sum ∨ ∀ h ∈ r.1, busy h = true)
        ∧ (k ≤ free → r.2 = []) ∧ (r.2 ≠ [] → free + (r.2.dropLast.map fun h => h.data.length).sum < k))
  ∧ (∀ (was : Bool) (n : Nat), (4096 ≤ n → escalationAfter was n = true) ∧ (n < 3584 → escalationAfter was n = false)
      ∧ (3584 ≤ n → n < 4096 → escalationAfter was n = was))
  ∧ (∀ (l : Library) (h : HoldEntry),
      (l.joinHold h).buffer.hold = (demote l.writingFrom h.data.length l.holdFree l.buffer.hold).1 ++ [h] ∧ EscalationTested l (l.joinHold h)
      ∧ (l.writingFrom h = true ↔ (l.twin h.book).writing = some ⟨h.frame, true⟩)
      ∧ (let owed (d : Drive) : Nat :=
          match (l.drive d).service.map InService.command with
          | some (.twinWrite _ _ n true false) => n
          | _ => 0
        l.holdFree = 5120 - ((l.buffer.hold.map fun h => h.data.length).sum + (owed 0 + owed 1 + owed 2 + owed 3))))
  ∧ (∀ (l : Library) (gone : HoldEntry → Bool),
      (l.leaveHold gone).buffer.hold = l.buffer.hold.filter (fun h => !gone h) ∧ EscalationTested l (l.leaveHold gone))

/-- R166, R167: an event that counts a result queues a PRIMARY or TWIN side at the tail of the rescue queue when its counts call for it, unless it is there, or the rescue names it as source, or the queue is full.
R178: a fault that is not masked fills an empty record, or joins the later set of a full one, whose count saturates at 255; a masked one changes nothing; ATTN follows the record. -/
def Obligations.CountsQueueSidesAndFaultsAreLogged : Prop :=
  (∀ (e : Env) (l : Library) (i : Side),
      ((l.role i).holds ≠ none → (e.threshold ≤ (l.health i).corrected ∨ 0 < (l.health i).uncorrectable) → i ∉ l.care.queue →
        (∀ r, l.care.rescue = some r → r.source ≠ i) →
        (l.care.queue.length < 8 → (l.trigger e i).care.queue = l.care.queue ++ [i] ∧ (l.trigger e i).log = l.log)
        ∧ (8 ≤ l.care.queue.length → (l.trigger e i).care.queue = l.care.queue
          ∧ (l.log.first = none → KindSet.has e.mask .rescueQueueFull = false →
            (l.trigger e i).log.first = some ⟨.rescueQueueFull, (l.role i).holds, some i, none, none, none, none, e.day⟩)))
      ∧ ((l.role i).holds = none ∨ ((l.health i).corrected < e.threshold ∧ (l.health i).uncorrectable = 0) ∨ i ∈ l.care.queue
          ∨ (∃ r, l.care.rescue = some r ∧ r.source = i) → l.trigger e i = l))
  ∧ (∀ (e : Env) (l : Library) (r : FaultRecord),
      (KindSet.has e.mask r.kind = true → l.fault e r = l)
      ∧ (KindSet.has e.mask r.kind = false → l.log.first = none →
        (l.fault e r).log = { l.log with first := some r } ∧ (l.fault e r).attn = true)
      ∧ (KindSet.has e.mask r.kind = false → ∀ q, l.log.first = some q →
        (l.fault e r).log.first = some q ∧ (l.fault e r).log.laterCount = min 255 (l.log.laterCount + 1)
        ∧ ∀ k, KindSet.has (l.fault e r).log.later k = (KindSet.has l.log.later k || k == r.kind)))

/-! ## Invariants and whole-machine rules -/

/-- The machine at reset meets every invariant. -/
def Obligations.ResetMeetsInvariants : Prop :=
  State.reset.env.sound ∧ State.reset.fee.sound ∧ State.reset.ordersHeld ∧ State.reset.lib.sound
    ∧ State.reset.lib.RolesSound ∧ State.reset.BooksSound

/-- R10, R157, R166: every step keeps the directories in the model's one form (log entry 25: its choice), the day number in 1 to 65535 and the threshold at least 1.
R167, R178: every step keeps the rescue queue at no more than 8 sides without duplicates and the later count at no more than 255.
R56, R128: every step keeps the Mount Scheduler's copy of the escalation flag equal to the Sector Buffer's flag. -/
def Obligations.StepKeepsBoundsSound : Prop :=
  (∀ s t : State, s.env.sound → step s = .next t → t.env.sound)
  ∧ (∀ s t : State, s.lib.sound → step s = .next t → t.lib.sound)
  ∧ (∀ s t : State, s.lib.scheduler.escalation = s.lib.buffer.escalation → step s = .next t →
    t.lib.scheduler.escalation = t.lib.buffer.escalation)

/-- R140, R142, R143, R147, R153: every step keeps the schedule in its ranges, every order within its cap and with its mode and surcharge agreeing, every recent-page list short and without duplicates, and the sums of the tallies. -/
def Obligations.StepKeepsAccountsSound : Prop :=
  ∀ s t : State, s.fee.sound → step s = .next t → t.fee.sound

/-- R152: every step keeps every order closed in HOLD and during start-up. -/
def Obligations.StepKeepsOrdersClosedInHold : Prop :=
  ∀ s t : State, s.ordersHeld → step s = .next t → t.ordersHeld

/-- R5: no command but a reset that finds a blank marker turns a CLOSED book back. -/
def Obligations.ClosedBookStaysClosed : Prop :=
  ∀ (c : Instr) (s t : State) (b : Book), (s.lib.book b).state = .closed → exec c s = .next t →
    (∀ cause i, c = .reset cause i → s.env.formatMarker = true ∧ i.memoryKept = true) → (t.lib.book b).state = .closed

/-- Table 1-4: only the outcomes and failures of primary writes, the loss of a frame by a rescue, an assignment and a reset change a directory entry.
R83, R85, R86, R112: an outcome or a failure at a drive does so only with a primary write of a live FILE in progress there, and changes that write's frame alone, to HEAD or CONT at OK and to VOID else.
R172: a rescue read outcome does so only for a read whose batch stands, and makes the frame read LOST. R6: an assignment does so only where its service write waits and its book is UNASSIGNED, whose entries it makes BLANK, and a sector of a
FILE burst only where it spells one. R22: a reset does so only without the marker, when every entry is BLANK, and not when a further reset comes before that (R184); that the operand `cut` announces
that further reset, and that the defaults are one change with the marker, so that with `cut` 0 the entries stay, is the model's choice (log entry 57). -/
def Obligations.DirectoryChangesOnlyAtItsEvents : Prop :=
  ∀ (c : Instr) (s t : State), exec c s = .next t →
    let assigned (tag : Tag) : Prop := ∃ x b, AwaitsWrite s tag x (.book b) ∧ (s.lib.book b).state = .unassigned
      ∧ t.env.directory = dirClear s.env.directory b
    ((∀ d, c ≠ .primaryWriteOk d ∧ c ≠ .primaryWriteFail d ∧ c ≠ .commandLimitExpiry d ∧ c ≠ .hardwareFaultReport d) →
      (∀ d rs, c ≠ .rescueReadOutcome d rs) → (∀ tag key p q, c ≠ .assignment tag key p q) → (∀ tag x key, c ≠ .fileBurstArrival tag x key) →
      (∀ cause i, c ≠ .reset cause i) → t.env.directory = s.env.directory)
    ∧ (∀ d, (c = .primaryWriteOk d ∨ c = .primaryWriteFail d ∨ c = .commandLimitExpiry d ∨ c = .hardwareFaultReport d) →
      t.env.directory = s.env.directory
      ∨ ∃ v tag b f x, Running s d v ∧ ((c = .primaryWriteOk d ∨ c = .primaryWriteFail d) → Answered s d v)
        ∧ v.command = .primaryWrite tag b f ∧ s.lib.fileOf tag ≠ none ∧ t.env.directory = dirPut s.env.directory (frameKey b f) x
        ∧ (c = .primaryWriteOk d → x.filed = true) ∧ (c ≠ .primaryWriteOk d → x = .void))
    ∧ (∀ d rs, c = .rescueReadOutcome d rs → t.env.directory = s.env.directory
      ∨ ∃ v b f ss r, Answered s d v ∧ v.command = .rescueRead b f ss true ∧ rs.length = ss.length ∧ s.lib.care.rescue = some r
        ∧ t.env.directory = dirPut s.env.directory (frameKey r.book f) (s.env.frame r.book f).lose)
    ∧ (∀ tag key p q, c = .assignment tag key p q → t.env.directory = s.env.directory ∨ (key = .opened ∧ assigned tag))
    ∧ (∀ tag x key, c = .fileBurstArrival tag x key →
      t.env.directory = s.env.directory ∨ (key = .opened ∧ bytesAt x 0 1 = 1 ∧ assigned tag))
    ∧ (∀ cause i, c = .reset cause i →
      t.env.directory = if (s.env.formatMarker = true ∧ i.memoryKept = true) ∨ i.cut = some 0 then s.env.directory else [])

/-- R141, R156, R157, R166, R179: the schedule, the closed-day tally, the day number, the threshold and the mask change only by their own service writes and at a reset.
R178, R179: a first-fault record stays until a clear faults command or a blank marker.
A sector of a FILE burst changes one of them only where the service write to its block waits, and a reset that finds the marker changes none. -/
def Obligations.SettingsAndFirstFaultPersist : Prop :=
  (∀ (c : Instr) (s t : State), exec c s = .next t → (∀ tag x key, c ≠ .fileBurstArrival tag x key) → (∀ cause i, c ≠ .reset cause i) →
      ((∀ tag key v, c ≠ .scheduleWrite tag key v) → t.fee.schedule = s.fee.schedule)
      ∧ ((∀ tag day, c ≠ .dayClose tag day) →
        t.env.day = s.env.day ∧ t.fee.closedTallies = s.fee.closedTallies ∧ t.fee.closedDay = s.fee.closedDay)
      ∧ ((∀ tag key v, c ≠ .thresholdWrite tag key v) → t.env.threshold = s.env.threshold)
      ∧ ((∀ tag m, c ≠ .setMask tag m) → t.env.mask = s.env.mask))
  ∧ (∀ (c : Instr) (s t : State) (r : FaultRecord), s.lib.log.first = some r → exec c s = .next t →
      (∀ tag, c ≠ .clearFaults tag) → (∀ tag x key, c ≠ .fileBurstArrival tag x key) →
      (∀ cause i, c = .reset cause i → s.env.formatMarker = true ∧ i.memoryKept = true) → t.lib.log.first = some r)
  ∧ (∀ (s t : State) (tag : Tag) (data : Sector) (key : KeyPosition), exec (.fileBurstArrival tag data key) s = .next t →
      ((∀ x, ¬ AwaitsWrite s tag x .schedule) → t.fee.schedule = s.fee.schedule)
      ∧ ((∀ x, ¬ AwaitsWrite s tag x .day) →
        t.env.day = s.env.day ∧ t.fee.closedTallies = s.fee.closedTallies ∧ t.fee.closedDay = s.fee.closedDay)
      ∧ ((∀ x, ¬ AwaitsWrite s tag x .rescue) → t.env.threshold = s.env.threshold)
      ∧ ((∀ x, ¬ AwaitsWrite s tag x .fault) →
        t.env.mask = s.env.mask ∧ ∀ r, s.lib.log.first = some r → t.lib.log.first = some r))
  ∧ (∀ (s t : State) (cause : ResetCause) (i : ResetInputs), s.env.formatMarker = true → i.memoryKept = true →
      exec (.reset cause i) s = .next t →
      t.fee.schedule = s.fee.schedule ∧ t.env.day = s.env.day ∧ t.fee.closedTallies = s.fee.closedTallies ∧ t.fee.closedDay = s.fee.closedDay
        ∧ t.env.threshold = s.env.threshold ∧ t.env.mask = s.env.mask)
end

