-- ==== Sys2Proof/Laws/Directory.lean ====
section
/-! SUPPORT. The frame directories: a read after a write, the one form that every operation over them keeps, and what a look down for a head finds. -/

namespace Sys2Proof.Machine

set_option Elab.async false

theorem dirGet_dirErase (n m : Nat) : ∀ d : List (Nat × Frame), dirGet (dirErase d n) m = if m = n then .blank else dirGet d m
  | [] => by simp [dirErase, dirGet]
  | (k, x) :: rest => by
    have ih := dirGet_dirErase n m rest
    unfold dirErase at *
    rw [List.filter_cons]
    by_cases hk : k = n
    · subst hk
      simp only [bne_self_eq_false, Bool.false_eq_true, ↓reduceIte, ih, dirGet]
      split <;> rfl
    · simp only [bne_iff_ne, ne_eq, hk, not_false_eq_true, ↓reduceIte, dirGet, ih]
      by_cases hm : m = k
      · subst hm; simp [hk]
      · simp [hm]

theorem dirGet_dirInsert (n : Nat) (x : Frame) (m : Nat) :
    ∀ d : List (Nat × Frame), dirGet (dirInsert d n x) m = if m = n then x else dirGet d m
  | [] => by simp [dirInsert, dirGet]
  | (k, y) :: rest => by
    have ih := dirGet_dirInsert n x m rest
    unfold dirInsert
    split
    · rw [dirGet]
    · split
      · rename_i h
        subst h; simp only [dirGet]
        split <;> rfl
      · rename_i h
        simp only [dirGet, ih]
        by_cases hm : m = k
        · subst hm; simp [Ne.symm h]
        · simp [hm]

/-- A directory entry read after one has been written. -/
theorem dirGet_dirPut (d : List (Nat × Frame)) (n : Nat) (x : Frame) (m : Nat) :
    dirGet (dirPut d n x) m = if m = n then x else dirGet d m := by
  unfold dirPut
  split
  · rename_i h; rw [dirGet_dirErase, h]
  · exact dirGet_dirInsert n x m d

/-- R6: a directory entry read after a book's directory has been cleared. -/
theorem dirGet_dirClear (b : Book) (m : Nat) :
    ∀ d : List (Nat × Frame), dirGet (dirClear d b) m = if m / Config.framesPerBook = b.val then .blank else dirGet d m
  | [] => by simp [dirClear, dirGet]
  | (k, x) :: rest => by
    have ih := dirGet_dirClear b m rest
    unfold dirClear at *
    rw [List.filter_cons]
    by_cases hk : k / Config.framesPerBook = b.val
    · simp only [hk, bne_self_eq_false, Bool.false_eq_true, ↓reduceIte, ih, dirGet]
      split
      · rfl
      · rename_i hm
        rw [if_neg (fun h : m = k => hm (h ▸ hk))]
    · simp only [bne_iff_ne, ne_eq, hk, not_false_eq_true, ↓reduceIte, dirGet, ih]
      by_cases hm : m = k
      · subst hm; simp [hk]
      · simp [hm]

/-- Two frames share a key only when they are one frame. -/
theorem frameKey_inj {b c : Book} {f g : Nat} (hf : f < Config.framesPerBook) (hg : g < Config.framesPerBook)
    (h : frameKey b f = frameKey c g) : b = c ∧ f = g := by
  simp only [frameKey, Config.framesPerBook] at *
  constructor
  · apply Fin.ext; omega
  · omega

/-- A frame read after another, or the same, has been changed. -/
theorem frame_setFrame (e : Env) {b c : Book} {f g : Nat} (x : Frame) (hf : f < Config.framesPerBook) (hg : g < Config.framesPerBook) :
    (e.setFrame b f x).frame c g = if c = b ∧ g = f then x else e.frame c g := by
  unfold Env.frame Env.setFrame
  rw [dirGet_dirPut]
  by_cases h : c = b ∧ g = f
  · rw [if_pos h, if_pos (by rw [h.1, h.2])]
  · rw [if_neg h, if_neg (fun hk => h (frameKey_inj hg hf hk))]

/-- The frame that was written reads as it was written, whatever its number. -/
@[simp] theorem frame_setFrame_same (e : Env) (b : Book) (f : Nat) (x : Frame) : (e.setFrame b f x).frame b f = x := by
  unfold Env.frame Env.setFrame
  rw [dirGet_dirPut, if_pos rfl]

/-! ## The one form -/

theorem dirWf_iff (d : List (Nat × Frame)) :
    dirWf d = true ↔ (∀ p ∈ d, p.2 ≠ .blank) ∧ (d.map Prod.fst).Pairwise (· < ·) := by
  simp [dirWf]

theorem dirWf_filter {d : List (Nat × Frame)} (p : Nat × Frame → Bool) (h : dirWf d = true) : dirWf (d.filter p) = true := by
  rw [dirWf_iff] at *
  exact ⟨fun q hq => h.1 q (List.mem_of_mem_filter hq), h.2.sublist (List.filter_sublist.map _)⟩

theorem mem_dirInsert (n : Nat) (x : Frame) (p : Nat × Frame) :
    ∀ d : List (Nat × Frame), p ∈ dirInsert d n x → p = (n, x) ∨ p ∈ d
  | [], h => by simp [dirInsert] at h; exact .inl h
  | (k, y) :: rest, h => by
    unfold dirInsert at h
    split at h
    · rcases List.mem_cons.mp h with h | h
      · exact .inl h
      · exact .inr h
    · split at h
      · rcases List.mem_cons.mp h with h | h
        · exact .inl h
        · exact .inr (List.mem_cons_of_mem _ h)
      · rcases List.mem_cons.mp h with h | h
        · exact .inr (h ▸ List.mem_cons_self)
        · rcases mem_dirInsert n x p rest h with h | h
          · exact .inl h
          · exact .inr (List.mem_cons_of_mem _ h)

theorem dirInsert_sorted (n : Nat) (x : Frame) :
    ∀ d : List (Nat × Frame), (d.map Prod.fst).Pairwise (· < ·) → ((dirInsert d n x).map Prod.fst).Pairwise (· < ·)
  | [], _ => by simp [dirInsert]
  | (k, y) :: rest, h => by
    rw [List.map_cons, List.pairwise_cons] at h
    unfold dirInsert
    split
    · rename_i hn
      simp only [List.map_cons, List.pairwise_cons]
      refine ⟨fun m hm => ?_, h.1, h.2⟩
      rcases List.mem_cons.mp hm with hm | hm
      · rw [hm]; exact hn
      · exact hn.trans (h.1 m hm)
    · split
      · rename_i hn
        subst hn
        simp only [List.map_cons, List.pairwise_cons]
        exact h
      · rename_i h1 h2
        simp only [List.map_cons, List.pairwise_cons]
        refine ⟨fun m hm => ?_, dirInsert_sorted n x rest h.2⟩
        obtain ⟨p, hp, he⟩ := List.mem_map.mp hm
        rcases mem_dirInsert n x p rest hp with hp | hp
        · rw [← he, hp]; show k < n; omega
        · exact h.1 m (List.mem_map.mpr ⟨p, hp, he⟩)

/-- Every change of one entry keeps the form of the directories. -/
theorem dirWf_dirPut {d : List (Nat × Frame)} (n : Nat) (x : Frame) (h : dirWf d = true) : dirWf (dirPut d n x) = true := by
  unfold dirPut
  split
  · exact dirWf_filter _ h
  · rename_i hx
    rw [dirWf_iff] at *
    refine ⟨fun p hp => ?_, dirInsert_sorted n x d h.2⟩
    rcases mem_dirInsert n x p d hp with hp | hp
    · rw [hp]; exact hx
    · exact h.1 p hp

/-- R6: an assignment's clearing keeps the form of the directories. -/
theorem dirWf_dirClear {d : List (Nat × Frame)} (b : Book) (h : dirWf d = true) : dirWf (dirClear d b) = true := dirWf_filter _ h

theorem dirWf_nil : dirWf [] = true := rfl

/-- R12: a look down finds the nearest frame that counts as a head, with none between that ends the look. -/
theorem headSearch_eq_some_iff {mark : Nat → HeadMark} {h : Nat} {c : FeeClass} : ∀ {f : Nat},
    headSearch mark f = some (h, c) ↔ h < f ∧ mark h = .head c ∧ ∀ k, h < k → k < f → mark k = .cont ∨ mark k = .pass
  | 0 => by simp [headSearch]
  | f + 1 => by
    have ih := @headSearch_eq_some_iff mark h c f
    rcases Nat.lt_trichotomy h f with hf | rfl | hf
    · cases hm : mark f <;> simp only [headSearch, hm, ih]
      case head d =>
        exact ⟨fun e => by simp at e; omega, fun ⟨_, _, k⟩ => by have := k f hf (by omega); simp [hm] at this⟩
      case none => exact ⟨fun e => by simp at e, fun ⟨_, _, k⟩ => by have := k f hf (by omega); simp [hm] at this⟩
      all_goals exact ⟨fun ⟨a, b, k⟩ => ⟨by omega, b, fun n h1 h2 => by
          rcases Nat.lt_succ_iff_lt_or_eq.mp h2 with h3 | rfl
          · exact k n h1 h3
          · simp [hm]⟩,
        fun ⟨_, b, k⟩ => ⟨hf, b, fun n h1 h2 => k n h1 (by omega)⟩⟩
    · cases hm : mark h <;> simp only [headSearch, hm, ih]
      case head d => exact ⟨fun e => ⟨by omega, by simp_all, fun k h1 h2 => by omega⟩, fun ⟨_, e, _⟩ => by simp_all⟩
      all_goals simp
    · refine ⟨fun e => absurd e ?_, fun ⟨a, _⟩ => by omega⟩
      cases hm : mark f <;> simp only [headSearch, hm, ih] <;> simp <;> omega

/-- R35, check 7: a look down finds an instrument to continue at the nearest frame that is not passed over. -/
theorem hasInstrument_iff {mark : Nat → HeadMark} : ∀ {f : Nat},
    hasInstrument mark f = true ↔ ∃ h, h < f ∧ ((∃ c, mark h = .head c) ∨ mark h = .cont) ∧ ∀ k, h < k → k < f → mark k = .pass
  | 0 => by simp [hasInstrument]
  | f + 1 => by
    have ih := @hasInstrument_iff mark f
    cases hm : mark f <;> simp only [hasInstrument, hm, ih]
    case head d => exact ⟨fun _ => ⟨f, by omega, .inl ⟨d, hm⟩, fun k h1 h2 => by omega⟩, fun _ => trivial⟩
    case cont => exact ⟨fun _ => ⟨f, by omega, .inr hm, fun k h1 h2 => by omega⟩, fun _ => trivial⟩
    case pass =>
      refine ⟨fun ⟨h, a, b, k⟩ => ⟨h, by omega, b, fun n h1 h2 => ?_⟩, fun ⟨h, a, b, k⟩ => ⟨h, ?_, b, fun n h1 h2 => k n h1 (by omega)⟩⟩
      · rcases Nat.lt_succ_iff_lt_or_eq.mp h2 with h3 | rfl
        · exact k n h1 h3
        · exact hm
      · rcases Nat.lt_succ_iff_lt_or_eq.mp a with h3 | rfl
        · exact h3
        · simp [hm] at b
    case none =>
      refine ⟨fun e => by simp at e, fun ⟨h, a, b, k⟩ => ?_⟩
      rcases Nat.lt_succ_iff_lt_or_eq.mp a with h3 | rfl
      · have := k f h3 (by omega); simp [hm] at this
      · simp [hm] at b

end Sys2Proof.Machine
end

