-- ==== Sys2Proof/Laws/State.lean ====
section
/-! SUPPORT. One lemma for each field of the library under each update of it, and the reads of the tables after a write, so that no proof unfolds an
update. -/

namespace Sys2Proof

set_option Elab.async false

/-- A table read after a write at the same index. -/
@[simp] theorem look_put_same {α : Type} {n : Nat} (t : Vector α n) (i : Fin n) (x : α) : look (put t i x) i = x := by
  simp [look, put]

/-- A table read after a write at another index. -/
theorem look_put_ne {α : Type} {n : Nat} (t : Vector α n) {i j : Fin n} (x : α) (h : i ≠ j) : look (put t i x) j = look t j := by
  simp only [look, put]
  exact Vector.getElem_set_ne _ _ (fun e => h (Fin.ext e))

/-- A table read after a write. -/
theorem look_put {α : Type} {n : Nat} (t : Vector α n) (i j : Fin n) (x : α) :
    look (put t i x) j = if i = j then x else look t j := by
  by_cases h : i = j
  · subst h; simp
  · simp [h, look_put_ne]

/-- A table read after every entry has been changed. -/
@[simp] theorem look_map {α β : Type} {n : Nat} (f : α → β) (t : Vector α n) (i : Fin n) : look (t.map f) i = f (look t i) := by
  simp [look]

/-- A table filled with one value. -/
@[simp] theorem look_replicate {α : Type} {n : Nat} (x : α) (i : Fin n) : look (Vector.replicate n x) i = x := by
  simp [look]

namespace Machine

variable (l : Library)

@[simp] theorem Library.setEntry_books (t : Tag) (x : Option Entry) : (l.setEntry t x).books = l.books := rfl
@[simp] theorem Library.setEntry_roles (t : Tag) (x : Option Entry) : (l.setEntry t x).roles = l.roles := rfl
@[simp] theorem Library.setEntry_buffer (t : Tag) (x : Option Entry) : (l.setEntry t x).buffer = l.buffer := rfl
@[simp] theorem Library.setEntry_twins (t : Tag) (x : Option Entry) : (l.setEntry t x).twins = l.twins := rfl
@[simp] theorem Library.setEntry_drives (t : Tag) (x : Option Entry) : (l.setEntry t x).drives = l.drives := rfl
@[simp] theorem Library.setEntry_picker (t : Tag) (x : Option Entry) : (l.setEntry t x).picker = l.picker := rfl
@[simp] theorem Library.setEntry_scheduler (t : Tag) (x : Option Entry) : (l.setEntry t x).scheduler = l.scheduler := rfl
@[simp] theorem Library.setEntry_care (t : Tag) (x : Option Entry) : (l.setEntry t x).care = l.care := rfl
@[simp] theorem Library.setEntry_log (t : Tag) (x : Option Entry) : (l.setEntry t x).log = l.log := rfl
@[simp] theorem Library.setEntry_out (t : Tag) (x : Option Entry) : (l.setEntry t x).out = l.out := rfl

@[simp] theorem Library.setBook_front (b : Book) (x : BookEntry) : (l.setBook b x).front = l.front := rfl
@[simp] theorem Library.setBook_roles (b : Book) (x : BookEntry) : (l.setBook b x).roles = l.roles := rfl
@[simp] theorem Library.setBook_buffer (b : Book) (x : BookEntry) : (l.setBook b x).buffer = l.buffer := rfl
@[simp] theorem Library.setBook_twins (b : Book) (x : BookEntry) : (l.setBook b x).twins = l.twins := rfl
@[simp] theorem Library.setBook_drives (b : Book) (x : BookEntry) : (l.setBook b x).drives = l.drives := rfl
@[simp] theorem Library.setBook_picker (b : Book) (x : BookEntry) : (l.setBook b x).picker = l.picker := rfl
@[simp] theorem Library.setBook_scheduler (b : Book) (x : BookEntry) : (l.setBook b x).scheduler = l.scheduler := rfl
@[simp] theorem Library.setBook_care (b : Book) (x : BookEntry) : (l.setBook b x).care = l.care := rfl
@[simp] theorem Library.setBook_log (b : Book) (x : BookEntry) : (l.setBook b x).log = l.log := rfl
@[simp] theorem Library.setBook_out (b : Book) (x : BookEntry) : (l.setBook b x).out = l.out := rfl

@[simp] theorem Library.setRole_front (s : Side) (x : Role) : (l.setRole s x).front = l.front := rfl
@[simp] theorem Library.setRole_books (s : Side) (x : Role) : (l.setRole s x).books = l.books := rfl
@[simp] theorem Library.setRole_buffer (s : Side) (x : Role) : (l.setRole s x).buffer = l.buffer := rfl
@[simp] theorem Library.setRole_twins (s : Side) (x : Role) : (l.setRole s x).twins = l.twins := rfl
@[simp] theorem Library.setRole_drives (s : Side) (x : Role) : (l.setRole s x).drives = l.drives := rfl
@[simp] theorem Library.setRole_picker (s : Side) (x : Role) : (l.setRole s x).picker = l.picker := rfl
@[simp] theorem Library.setRole_scheduler (s : Side) (x : Role) : (l.setRole s x).scheduler = l.scheduler := rfl
@[simp] theorem Library.setRole_care (s : Side) (x : Role) : (l.setRole s x).care = l.care := rfl
@[simp] theorem Library.setRole_log (s : Side) (x : Role) : (l.setRole s x).log = l.log := rfl
@[simp] theorem Library.setRole_out (s : Side) (x : Role) : (l.setRole s x).out = l.out := rfl

@[simp] theorem Library.setTwin_front (b : Book) (x : TwinRecord) : (l.setTwin b x).front = l.front := rfl
@[simp] theorem Library.setTwin_books (b : Book) (x : TwinRecord) : (l.setTwin b x).books = l.books := rfl
@[simp] theorem Library.setTwin_roles (b : Book) (x : TwinRecord) : (l.setTwin b x).roles = l.roles := rfl
@[simp] theorem Library.setTwin_buffer (b : Book) (x : TwinRecord) : (l.setTwin b x).buffer = l.buffer := rfl
@[simp] theorem Library.setTwin_drives (b : Book) (x : TwinRecord) : (l.setTwin b x).drives = l.drives := rfl
@[simp] theorem Library.setTwin_picker (b : Book) (x : TwinRecord) : (l.setTwin b x).picker = l.picker := rfl
@[simp] theorem Library.setTwin_scheduler (b : Book) (x : TwinRecord) : (l.setTwin b x).scheduler = l.scheduler := rfl
@[simp] theorem Library.setTwin_care (b : Book) (x : TwinRecord) : (l.setTwin b x).care = l.care := rfl
@[simp] theorem Library.setTwin_log (b : Book) (x : TwinRecord) : (l.setTwin b x).log = l.log := rfl
@[simp] theorem Library.setTwin_out (b : Book) (x : TwinRecord) : (l.setTwin b x).out = l.out := rfl

@[simp] theorem Library.setDrive_front (d : Drive) (x : DriveRecord) : (l.setDrive d x).front = l.front := rfl
@[simp] theorem Library.setDrive_books (d : Drive) (x : DriveRecord) : (l.setDrive d x).books = l.books := rfl
@[simp] theorem Library.setDrive_roles (d : Drive) (x : DriveRecord) : (l.setDrive d x).roles = l.roles := rfl
@[simp] theorem Library.setDrive_buffer (d : Drive) (x : DriveRecord) : (l.setDrive d x).buffer = l.buffer := rfl
@[simp] theorem Library.setDrive_twins (d : Drive) (x : DriveRecord) : (l.setDrive d x).twins = l.twins := rfl
@[simp] theorem Library.setDrive_picker (d : Drive) (x : DriveRecord) : (l.setDrive d x).picker = l.picker := rfl
@[simp] theorem Library.setDrive_scheduler (d : Drive) (x : DriveRecord) : (l.setDrive d x).scheduler = l.scheduler := rfl
@[simp] theorem Library.setDrive_care (d : Drive) (x : DriveRecord) : (l.setDrive d x).care = l.care := rfl
@[simp] theorem Library.setDrive_log (d : Drive) (x : DriveRecord) : (l.setDrive d x).log = l.log := rfl
@[simp] theorem Library.setDrive_out (d : Drive) (x : DriveRecord) : (l.setDrive d x).out = l.out := rfl

@[simp] theorem Library.setItems_front (s : Side) (x : List Item) : (l.setItems s x).front = l.front := rfl
@[simp] theorem Library.setItems_books (s : Side) (x : List Item) : (l.setItems s x).books = l.books := rfl
@[simp] theorem Library.setItems_roles (s : Side) (x : List Item) : (l.setItems s x).roles = l.roles := rfl
@[simp] theorem Library.setItems_buffer (s : Side) (x : List Item) : (l.setItems s x).buffer = l.buffer := rfl
@[simp] theorem Library.setItems_twins (s : Side) (x : List Item) : (l.setItems s x).twins = l.twins := rfl
@[simp] theorem Library.setItems_drives (s : Side) (x : List Item) : (l.setItems s x).drives = l.drives := rfl
@[simp] theorem Library.setItems_picker (s : Side) (x : List Item) : (l.setItems s x).picker = l.picker := rfl
@[simp] theorem Library.setItems_care (s : Side) (x : List Item) : (l.setItems s x).care = l.care := rfl
@[simp] theorem Library.setItems_log (s : Side) (x : List Item) : (l.setItems s x).log = l.log := rfl
@[simp] theorem Library.setItems_out (s : Side) (x : List Item) : (l.setItems s x).out = l.out := rfl

@[simp] theorem Library.setHealth_front (s : Side) (x : Health) : (l.setHealth s x).front = l.front := rfl
@[simp] theorem Library.setHealth_books (s : Side) (x : Health) : (l.setHealth s x).books = l.books := rfl
@[simp] theorem Library.setHealth_roles (s : Side) (x : Health) : (l.setHealth s x).roles = l.roles := rfl
@[simp] theorem Library.setHealth_buffer (s : Side) (x : Health) : (l.setHealth s x).buffer = l.buffer := rfl
@[simp] theorem Library.setHealth_twins (s : Side) (x : Health) : (l.setHealth s x).twins = l.twins := rfl
@[simp] theorem Library.setHealth_drives (s : Side) (x : Health) : (l.setHealth s x).drives = l.drives := rfl
@[simp] theorem Library.setHealth_picker (s : Side) (x : Health) : (l.setHealth s x).picker = l.picker := rfl
@[simp] theorem Library.setHealth_scheduler (s : Side) (x : Health) : (l.setHealth s x).scheduler = l.scheduler := rfl
@[simp] theorem Library.setHealth_log (s : Side) (x : Health) : (l.setHealth s x).log = l.log := rfl
@[simp] theorem Library.setHealth_out (s : Side) (x : Health) : (l.setHealth s x).out = l.out := rfl

@[simp] theorem Library.setLocation_front (s : Slot) (x : Location) : (l.setLocation s x).front = l.front := rfl
@[simp] theorem Library.setLocation_books (s : Slot) (x : Location) : (l.setLocation s x).books = l.books := rfl
@[simp] theorem Library.setLocation_roles (s : Slot) (x : Location) : (l.setLocation s x).roles = l.roles := rfl
@[simp] theorem Library.setLocation_buffer (s : Slot) (x : Location) : (l.setLocation s x).buffer = l.buffer := rfl
@[simp] theorem Library.setLocation_twins (s : Slot) (x : Location) : (l.setLocation s x).twins = l.twins := rfl
@[simp] theorem Library.setLocation_drives (s : Slot) (x : Location) : (l.setLocation s x).drives = l.drives := rfl
@[simp] theorem Library.setLocation_scheduler (s : Slot) (x : Location) : (l.setLocation s x).scheduler = l.scheduler := rfl
@[simp] theorem Library.setLocation_care (s : Slot) (x : Location) : (l.setLocation s x).care = l.care := rfl
@[simp] theorem Library.setLocation_log (s : Slot) (x : Location) : (l.setLocation s x).log = l.log := rfl
@[simp] theorem Library.setLocation_out (s : Slot) (x : Location) : (l.setLocation s x).out = l.out := rfl

@[simp] theorem Library.setSeated_front (s : Slot) (x : Bool) : (l.setSeated s x).front = l.front := rfl
@[simp] theorem Library.setSeated_books (s : Slot) (x : Bool) : (l.setSeated s x).books = l.books := rfl
@[simp] theorem Library.setSeated_roles (s : Slot) (x : Bool) : (l.setSeated s x).roles = l.roles := rfl
@[simp] theorem Library.setSeated_buffer (s : Slot) (x : Bool) : (l.setSeated s x).buffer = l.buffer := rfl
@[simp] theorem Library.setSeated_twins (s : Slot) (x : Bool) : (l.setSeated s x).twins = l.twins := rfl
@[simp] theorem Library.setSeated_drives (s : Slot) (x : Bool) : (l.setSeated s x).drives = l.drives := rfl
@[simp] theorem Library.setSeated_scheduler (s : Slot) (x : Bool) : (l.setSeated s x).scheduler = l.scheduler := rfl
@[simp] theorem Library.setSeated_care (s : Slot) (x : Bool) : (l.setSeated s x).care = l.care := rfl
@[simp] theorem Library.setSeated_log (s : Slot) (x : Bool) : (l.setSeated s x).log = l.log := rfl
@[simp] theorem Library.setSeated_out (s : Slot) (x : Bool) : (l.setSeated s x).out = l.out := rfl

@[simp] theorem Library.emit_front (o : Output) : (l.emit o).front = l.front := rfl
@[simp] theorem Library.emit_books (o : Output) : (l.emit o).books = l.books := rfl
@[simp] theorem Library.emit_roles (o : Output) : (l.emit o).roles = l.roles := rfl
@[simp] theorem Library.emit_buffer (o : Output) : (l.emit o).buffer = l.buffer := rfl
@[simp] theorem Library.emit_twins (o : Output) : (l.emit o).twins = l.twins := rfl
@[simp] theorem Library.emit_drives (o : Output) : (l.emit o).drives = l.drives := rfl
@[simp] theorem Library.emit_picker (o : Output) : (l.emit o).picker = l.picker := rfl
@[simp] theorem Library.emit_scheduler (o : Output) : (l.emit o).scheduler = l.scheduler := rfl
@[simp] theorem Library.emit_care (o : Output) : (l.emit o).care = l.care := rfl
@[simp] theorem Library.emit_log (o : Output) : (l.emit o).log = l.log := rfl

@[simp] theorem Library.callDecision_front : (l.callDecision).front = l.front := rfl
@[simp] theorem Library.callDecision_books : (l.callDecision).books = l.books := rfl
@[simp] theorem Library.callDecision_roles : (l.callDecision).roles = l.roles := rfl
@[simp] theorem Library.callDecision_buffer : (l.callDecision).buffer = l.buffer := rfl
@[simp] theorem Library.callDecision_twins : (l.callDecision).twins = l.twins := rfl
@[simp] theorem Library.callDecision_drives : (l.callDecision).drives = l.drives := rfl
@[simp] theorem Library.callDecision_picker : (l.callDecision).picker = l.picker := rfl
@[simp] theorem Library.callDecision_care : (l.callDecision).care = l.care := rfl
@[simp] theorem Library.callDecision_log : (l.callDecision).log = l.log := rfl
@[simp] theorem Library.callDecision_out : (l.callDecision).out = l.out := rfl

@[simp] theorem Library.callPatrol_front : (l.callPatrol).front = l.front := rfl
@[simp] theorem Library.callPatrol_books : (l.callPatrol).books = l.books := rfl
@[simp] theorem Library.callPatrol_roles : (l.callPatrol).roles = l.roles := rfl
@[simp] theorem Library.callPatrol_buffer : (l.callPatrol).buffer = l.buffer := rfl
@[simp] theorem Library.callPatrol_twins : (l.callPatrol).twins = l.twins := rfl
@[simp] theorem Library.callPatrol_drives : (l.callPatrol).drives = l.drives := rfl
@[simp] theorem Library.callPatrol_picker : (l.callPatrol).picker = l.picker := rfl
@[simp] theorem Library.callPatrol_scheduler : (l.callPatrol).scheduler = l.scheduler := rfl
@[simp] theorem Library.callPatrol_log : (l.callPatrol).log = l.log := rfl
@[simp] theorem Library.callPatrol_out : (l.callPatrol).out = l.out := rfl

@[simp] theorem Library.callRescue_front : (l.callRescue).front = l.front := rfl
@[simp] theorem Library.callRescue_books : (l.callRescue).books = l.books := rfl
@[simp] theorem Library.callRescue_roles : (l.callRescue).roles = l.roles := rfl
@[simp] theorem Library.callRescue_buffer : (l.callRescue).buffer = l.buffer := rfl
@[simp] theorem Library.callRescue_twins : (l.callRescue).twins = l.twins := rfl
@[simp] theorem Library.callRescue_drives : (l.callRescue).drives = l.drives := rfl
@[simp] theorem Library.callRescue_picker : (l.callRescue).picker = l.picker := rfl
@[simp] theorem Library.callRescue_scheduler : (l.callRescue).scheduler = l.scheduler := rfl
@[simp] theorem Library.callRescue_log : (l.callRescue).log = l.log := rfl
@[simp] theorem Library.callRescue_out : (l.callRescue).out = l.out := rfl

@[simp] theorem Library.fault_front (e : Env) (r : FaultRecord) : (Library.fault e l r).front = l.front := rfl
@[simp] theorem Library.fault_books (e : Env) (r : FaultRecord) : (Library.fault e l r).books = l.books := rfl
@[simp] theorem Library.fault_roles (e : Env) (r : FaultRecord) : (Library.fault e l r).roles = l.roles := rfl
@[simp] theorem Library.fault_buffer (e : Env) (r : FaultRecord) : (Library.fault e l r).buffer = l.buffer := rfl
@[simp] theorem Library.fault_twins (e : Env) (r : FaultRecord) : (Library.fault e l r).twins = l.twins := rfl
@[simp] theorem Library.fault_drives (e : Env) (r : FaultRecord) : (Library.fault e l r).drives = l.drives := rfl
@[simp] theorem Library.fault_picker (e : Env) (r : FaultRecord) : (Library.fault e l r).picker = l.picker := rfl
@[simp] theorem Library.fault_scheduler (e : Env) (r : FaultRecord) : (Library.fault e l r).scheduler = l.scheduler := rfl
@[simp] theorem Library.fault_care (e : Env) (r : FaultRecord) : (Library.fault e l r).care = l.care := rfl
@[simp] theorem Library.fault_out (e : Env) (r : FaultRecord) : (Library.fault e l r).out = l.out := rfl

@[simp] theorem Library.withdraw_front (s : Side) (k : ItemKind) : (l.withdraw s k).front = l.front := rfl
@[simp] theorem Library.withdraw_books (s : Side) (k : ItemKind) : (l.withdraw s k).books = l.books := rfl
@[simp] theorem Library.withdraw_roles (s : Side) (k : ItemKind) : (l.withdraw s k).roles = l.roles := rfl
@[simp] theorem Library.withdraw_buffer (s : Side) (k : ItemKind) : (l.withdraw s k).buffer = l.buffer := rfl
@[simp] theorem Library.withdraw_twins (s : Side) (k : ItemKind) : (l.withdraw s k).twins = l.twins := rfl
@[simp] theorem Library.withdraw_drives (s : Side) (k : ItemKind) : (l.withdraw s k).drives = l.drives := rfl
@[simp] theorem Library.withdraw_picker (s : Side) (k : ItemKind) : (l.withdraw s k).picker = l.picker := rfl
@[simp] theorem Library.withdraw_care (s : Side) (k : ItemKind) : (l.withdraw s k).care = l.care := rfl
@[simp] theorem Library.withdraw_log (s : Side) (k : ItemKind) : (l.withdraw s k).log = l.log := rfl
@[simp] theorem Library.withdraw_out (s : Side) (k : ItemKind) : (l.withdraw s k).out = l.out := rfl

@[simp] theorem Library.withdrawAll_front (p : ItemKind → Bool) : (l.withdrawAll p).front = l.front := rfl
@[simp] theorem Library.withdrawAll_books (p : ItemKind → Bool) : (l.withdrawAll p).books = l.books := rfl
@[simp] theorem Library.withdrawAll_roles (p : ItemKind → Bool) : (l.withdrawAll p).roles = l.roles := rfl
@[simp] theorem Library.withdrawAll_buffer (p : ItemKind → Bool) : (l.withdrawAll p).buffer = l.buffer := rfl
@[simp] theorem Library.withdrawAll_twins (p : ItemKind → Bool) : (l.withdrawAll p).twins = l.twins := rfl
@[simp] theorem Library.withdrawAll_drives (p : ItemKind → Bool) : (l.withdrawAll p).drives = l.drives := rfl
@[simp] theorem Library.withdrawAll_picker (p : ItemKind → Bool) : (l.withdrawAll p).picker = l.picker := rfl
@[simp] theorem Library.withdrawAll_care (p : ItemKind → Bool) : (l.withdrawAll p).care = l.care := rfl
@[simp] theorem Library.withdrawAll_log (p : ItemKind → Bool) : (l.withdrawAll p).log = l.log := rfl
@[simp] theorem Library.withdrawAll_out (p : ItemKind → Bool) : (l.withdrawAll p).out = l.out := rfl

@[simp] theorem Library.giveBack_front (s : Side) (i : Item) : (l.giveBack s i).front = l.front := rfl
@[simp] theorem Library.giveBack_books (s : Side) (i : Item) : (l.giveBack s i).books = l.books := rfl
@[simp] theorem Library.giveBack_roles (s : Side) (i : Item) : (l.giveBack s i).roles = l.roles := rfl
@[simp] theorem Library.giveBack_buffer (s : Side) (i : Item) : (l.giveBack s i).buffer = l.buffer := rfl
@[simp] theorem Library.giveBack_twins (s : Side) (i : Item) : (l.giveBack s i).twins = l.twins := rfl
@[simp] theorem Library.giveBack_drives (s : Side) (i : Item) : (l.giveBack s i).drives = l.drives := rfl
@[simp] theorem Library.giveBack_picker (s : Side) (i : Item) : (l.giveBack s i).picker = l.picker := rfl
@[simp] theorem Library.giveBack_care (s : Side) (i : Item) : (l.giveBack s i).care = l.care := rfl
@[simp] theorem Library.giveBack_log (s : Side) (i : Item) : (l.giveBack s i).log = l.log := rfl
@[simp] theorem Library.giveBack_out (s : Side) (i : Item) : (l.giveBack s i).out = l.out := rfl

@[simp] theorem Library.mapCommands_front (f : Command → Command) : (l.mapCommands f).front = l.front := rfl
@[simp] theorem Library.mapCommands_books (f : Command → Command) : (l.mapCommands f).books = l.books := rfl
@[simp] theorem Library.mapCommands_roles (f : Command → Command) : (l.mapCommands f).roles = l.roles := rfl
@[simp] theorem Library.mapCommands_buffer (f : Command → Command) : (l.mapCommands f).buffer = l.buffer := rfl
@[simp] theorem Library.mapCommands_twins (f : Command → Command) : (l.mapCommands f).twins = l.twins := rfl
@[simp] theorem Library.mapCommands_picker (f : Command → Command) : (l.mapCommands f).picker = l.picker := rfl
@[simp] theorem Library.mapCommands_scheduler (f : Command → Command) : (l.mapCommands f).scheduler = l.scheduler := rfl
@[simp] theorem Library.mapCommands_care (f : Command → Command) : (l.mapCommands f).care = l.care := rfl
@[simp] theorem Library.mapCommands_log (f : Command → Command) : (l.mapCommands f).log = l.log := rfl
@[simp] theorem Library.mapCommands_out (f : Command → Command) : (l.mapCommands f).out = l.out := rfl

/-! ## Reads of the tables after writes -/

theorem Library.setEntry_entry (i j : Tag) (x : Option Entry) : (l.setEntry i x).entry j = if i = j then x else l.entry j := look_put ..
@[simp] theorem Library.setEntry_entry_same (i : Tag) (x : Option Entry) : (l.setEntry i x).entry i = x := look_put_same ..
theorem Library.setBook_book (i j : Book) (x : BookEntry) : (l.setBook i x).book j = if i = j then x else l.book j := look_put ..
@[simp] theorem Library.setBook_book_same (i : Book) (x : BookEntry) : (l.setBook i x).book i = x := look_put_same ..
theorem Library.setRole_role (i j : Side) (x : Role) : (l.setRole i x).role j = if i = j then x else l.role j := look_put ..
@[simp] theorem Library.setRole_role_same (i : Side) (x : Role) : (l.setRole i x).role i = x := look_put_same ..
theorem Library.setTwin_twin (i j : Book) (x : TwinRecord) : (l.setTwin i x).twin j = if i = j then x else l.twin j := look_put ..
@[simp] theorem Library.setTwin_twin_same (i : Book) (x : TwinRecord) : (l.setTwin i x).twin i = x := look_put_same ..
theorem Library.setDrive_drive (i j : Drive) (x : DriveRecord) : (l.setDrive i x).drive j = if i = j then x else l.drive j := look_put ..
@[simp] theorem Library.setDrive_drive_same (i : Drive) (x : DriveRecord) : (l.setDrive i x).drive i = x := look_put_same ..
theorem Library.setItems_items (i j : Side) (x : List Item) : (l.setItems i x).items j = if i = j then x else l.items j := look_put ..
@[simp] theorem Library.setItems_items_same (i : Side) (x : List Item) : (l.setItems i x).items i = x := look_put_same ..
theorem Library.setHealth_health (i j : Side) (x : Health) : (l.setHealth i x).health j = if i = j then x else l.health j := look_put ..
@[simp] theorem Library.setHealth_health_same (i : Side) (x : Health) : (l.setHealth i x).health i = x := look_put_same ..
theorem Library.setLocation_location (i j : Slot) (x : Location) : (l.setLocation i x).location j = if i = j then x else l.location j := look_put ..
@[simp] theorem Library.setLocation_location_same (i : Slot) (x : Location) : (l.setLocation i x).location i = x := look_put_same ..
theorem Library.setSeated_seated (i j : Slot) (x : Bool) : (l.setSeated i x).seated j = if i = j then x else l.seated j := look_put ..
@[simp] theorem Library.setSeated_seated_same (i : Slot) (x : Bool) : (l.setSeated i x).seated i = x := look_put_same ..

@[simp] theorem Library.setEntry_book (t : Tag) (x : Option Entry) (i : Book) : (l.setEntry t x).book i = l.book i := rfl
@[simp] theorem Library.setEntry_role (t : Tag) (x : Option Entry) (i : Side) : (l.setEntry t x).role i = l.role i := rfl
@[simp] theorem Library.setEntry_twin (t : Tag) (x : Option Entry) (i : Book) : (l.setEntry t x).twin i = l.twin i := rfl
@[simp] theorem Library.setEntry_drive (t : Tag) (x : Option Entry) (i : Drive) : (l.setEntry t x).drive i = l.drive i := rfl
@[simp] theorem Library.setEntry_items (t : Tag) (x : Option Entry) (i : Side) : (l.setEntry t x).items i = l.items i := rfl
@[simp] theorem Library.setEntry_health (t : Tag) (x : Option Entry) (i : Side) : (l.setEntry t x).health i = l.health i := rfl
@[simp] theorem Library.setEntry_location (t : Tag) (x : Option Entry) (i : Slot) : (l.setEntry t x).location i = l.location i := rfl
@[simp] theorem Library.setEntry_seated (t : Tag) (x : Option Entry) (i : Slot) : (l.setEntry t x).seated i = l.seated i := rfl

@[simp] theorem Library.setBook_entry (b : Book) (x : BookEntry) (i : Tag) : (l.setBook b x).entry i = l.entry i := rfl
@[simp] theorem Library.setBook_role (b : Book) (x : BookEntry) (i : Side) : (l.setBook b x).role i = l.role i := rfl
@[simp] theorem Library.setBook_twin (b : Book) (x : BookEntry) (i : Book) : (l.setBook b x).twin i = l.twin i := rfl
@[simp] theorem Library.setBook_drive (b : Book) (x : BookEntry) (i : Drive) : (l.setBook b x).drive i = l.drive i := rfl
@[simp] theorem Library.setBook_items (b : Book) (x : BookEntry) (i : Side) : (l.setBook b x).items i = l.items i := rfl
@[simp] theorem Library.setBook_health (b : Book) (x : BookEntry) (i : Side) : (l.setBook b x).health i = l.health i := rfl
@[simp] theorem Library.setBook_location (b : Book) (x : BookEntry) (i : Slot) : (l.setBook b x).location i = l.location i := rfl
@[simp] theorem Library.setBook_seated (b : Book) (x : BookEntry) (i : Slot) : (l.setBook b x).seated i = l.seated i := rfl

@[simp] theorem Library.setRole_entry (s : Side) (x : Role) (i : Tag) : (l.setRole s x).entry i = l.entry i := rfl
@[simp] theorem Library.setRole_book (s : Side) (x : Role) (i : Book) : (l.setRole s x).book i = l.book i := rfl
@[simp] theorem Library.setRole_twin (s : Side) (x : Role) (i : Book) : (l.setRole s x).twin i = l.twin i := rfl
@[simp] theorem Library.setRole_drive (s : Side) (x : Role) (i : Drive) : (l.setRole s x).drive i = l.drive i := rfl
@[simp] theorem Library.setRole_items (s : Side) (x : Role) (i : Side) : (l.setRole s x).items i = l.items i := rfl
@[simp] theorem Library.setRole_health (s : Side) (x : Role) (i : Side) : (l.setRole s x).health i = l.health i := rfl
@[simp] theorem Library.setRole_location (s : Side) (x : Role) (i : Slot) : (l.setRole s x).location i = l.location i := rfl
@[simp] theorem Library.setRole_seated (s : Side) (x : Role) (i : Slot) : (l.setRole s x).seated i = l.seated i := rfl

@[simp] theorem Library.setTwin_entry (b : Book) (x : TwinRecord) (i : Tag) : (l.setTwin b x).entry i = l.entry i := rfl
@[simp] theorem Library.setTwin_book (b : Book) (x : TwinRecord) (i : Book) : (l.setTwin b x).book i = l.book i := rfl
@[simp] theorem Library.setTwin_role (b : Book) (x : TwinRecord) (i : Side) : (l.setTwin b x).role i = l.role i := rfl
@[simp] theorem Library.setTwin_drive (b : Book) (x : TwinRecord) (i : Drive) : (l.setTwin b x).drive i = l.drive i := rfl
@[simp] theorem Library.setTwin_items (b : Book) (x : TwinRecord) (i : Side) : (l.setTwin b x).items i = l.items i := rfl
@[simp] theorem Library.setTwin_health (b : Book) (x : TwinRecord) (i : Side) : (l.setTwin b x).health i = l.health i := rfl
@[simp] theorem Library.setTwin_location (b : Book) (x : TwinRecord) (i : Slot) : (l.setTwin b x).location i = l.location i := rfl
@[simp] theorem Library.setTwin_seated (b : Book) (x : TwinRecord) (i : Slot) : (l.setTwin b x).seated i = l.seated i := rfl

@[simp] theorem Library.setDrive_entry (d : Drive) (x : DriveRecord) (i : Tag) : (l.setDrive d x).entry i = l.entry i := rfl
@[simp] theorem Library.setDrive_book (d : Drive) (x : DriveRecord) (i : Book) : (l.setDrive d x).book i = l.book i := rfl
@[simp] theorem Library.setDrive_role (d : Drive) (x : DriveRecord) (i : Side) : (l.setDrive d x).role i = l.role i := rfl
@[simp] theorem Library.setDrive_twin (d : Drive) (x : DriveRecord) (i : Book) : (l.setDrive d x).twin i = l.twin i := rfl
@[simp] theorem Library.setDrive_items (d : Drive) (x : DriveRecord) (i : Side) : (l.setDrive d x).items i = l.items i := rfl
@[simp] theorem Library.setDrive_health (d : Drive) (x : DriveRecord) (i : Side) : (l.setDrive d x).health i = l.health i := rfl
@[simp] theorem Library.setDrive_location (d : Drive) (x : DriveRecord) (i : Slot) : (l.setDrive d x).location i = l.location i := rfl
@[simp] theorem Library.setDrive_seated (d : Drive) (x : DriveRecord) (i : Slot) : (l.setDrive d x).seated i = l.seated i := rfl

@[simp] theorem Library.setItems_entry (s : Side) (x : List Item) (i : Tag) : (l.setItems s x).entry i = l.entry i := rfl
@[simp] theorem Library.setItems_book (s : Side) (x : List Item) (i : Book) : (l.setItems s x).book i = l.book i := rfl
@[simp] theorem Library.setItems_role (s : Side) (x : List Item) (i : Side) : (l.setItems s x).role i = l.role i := rfl
@[simp] theorem Library.setItems_twin (s : Side) (x : List Item) (i : Book) : (l.setItems s x).twin i = l.twin i := rfl
@[simp] theorem Library.setItems_drive (s : Side) (x : List Item) (i : Drive) : (l.setItems s x).drive i = l.drive i := rfl
@[simp] theorem Library.setItems_health (s : Side) (x : List Item) (i : Side) : (l.setItems s x).health i = l.health i := rfl
@[simp] theorem Library.setItems_location (s : Side) (x : List Item) (i : Slot) : (l.setItems s x).location i = l.location i := rfl
@[simp] theorem Library.setItems_seated (s : Side) (x : List Item) (i : Slot) : (l.setItems s x).seated i = l.seated i := rfl

@[simp] theorem Library.setHealth_entry (s : Side) (x : Health) (i : Tag) : (l.setHealth s x).entry i = l.entry i := rfl
@[simp] theorem Library.setHealth_book (s : Side) (x : Health) (i : Book) : (l.setHealth s x).book i = l.book i := rfl
@[simp] theorem Library.setHealth_role (s : Side) (x : Health) (i : Side) : (l.setHealth s x).role i = l.role i := rfl
@[simp] theorem Library.setHealth_twin (s : Side) (x : Health) (i : Book) : (l.setHealth s x).twin i = l.twin i := rfl
@[simp] theorem Library.setHealth_drive (s : Side) (x : Health) (i : Drive) : (l.setHealth s x).drive i = l.drive i := rfl
@[simp] theorem Library.setHealth_items (s : Side) (x : Health) (i : Side) : (l.setHealth s x).items i = l.items i := rfl
@[simp] theorem Library.setHealth_location (s : Side) (x : Health) (i : Slot) : (l.setHealth s x).location i = l.location i := rfl
@[simp] theorem Library.setHealth_seated (s : Side) (x : Health) (i : Slot) : (l.setHealth s x).seated i = l.seated i := rfl

@[simp] theorem Library.setLocation_entry (s : Slot) (x : Location) (i : Tag) : (l.setLocation s x).entry i = l.entry i := rfl
@[simp] theorem Library.setLocation_book (s : Slot) (x : Location) (i : Book) : (l.setLocation s x).book i = l.book i := rfl
@[simp] theorem Library.setLocation_role (s : Slot) (x : Location) (i : Side) : (l.setLocation s x).role i = l.role i := rfl
@[simp] theorem Library.setLocation_twin (s : Slot) (x : Location) (i : Book) : (l.setLocation s x).twin i = l.twin i := rfl
@[simp] theorem Library.setLocation_drive (s : Slot) (x : Location) (i : Drive) : (l.setLocation s x).drive i = l.drive i := rfl
@[simp] theorem Library.setLocation_items (s : Slot) (x : Location) (i : Side) : (l.setLocation s x).items i = l.items i := rfl
@[simp] theorem Library.setLocation_health (s : Slot) (x : Location) (i : Side) : (l.setLocation s x).health i = l.health i := rfl
@[simp] theorem Library.setLocation_seated (s : Slot) (x : Location) (i : Slot) : (l.setLocation s x).seated i = l.seated i := rfl

@[simp] theorem Library.setSeated_entry (s : Slot) (x : Bool) (i : Tag) : (l.setSeated s x).entry i = l.entry i := rfl
@[simp] theorem Library.setSeated_book (s : Slot) (x : Bool) (i : Book) : (l.setSeated s x).book i = l.book i := rfl
@[simp] theorem Library.setSeated_role (s : Slot) (x : Bool) (i : Side) : (l.setSeated s x).role i = l.role i := rfl
@[simp] theorem Library.setSeated_twin (s : Slot) (x : Bool) (i : Book) : (l.setSeated s x).twin i = l.twin i := rfl
@[simp] theorem Library.setSeated_drive (s : Slot) (x : Bool) (i : Drive) : (l.setSeated s x).drive i = l.drive i := rfl
@[simp] theorem Library.setSeated_items (s : Slot) (x : Bool) (i : Side) : (l.setSeated s x).items i = l.items i := rfl
@[simp] theorem Library.setSeated_health (s : Slot) (x : Bool) (i : Side) : (l.setSeated s x).health i = l.health i := rfl
@[simp] theorem Library.setSeated_location (s : Slot) (x : Bool) (i : Slot) : (l.setSeated s x).location i = l.location i := rfl

@[simp] theorem Library.emit_entry (o : Output) (i : Tag) : (l.emit o).entry i = l.entry i := rfl
@[simp] theorem Library.emit_book (o : Output) (i : Book) : (l.emit o).book i = l.book i := rfl
@[simp] theorem Library.emit_role (o : Output) (i : Side) : (l.emit o).role i = l.role i := rfl
@[simp] theorem Library.emit_twin (o : Output) (i : Book) : (l.emit o).twin i = l.twin i := rfl
@[simp] theorem Library.emit_drive (o : Output) (i : Drive) : (l.emit o).drive i = l.drive i := rfl
@[simp] theorem Library.emit_items (o : Output) (i : Side) : (l.emit o).items i = l.items i := rfl
@[simp] theorem Library.emit_health (o : Output) (i : Side) : (l.emit o).health i = l.health i := rfl
@[simp] theorem Library.emit_location (o : Output) (i : Slot) : (l.emit o).location i = l.location i := rfl
@[simp] theorem Library.emit_seated (o : Output) (i : Slot) : (l.emit o).seated i = l.seated i := rfl

@[simp] theorem Library.callDecision_entry (i : Tag) : (l.callDecision).entry i = l.entry i := rfl
@[simp] theorem Library.callDecision_book (i : Book) : (l.callDecision).book i = l.book i := rfl
@[simp] theorem Library.callDecision_role (i : Side) : (l.callDecision).role i = l.role i := rfl
@[simp] theorem Library.callDecision_twin (i : Book) : (l.callDecision).twin i = l.twin i := rfl
@[simp] theorem Library.callDecision_drive (i : Drive) : (l.callDecision).drive i = l.drive i := rfl
@[simp] theorem Library.callDecision_items (i : Side) : (l.callDecision).items i = l.items i := rfl
@[simp] theorem Library.callDecision_health (i : Side) : (l.callDecision).health i = l.health i := rfl
@[simp] theorem Library.callDecision_location (i : Slot) : (l.callDecision).location i = l.location i := rfl
@[simp] theorem Library.callDecision_seated (i : Slot) : (l.callDecision).seated i = l.seated i := rfl

@[simp] theorem Library.callPatrol_entry (i : Tag) : (l.callPatrol).entry i = l.entry i := rfl
@[simp] theorem Library.callPatrol_book (i : Book) : (l.callPatrol).book i = l.book i := rfl
@[simp] theorem Library.callPatrol_role (i : Side) : (l.callPatrol).role i = l.role i := rfl
@[simp] theorem Library.callPatrol_twin (i : Book) : (l.callPatrol).twin i = l.twin i := rfl
@[simp] theorem Library.callPatrol_drive (i : Drive) : (l.callPatrol).drive i = l.drive i := rfl
@[simp] theorem Library.callPatrol_items (i : Side) : (l.callPatrol).items i = l.items i := rfl
@[simp] theorem Library.callPatrol_health (i : Side) : (l.callPatrol).health i = l.health i := rfl
@[simp] theorem Library.callPatrol_location (i : Slot) : (l.callPatrol).location i = l.location i := rfl
@[simp] theorem Library.callPatrol_seated (i : Slot) : (l.callPatrol).seated i = l.seated i := rfl

@[simp] theorem Library.callRescue_entry (i : Tag) : (l.callRescue).entry i = l.entry i := rfl
@[simp] theorem Library.callRescue_book (i : Book) : (l.callRescue).book i = l.book i := rfl
@[simp] theorem Library.callRescue_role (i : Side) : (l.callRescue).role i = l.role i := rfl
@[simp] theorem Library.callRescue_twin (i : Book) : (l.callRescue).twin i = l.twin i := rfl
@[simp] theorem Library.callRescue_drive (i : Drive) : (l.callRescue).drive i = l.drive i := rfl
@[simp] theorem Library.callRescue_items (i : Side) : (l.callRescue).items i = l.items i := rfl
@[simp] theorem Library.callRescue_health (i : Side) : (l.callRescue).health i = l.health i := rfl
@[simp] theorem Library.callRescue_location (i : Slot) : (l.callRescue).location i = l.location i := rfl
@[simp] theorem Library.callRescue_seated (i : Slot) : (l.callRescue).seated i = l.seated i := rfl

@[simp] theorem Library.fault_entry (e : Env) (r : FaultRecord) (i : Tag) : (Library.fault e l r).entry i = l.entry i := rfl
@[simp] theorem Library.fault_book (e : Env) (r : FaultRecord) (i : Book) : (Library.fault e l r).book i = l.book i := rfl
@[simp] theorem Library.fault_role (e : Env) (r : FaultRecord) (i : Side) : (Library.fault e l r).role i = l.role i := rfl
@[simp] theorem Library.fault_twin (e : Env) (r : FaultRecord) (i : Book) : (Library.fault e l r).twin i = l.twin i := rfl
@[simp] theorem Library.fault_drive (e : Env) (r : FaultRecord) (i : Drive) : (Library.fault e l r).drive i = l.drive i := rfl
@[simp] theorem Library.fault_items (e : Env) (r : FaultRecord) (i : Side) : (Library.fault e l r).items i = l.items i := rfl
@[simp] theorem Library.fault_health (e : Env) (r : FaultRecord) (i : Side) : (Library.fault e l r).health i = l.health i := rfl
@[simp] theorem Library.fault_location (e : Env) (r : FaultRecord) (i : Slot) : (Library.fault e l r).location i = l.location i := rfl
@[simp] theorem Library.fault_seated (e : Env) (r : FaultRecord) (i : Slot) : (Library.fault e l r).seated i = l.seated i := rfl

@[simp] theorem Library.withdraw_entry (s : Side) (k : ItemKind) (i : Tag) : (l.withdraw s k).entry i = l.entry i := rfl
@[simp] theorem Library.withdraw_book (s : Side) (k : ItemKind) (i : Book) : (l.withdraw s k).book i = l.book i := rfl
@[simp] theorem Library.withdraw_role (s : Side) (k : ItemKind) (i : Side) : (l.withdraw s k).role i = l.role i := rfl
@[simp] theorem Library.withdraw_twin (s : Side) (k : ItemKind) (i : Book) : (l.withdraw s k).twin i = l.twin i := rfl
@[simp] theorem Library.withdraw_drive (s : Side) (k : ItemKind) (i : Drive) : (l.withdraw s k).drive i = l.drive i := rfl
@[simp] theorem Library.withdraw_health (s : Side) (k : ItemKind) (i : Side) : (l.withdraw s k).health i = l.health i := rfl
@[simp] theorem Library.withdraw_location (s : Side) (k : ItemKind) (i : Slot) : (l.withdraw s k).location i = l.location i := rfl
@[simp] theorem Library.withdraw_seated (s : Side) (k : ItemKind) (i : Slot) : (l.withdraw s k).seated i = l.seated i := rfl

@[simp] theorem Library.withdrawAll_entry (p : ItemKind → Bool) (i : Tag) : (l.withdrawAll p).entry i = l.entry i := rfl
@[simp] theorem Library.withdrawAll_book (p : ItemKind → Bool) (i : Book) : (l.withdrawAll p).book i = l.book i := rfl
@[simp] theorem Library.withdrawAll_role (p : ItemKind → Bool) (i : Side) : (l.withdrawAll p).role i = l.role i := rfl
@[simp] theorem Library.withdrawAll_twin (p : ItemKind → Bool) (i : Book) : (l.withdrawAll p).twin i = l.twin i := rfl
@[simp] theorem Library.withdrawAll_drive (p : ItemKind → Bool) (i : Drive) : (l.withdrawAll p).drive i = l.drive i := rfl
@[simp] theorem Library.withdrawAll_health (p : ItemKind → Bool) (i : Side) : (l.withdrawAll p).health i = l.health i := rfl
@[simp] theorem Library.withdrawAll_location (p : ItemKind → Bool) (i : Slot) : (l.withdrawAll p).location i = l.location i := rfl
@[simp] theorem Library.withdrawAll_seated (p : ItemKind → Bool) (i : Slot) : (l.withdrawAll p).seated i = l.seated i := rfl

@[simp] theorem Library.giveBack_entry (s : Side) (i : Item) (j : Tag) : (l.giveBack s i).entry j = l.entry j := rfl
@[simp] theorem Library.giveBack_book (s : Side) (i : Item) (j : Book) : (l.giveBack s i).book j = l.book j := rfl
@[simp] theorem Library.giveBack_role (s : Side) (i : Item) (j : Side) : (l.giveBack s i).role j = l.role j := rfl
@[simp] theorem Library.giveBack_twin (s : Side) (i : Item) (j : Book) : (l.giveBack s i).twin j = l.twin j := rfl
@[simp] theorem Library.giveBack_drive (s : Side) (i : Item) (j : Drive) : (l.giveBack s i).drive j = l.drive j := rfl
@[simp] theorem Library.giveBack_health (s : Side) (i : Item) (j : Side) : (l.giveBack s i).health j = l.health j := rfl
@[simp] theorem Library.giveBack_location (s : Side) (i : Item) (j : Slot) : (l.giveBack s i).location j = l.location j := rfl
@[simp] theorem Library.giveBack_seated (s : Side) (i : Item) (j : Slot) : (l.giveBack s i).seated j = l.seated j := rfl

@[simp] theorem Library.mapCommands_entry (f : Command → Command) (i : Tag) : (l.mapCommands f).entry i = l.entry i := rfl
@[simp] theorem Library.mapCommands_book (f : Command → Command) (i : Book) : (l.mapCommands f).book i = l.book i := rfl
@[simp] theorem Library.mapCommands_role (f : Command → Command) (i : Side) : (l.mapCommands f).role i = l.role i := rfl
@[simp] theorem Library.mapCommands_twin (f : Command → Command) (i : Book) : (l.mapCommands f).twin i = l.twin i := rfl
@[simp] theorem Library.mapCommands_items (f : Command → Command) (i : Side) : (l.mapCommands f).items i = l.items i := rfl
@[simp] theorem Library.mapCommands_health (f : Command → Command) (i : Side) : (l.mapCommands f).health i = l.health i := rfl
@[simp] theorem Library.mapCommands_location (f : Command → Command) (i : Slot) : (l.mapCommands f).location i = l.location i := rfl
@[simp] theorem Library.mapCommands_seated (f : Command → Command) (i : Slot) : (l.mapCommands f).seated i = l.seated i := rfl

/-! ## Fields inside the tables' owners -/

@[simp] theorem Library.setHealth_queue (s : Side) (x : Health) : (l.setHealth s x).care.queue = l.care.queue := rfl
@[simp] theorem Library.setHealth_rescue (s : Side) (x : Health) : (l.setHealth s x).care.rescue = l.care.rescue := rfl
@[simp] theorem Library.setLocation_state (s : Slot) (x : Location) : (l.setLocation s x).picker.state = l.picker.state := rfl
@[simp] theorem Library.setLocation_record (s : Slot) (x : Location) : (l.setLocation s x).picker.record = l.picker.record := rfl
@[simp] theorem Library.emit_out (o : Output) : (l.emit o).out = l.out ++ [o] := rfl
@[simp] theorem Library.callDecision_due : l.callDecision.scheduler.decisionDue = true := rfl
@[simp] theorem Library.callPatrol_due : l.callPatrol.care.patrolDue = true := rfl
@[simp] theorem Library.callRescue_due : l.callRescue.care.seekDue = true := rfl
@[simp] theorem Library.callPatrol_rescue : l.callPatrol.care.rescue = l.care.rescue := rfl
@[simp] theorem Library.callPatrol_queue : l.callPatrol.care.queue = l.care.queue := rfl
@[simp] theorem Library.callRescue_rescue : l.callRescue.care.rescue = l.care.rescue := rfl
@[simp] theorem Library.callRescue_queue : l.callRescue.care.queue = l.care.queue := rfl

/-! ## Updates of the environment -/

@[simp] theorem Env.reach_now (e : Env) (n : Nat) : (e.reach n).now = max e.now n := rfl
@[simp] theorem Env.reach_day (e : Env) (n : Nat) : (e.reach n).day = e.day := rfl
@[simp] theorem Env.reach_hold (e : Env) (n : Nat) : (e.reach n).hold = e.hold := rfl
@[simp] theorem Env.reach_directory (e : Env) (n : Nat) : (e.reach n).directory = e.directory := rfl
@[simp] theorem Env.setFrame_now (e : Env) (b : Book) (f : Nat) (x : Frame) : (e.setFrame b f x).now = e.now := rfl
@[simp] theorem Env.setFrame_day (e : Env) (b : Book) (f : Nat) (x : Frame) : (e.setFrame b f x).day = e.day := rfl
@[simp] theorem Env.setFrame_hold (e : Env) (b : Book) (f : Nat) (x : Frame) : (e.setFrame b f x).hold = e.hold := rfl
@[simp] theorem Env.setFrame_directory (e : Env) (b : Book) (f : Nat) (x : Frame) :
    (e.setFrame b f x).directory = dirPut e.directory (frameKey b f) x := rfl

end Machine

end Sys2Proof
end

