-- ==== Sys2Proof/Laws/Kept.lean ====
section
/-! SUPPORT. What the reactions of an event leave alone. `Kept e a b` says once what a later library `b` still has of an earlier library `a` after any
of the reactions of `Library.settle`; each reaction has its lemma, and `Kept.trans` composes them. -/

namespace Sys2Proof.Machine

set_option Elab.async false

/-! ## What is kept -/

/-- What the reactions keep of the queued responses: those that go out stay, and those of the requests that end join. -/
structure KeptLinks (a b : Library) : Prop where
  responses : b.front.responses = a.front.responses
  ending : ∃ rs, b.front.ending = a.front.ending ++ rs

/-- What a switch keeps. -/
structure KeptBut (e : Env) (a b : Library) : Prop extends KeptMost a b, KeptLinks a b, KeptCare e a b

/-- What the reactions of an event keep. -/
structure Kept (e : Env) (a b : Library) : Prop extends KeptBut e a b where
  quiet : a.KeptQuiet b

theorem Entry.stop_same {x y : Entry} (hs : y.stopAddress = x.stopAddress) (he : y.ended = none) :
    y.stopAddress = (match y.ended with
      | none => x.stopAddress
      | some o => stopAddressOf o x.record.addr.val y.moved) := by
  rw [he, hs]

theorem Entry.KeptTo.refl (x : Entry) : x.KeptTo x where
  record := rfl
  notes := rfl
  amount := rfl
  ended _ := rfl
  other _ _ := rfl
  moved _ := rfl
  stop hl := by
    have : x.ended = none := by simpa [Entry.live] using hl
    rw [this]
  fetch g h := ⟨g, h⟩
  file g h := ⟨g, h, rfl, rfl, fun _ => ⟨rfl, .inl rfl⟩⟩
  writing _ _ _ := rfl

theorem Entry.KeptTo.trans {x y z : Entry} (h : x.KeptTo y) (k : y.KeptTo z) : x.KeptTo z where
  record := k.record.trans h.record
  notes := k.notes.trans h.notes
  amount := k.amount.trans h.amount
  ended e := by
    have := h.ended e; subst this; exact k.ended e
  other e f := by
    have := h.other e f; subst this; exact k.other e f
  moved e := by
    have hy : ∀ g, y.job ≠ .file g := by
      intro g hg
      cases hx : x.job with
      | fetch g' => obtain ⟨g'', hg''⟩ := h.fetch g' hx; rw [hg''] at hg; cases hg
      | file g' => exact e g' hx
      | refused | servicePages | serviceWrite =>
        have := h.other (by simp [hx]) (by simp [hx]); subst this; rw [hx] at hg; cases hg
    exact (k.moved hy).trans (h.moved e)
  stop hl := by
    by_cases hy : y.live = true
    · have e : y.ended = none := by simpa [Entry.live] using hy
      have := k.stop hy
      rw [this, show y.stopAddress = x.stopAddress by simpa [e] using h.stop hl, h.record]
    · have hn : y.live = false := by simpa using hy
      have := k.ended hn; subst this; exact h.stop hl
  fetch g hg := by
    obtain ⟨g', hg'⟩ := h.fetch g hg; exact k.fetch g' hg'
  file g hg := by
    obtain ⟨g', hj, hb, hf, hl⟩ := h.file g hg
    obtain ⟨g'', hj', hb', hf', hl'⟩ := k.file g' hj
    refine ⟨g'', hj', hb'.trans hb, hf'.trans hf, fun hz => ?_⟩
    have hy : y.live = true := by
      by_contra hn
      have hn : y.live = false := by simpa using hn
      have := k.ended hn; subst this; simp [hn] at hz
    obtain ⟨r1, p1⟩ := hl hy
    obtain ⟨r2, p2⟩ := hl' hz
    refine ⟨r2.trans r1, ?_⟩
    rcases p2 with p2 | p2
    · rcases p1 with p1 | p1
      · exact .inl (p2.trans p1)
      · exact .inr (p2.trans p1)
    · exact .inr p2
  writing g hg hp := by
    have := h.writing g hg hp; subst this; exact k.writing g hg hp

theorem DriveRecord.KeptTo.refl (x : DriveRecord) : x.KeptTo x where
  corrected := rfl
  uncorrectable := rfl
  commandFailures := rfl
  mountTime := rfl
  failures := rfl
  lastUse := rfl
  state _ := rfl
  failed h := h

theorem DriveRecord.KeptTo.trans {x y z : DriveRecord} (h : x.KeptTo y) (k : y.KeptTo z) : x.KeptTo z where
  corrected := k.corrected.trans h.corrected
  uncorrectable := k.uncorrectable.trans h.uncorrectable
  commandFailures := k.commandFailures.trans h.commandFailures
  mountTime := k.mountTime.trans h.mountTime
  failures := k.failures.trans h.failures
  lastUse := k.lastUse.trans h.lastUse
  state e := (k.state (by rw [h.state e]; exact e)).trans (h.state e)
  failed e := h.failed (k.failed e)

theorem KeptMost.trans {a b c : Library} (h : KeptMost a b) (k : KeptMost b c) : KeptMost a c where
  link := k.link.trans h.link
  free t ht := k.free t (h.free t ht)
  entry t x hx := by
    obtain ⟨y, hy, hxy⟩ := h.entry t x hx
    obtain ⟨z, hz, hyz⟩ := k.entry t y hy
    exact ⟨z, hz, hxy.trans hyz⟩
  state i := (k.state i).trans (h.state i)
  filing i := (k.filing i).trans (h.filing i)
  twinMark i := (h.twinMark i).trans (k.twinMark i)
  twinTop i hi := k.twinTop i (h.twinTop i hi)
  hold := k.hold.trans h.hold
  escalation := k.escalation.trans h.escalation
  escalationCopy := k.escalationCopy.trans h.escalationCopy
  drive d := (h.drive d).trans (k.drive d)
  locations := k.locations.trans h.locations
  presence := k.presence.trans h.presence
  picker hi := by
    obtain ⟨h1, h2, h3, h4⟩ := h.picker hi
    obtain ⟨k1, k2, k3, k4⟩ := k.picker (by rw [h1]; exact hi)
    exact ⟨k1.trans h1, k2.trans h2, k3.trans h3, k4.trans h4⟩
  first r hr := k.first r (h.first r hr)
  later i hi := k.later i (h.later i hi)
  laterCount hn :=
    have h1 := h.laterCount hn
    have k1 := k.laterCount h1.2
    ⟨h1.1.trans k1.1, k1.2⟩
  out := by
    obtain ⟨r, hr⟩ := h.out
    obtain ⟨q, hq⟩ := k.out
    exact ⟨r ++ q, by rw [hq, hr, List.append_assoc]⟩

theorem KeptLinks.trans {a b c : Library} (h : KeptLinks a b) (k : KeptLinks b c) : KeptLinks a c where
  responses := k.responses.trans h.responses
  ending := by
    obtain ⟨r, hr⟩ := h.ending
    obtain ⟨q, hq⟩ := k.ending
    exact ⟨r ++ q, by rw [hq, hr, List.append_assoc]⟩

theorem KeptCare.trans {e : Env} {a b c : Library} (h : KeptCare e a b) (k : KeptCare e b c) : KeptCare e a c where
  health s hs := by
    obtain ⟨hu, h1, h2, h3⟩ := h.health s hs
    obtain ⟨ku, k1, k2, k3⟩ := k.health s hu
    refine ⟨ku, k1.trans h1, k2.trans h2, ?_⟩
    rcases k3 with ⟨k3, k4⟩ | k3
    · rcases h3 with ⟨h3, h4⟩ | ⟨h3, h4⟩
      · exact .inl ⟨k3.trans h3, k4.trans h4⟩
      · exact .inr ⟨k3.trans h3, k4.trans h4⟩
    · exact .inr k3
  role s hs := by
    obtain ⟨ha, h1⟩ := h.role s hs
    obtain ⟨hb, k1⟩ := k.role s ha
    exact ⟨hb, k1.trans h1⟩
  queue := k.queue.trans h.queue

theorem KeptBut.trans {e : Env} {a b c : Library} (h : KeptBut e a b) (k : KeptBut e b c) : KeptBut e a c :=
  { toKeptMost := h.toKeptMost.trans k.toKeptMost
    toKeptLinks := h.toKeptLinks.trans k.toKeptLinks
    toKeptCare := h.toKeptCare.trans k.toKeptCare }

theorem Kept.trans {e : Env} {a b c : Library} (h : Kept e a b) (k : Kept e b c) : Kept e a c where
  toKeptBut := h.toKeptBut.trans k.toKeptBut
  quiet hr hq := by
    obtain ⟨h1, h2, h3⟩ := h.quiet hr hq
    have hq' : b.care.queue = [] := by
      have := h.queue; rw [hq] at this; exact List.sublist_nil.mp this
    obtain ⟨k1, k2, k3⟩ := k.quiet h1 hq'
    exact ⟨k1, k2.trans h2, fun i =>
      ⟨(k3 i).1.trans (h3 i).1, (k3 i).2.1.trans (h3 i).2.1, (k3 i).2.2.trans (h3 i).2.2⟩⟩

/-! ## Updates that keep everything -/

/-- An update of what `Kept` does not speak of: the demand lists, the waiting lists, the twin records, the care flags, the move list. -/
theorem Kept.of_same {e : Env} {a b : Library}
    (front : b.front = a.front := by rfl) (books : b.books = a.books := by rfl) (hold : b.buffer.hold = a.buffer.hold := by rfl)
    (esc : b.buffer.escalation = a.buffer.escalation := by rfl)
    (copy : b.scheduler.escalation = a.scheduler.escalation := by rfl) (drives : b.drives = a.drives := by rfl)
    (loc : b.picker.locations = a.picker.locations := by rfl) (pres : b.picker.presence = a.picker.presence := by rfl)
    (ps : b.picker.state = a.picker.state := by rfl) (pr : b.picker.record = a.picker.record := by rfl)
    (pa : b.picker.awaitCaddy = a.picker.awaitCaddy := by rfl) (pl : b.picker.limitStart = a.picker.limitStart := by rfl)
    (health : b.care.health = a.care.health := by rfl) (roles : b.roles = a.roles := by rfl)
    (queue : b.care.queue = a.care.queue := by rfl) (rescue : b.care.rescue = a.care.rescue := by rfl)
    (log : b.log = a.log := by rfl) (out : b.out = a.out := by rfl) : Kept e a b where
  link := by rw [front]
  free t h := by unfold Library.entry at *; rw [front]; exact h
  entry t x h := ⟨x, by unfold Library.entry at *; rw [front]; exact h, .refl x⟩
  responses := by rw [front]
  ending := ⟨[], by rw [front, List.append_nil]⟩
  state k := by unfold Library.book; rw [books]
  filing k := by unfold Library.book; rw [books]
  twinMark k := by unfold Library.book; rw [books]
  twinTop k h := by unfold Library.book at *; rw [books]; exact h
  hold := hold
  escalation := esc
  escalationCopy := copy
  drive d := by unfold Library.drive; rw [drives]; exact .refl _
  locations := loc
  presence := pres
  picker _ := ⟨ps, pr, pa, pl⟩
  health s h := by
    unfold Library.untargeted Library.role Library.health at *
    rw [roles, rescue, health]; exact ⟨h, rfl, rfl, .inl ⟨rfl, rfl⟩⟩
  role s h := by
    unfold Library.apart Library.role at *
    rw [roles, rescue, queue]; exact ⟨h, rfl⟩
  queue := by rw [queue]
  quiet h _ := ⟨by rw [rescue, h], roles, fun k => by unfold Library.book; rw [books]; exact ⟨rfl, rfl, rfl⟩⟩
  first r h := by rw [log]; exact h
  later k h := by rw [log]; exact h
  laterCount h := by rw [log]; exact ⟨le_rfl, h⟩
  out := ⟨[], by rw [out, List.append_nil]⟩

theorem Kept.refl (e : Env) (a : Library) : Kept e a a := .of_same

/-- A fold of reactions. -/
theorem Kept.foldl {e : Env} {α : Type} {f : Library → α → Library} (h : ∀ l x, Kept e l (f l x)) :
    ∀ (xs : List α) (l : Library), Kept e l (xs.foldl f l)
  | [], l => .refl e l
  | x :: xs, l => (h l x).trans (Kept.foldl h xs (f l x))

variable (e : Env) (l : Library)

theorem kept_setItems (s : Side) (x : List Item) : Kept e l (l.setItems s x) := .of_same
theorem kept_place (s : Side) (k : ItemKind) : Kept e l (l.place e s k) := .of_same
theorem kept_giveBack (s : Side) (i : Item) : Kept e l (l.giveBack s i) := .of_same
theorem kept_withdraw (s : Side) (k : ItemKind) : Kept e l (l.withdraw s k) := .of_same
theorem kept_withdrawAll (p : ItemKind → Bool) : Kept e l (l.withdrawAll p) := .of_same
theorem kept_callDecision : Kept e l l.callDecision := .of_same
theorem kept_callPatrol : Kept e l l.callPatrol := .of_same
theorem kept_callRescue : Kept e l l.callRescue := .of_same
theorem kept_setTwin (b : Book) (x : TwinRecord) : Kept e l (l.setTwin b x) := .of_same
theorem kept_mapBatch (f : BatchFrame → BatchFrame) : Kept e l (l.mapBatch f) := .of_same

/-- What is put on the links joins what is there. -/
theorem kept_emit (o : Output) : Kept e l (l.emit o) :=
  { Kept.refl e l with out := ⟨[o], rfl⟩ }

/-- A kind that joins a set stays beside those in it. -/
theorem KindSet.has_with (s : KindSet) (k j : FaultKind) (h : KindSet.has s j = true) : KindSet.has (KindSet.with s k) j = true := by
  simp only [KindSet.has, KindSet.with, BitVec.getLsbD_or] at *
  simp [h]

/-- R178: what the log has recorded is kept by a further fault. -/
theorem kept_fault (r : FaultRecord) : Kept e l (l.fault e r) := by
  refine { Kept.refl e l with first := ?_, later := ?_, laterCount := ?_ }
  · intro q hq
    simp only [Library.fault, FaultLog.record]
    split
    · exact hq
    · rw [hq]
  · intro k hk
    simp only [Library.fault, FaultLog.record]
    split
    · exact hk
    · split
      · exact hk
      · exact KindSet.has_with _ _ _ hk
  · intro hn
    simp only [Library.fault, FaultLog.record]
    split
    · exact ⟨le_rfl, hn⟩
    · split
      · exact ⟨le_rfl, hn⟩
      · simp only [satAdd]; omega

end Sys2Proof.Machine
end

