-- ==== Sys2Proof/Laws/KeptFetch.lean ====
section
/-! SUPPORT. What the Request Table's and the staging pool's reactions leave alone: every reaction of `Requests` and `Staging` inside an event. -/

namespace Sys2Proof.Machine

set_option Elab.async false

variable (e : Env) (l : Library)

/-! ## The updates of one entry, one drive, one book -/

theorem kept_setEntry {t : Tag} {x y : Entry} (h : l.entry t = some x) (k : x.KeptTo y) : Kept e l (l.setEntry t (some y)) :=
  { Kept.refl e l with
    free := fun u hu => by
      by_cases hut : t = u
      · subst hut; rw [h] at hu; cases hu
      · simpa [Library.entry, Library.setEntry, look_put_ne _ _ hut] using hu
    entry := fun u z hz => by
      by_cases hut : t = u
      · subst hut
        rw [h] at hz; cases hz
        exact ⟨y, by simp [Library.entry, Library.setEntry], k⟩
      · exact ⟨z, by simpa [Library.entry, Library.setEntry, look_put_ne _ _ hut] using hz, .refl z⟩ }

theorem kept_setDrive {d : Drive} {y : DriveRecord} (k : (l.drive d).KeptTo y) : Kept e l (l.setDrive d y) :=
  { Kept.refl e l with
    drive := fun u => by
      by_cases hut : d = u
      · subst hut; simpa [Library.drive, Library.setDrive] using k
      · simpa [Library.drive, Library.setDrive, look_put_ne _ _ hut] using DriveRecord.KeptTo.refl _ }

theorem kept_mapCommands (f : Command → Command) : Kept e l (l.mapCommands f) :=
  { Kept.refl e l with
    drive := fun d => by
      simp only [Library.drive, Library.mapCommands, look_map]
      exact ⟨rfl, rfl, rfl, rfl, rfl, rfl, fun _ => rfl, fun h => h⟩ }

theorem kept_setIntake (b : Book) (n : Nat) : Kept e l (l.setBook b { l.book b with intake := n }) :=
  { Kept.refl e l with
    state := fun k => by
      simp only [Library.book, Library.setBook, look_put]; split
      · rename_i h; subst h; rfl
      · rfl
    filing := fun k => by
      simp only [Library.book, Library.setBook, look_put]; split
      · rename_i h; subst h; rfl
      · rfl
    twinMark := fun k => by
      simp only [Library.book, Library.setBook, look_put]; split
      · rename_i h; subst h; exact le_rfl
      · exact le_rfl
    twinTop := fun k => by
      simp only [Library.book, Library.setBook, look_put]; split
      · rename_i h; subst h; exact fun h => h
      · exact fun h => h
    quiet := fun h _ => ⟨h, rfl, fun k => by
      simp only [Library.book, Library.setBook, look_put]; split
      · rename_i h; subst h; exact ⟨rfl, rfl, rfl⟩
      · exact ⟨rfl, rfl, rfl⟩⟩ }

/-! ## Windows -/

theorem Entry.live_iff {x : Entry} : x.live = true ↔ x.ended = none := by
  simp [Entry.live]

theorem Entry.setWindows_keptTo (x : Entry) (ws : List Window) : x.KeptTo (x.setWindows ws) := by
  unfold Entry.setWindows
  split
  · rename_i hl
    split
    · rename_i g hg
      refine ⟨rfl, rfl, rfl, fun h => by simp [hl] at h, fun h => absurd hg (h g), fun _ => rfl,
        fun _ => Entry.stop_same rfl (Entry.live_iff.mp hl), fun g' _ => ⟨_, rfl⟩, ?_, ?_⟩
      · intro g' hg'; rw [hg] at hg'; cases hg'
      · intro g' hg'; rw [hg] at hg'; cases hg'
    · exact .refl x
  · exact .refl x

theorem kept_setWindows (t : Tag) (ws : List Window) : Kept e l (l.setWindows t ws) := by
  unfold Library.setWindows
  split
  · rename_i x hx; exact kept_setEntry e l hx (x.setWindows_keptTo ws)
  · exact .refl e l

theorem kept_setWindow (t : Tag) (w : Window) : Kept e l (l.setWindow t w) := kept_setWindows e l t _

theorem kept_release (t : Tag) (w : Window) (n : Option Nat) : Kept e l (l.release t w n) := by
  unfold Library.release
  have h1 : Kept e l (match w.item with
    | some s => l.withdraw s (.fetch t w.book w.frame)
    | none => l) := by
    split
    · exact kept_withdraw e l _ _
    · exact .refl e l
  dsimp only
  split
  · exact h1.trans (kept_mapCommands e _ _)
  · exact h1

/-! ## The end of a request -/

/-- The end of a request keeps everything of the others; its own entry keeps its record, its notes and its amount. -/
theorem kept_endRequest {t : Tag} {x : Entry} (h : l.entry t = some x) (hl : x.live = true)
    (hj : (∃ g, x.job = .fetch g) ∨ ∃ g, x.job = .file g ∧ g.phase ≠ .writing) (o : Outcome) (moved discard : Nat)
    (hm : (∀ g, x.job ≠ .file g) → moved = x.moved) : Kept e l (l.endRequest t o moved discard) := by
  unfold Library.endRequest
  rw [h]
  dsimp only
  have h1 : Kept e l (x.windows.foldl (fun l w => l.release t w none) l) :=
    Kept.foldl (fun l w => kept_release e l t w none) _ _
  have hf : (x.windows.foldl (fun l w => l.release t w none) l).front = l.front := by
    have : ∀ (ws : List Window) (m : Library), (ws.foldl (fun l w => l.release t w none) m).front = m.front := by
      intro ws
      induction ws with
      | nil => intro m; rfl
      | cons w ws ih =>
        intro m
        rw [List.foldl_cons, ih]
        unfold Library.release
        dsimp only
        split
        · split <;> rfl
        · split <;> rfl
    exact this _ _
  generalize x.windows.foldl (fun l w => l.release t w none) l = m at h1 hf
  refine h1.trans ((kept_withdrawAll e m (ItemKind.ofTag t)).trans ?_)
  have hm' : (m.withdrawAll (ItemKind.ofTag t)).entry t = some x := by
    unfold Library.entry; rw [show (m.withdrawAll (ItemKind.ofTag t)).front = m.front from rfl, hf]; exact h
  generalize m.withdrawAll (ItemKind.ofTag t) = m' at hm'
  have hk : x.KeptTo { x with
      moved := moved, stopAddress := stopAddressOf o x.record.addr.val moved, job := x.job.clear
      ended := some o, discard := discard } := by
    refine ⟨rfl, rfl, rfl, fun h => by simp [hl] at h, ?_, hm, fun _ => rfl, ?_, ?_, ?_⟩
    · intro h1 h2
      rcases hj with ⟨g, hg⟩ | ⟨g, hg, -⟩
      · exact absurd hg (h1 g)
      · exact absurd hg (h2 g)
    · intro g hg; exact ⟨_, by rw [hg]; rfl⟩
    · intro g hg; exact ⟨{ g with received := [] }, by rw [hg]; rfl, rfl, rfl, fun h => by simp [Entry.live] at h⟩
    · intro g hg hp
      rcases hj with ⟨g', hg'⟩ | ⟨g', hg', hp'⟩
      · rw [hg'] at hg; cases hg
      · rw [hg'] at hg; cases hg; exact absurd hp hp'
  have h2 := kept_setEntry e m' hm' hk
  exact { h2 with responses := rfl, ending := ⟨_, rfl⟩, entry := h2.entry }

/-- The end of a live FETCH. -/
theorem kept_endFetch {t : Tag} {x : Entry} {g : Fetching} (h : l.entry t = some x) (hl : x.ended = none) (hj : x.job = .fetch g)
    (o : Outcome) : Kept e l (l.endRequest t o x.moved 0) :=
  kept_endRequest e l h (Entry.live_iff.mpr hl) (.inl ⟨g, hj⟩) _ _ _ fun _ => rfl

theorem kept_recordStop (t : Tag) (w : Window) (st : Stop) : Kept e l (l.recordStop t w st) := by
  unfold Library.recordStop
  dsimp only
  have h := Kept.foldl (fun l v => kept_release e l t v none) (windowsAbove w (l.windows t)) l
  generalize (windowsAbove w (l.windows t)).foldl (fun l v => l.release t v none) l = m at h
  refine h.trans ((kept_setWindows e m t
    (windowsUpTo { w.withStop st with state := .stopped, item := none, reading := false } (l.windows t))).trans ?_)
  exact .of_same

/-! ## Sources -/

theorem kept_holdFallback (t : Tag) (w : Window) : Kept e l (l.holdFallback t w) := by
  unfold Library.holdFallback
  dsimp only
  split
  · exact kept_setWindow e l t _
  · split
    · exact kept_setWindow e l t _
    · exact kept_recordStop e l t _ _

theorem kept_twinFallback (t : Tag) (w : Window) : Kept e l (l.twinFallback e t w) := by
  unfold Library.twinFallback
  split
  · exact kept_setWindow e l t _
  · split
    · split
      · exact (kept_place e l _ _).trans (kept_setWindow e _ t _)
      · exact kept_holdFallback e l t w
    · exact kept_holdFallback e l t w

theorem kept_source (t : Tag) (w : Window) : Kept e l (l.source e t w) := by
  unfold Library.source
  split
  · exact kept_setWindow e l t _
  · split
    · split
      · exact (kept_place e l _ _).trans (kept_setWindow e _ t _)
      · exact kept_twinFallback e l t w
    · exact kept_twinFallback e l t w

theorem kept_resolve (t : Tag) (w : Window) : Kept e l (l.resolve e t w) := by
  unfold Library.resolve
  dsimp only
  split
  · split
    · exact kept_setWindow e l t _
    · exact kept_setWindow e l t _
  · exact kept_setWindow e l t _
  · exact kept_recordStop e l t _ _
  · exact kept_source e l t _
  · exact kept_source e l t _

/-! ## Staging slots -/

theorem kept_openWindow (t : Tag) (w : Window) : Kept e l (l.openWindow e t w) := by
  unfold Library.openWindow
  dsimp only
  refine Kept.trans (b := { l with buffer := { l.buffer with openings := l.buffer.openings + 1 } }) .of_same ?_
  exact (kept_setWindow e _ t _).trans (kept_resolve e _ t _)

theorem kept_displace (t : Tag) (w : Window) : Kept e l (l.displace t w) := by
  unfold Library.displace
  dsimp only
  exact (kept_release e l t w _).trans ((kept_setWindow e _ t _).trans .of_same)

theorem kept_displaceIdle (need : Nat) (t : Tag) : ∀ (n : Nat) (l : Library), Kept e l (Library.displaceIdle need t n l)
  | 0, l => .refl e l
  | n + 1, l => by
    unfold Library.displaceIdle
    split
    · exact .refl e l
    · split
      · exact (kept_displace e l _ _).trans (kept_displaceIdle need t n _)
      · exact .refl e l

theorem kept_displaceReading (need : Nat) (t : Tag) :
    ∀ (n : Nat) (due : List (Drive × Nat)) (l : Library), Kept e l (Library.displaceReading need t n due l).2
  | 0, _, l => .refl e l
  | n + 1, due, l => by
    unfold Library.displaceReading
    split
    · exact .refl e l
    · split
      · exact (kept_displace e l _ _).trans (kept_displaceReading need t n _ _)
      · exact .refl e l

theorem kept_openDelivery (t : Tag) (w : Window) : Kept e l (l.openDelivery e t w) := by
  unfold Library.openDelivery
  dsimp only
  refine (kept_displaceIdle e w.size t 16 l).trans ?_
  split
  · exact kept_openWindow e _ t w
  · exact (kept_displaceReading e _ t 16 [] _).trans .of_same

theorem kept_passSlots : Kept e l l.passSlots := Kept.trans (b := _) .of_same .of_same

theorem kept_openWaitingDelivery (x : DeliveryWait) : Kept e l (l.openWaitingDelivery e x) := by
  unfold Library.openWaitingDelivery
  dsimp only
  split
  · split
    · exact Kept.trans .of_same (kept_openWindow e _ x.tag _)
    · exact .refl e l
  · exact .of_same

theorem kept_openLookAhead (t : Tag) : Kept e l (l.openLookAhead e t) := by
  unfold Library.openLookAhead
  dsimp only
  split
  · split
    · exact .of_same
    · split
      · exact Kept.trans .of_same (kept_openWindow e _ t _)
      · exact .refl e l
  · exact .of_same

/-! ## The course of a request -/

/-- A live FETCH whose work is replaced. -/
theorem Entry.keptTo_fetch {x : Entry} {g : Fetching} (hl : x.ended = none) (hj : x.job = .fetch g) (g' : Fetching) :
    x.KeptTo { x with job := .fetch g' } :=
  ⟨rfl, rfl, rfl, fun h => by simp [Entry.live, hl] at h, fun h => absurd hj (h g), fun _ => rfl,
    fun _ => Entry.stop_same rfl hl, fun _ _ => ⟨g', rfl⟩,
    (fun f hf => by rw [hj] at hf; cases hf), fun f hf => by rw [hj] at hf; cases hf⟩

theorem kept_wantLookAhead {t : Tag} {x : Entry} {g : Fetching} (h : l.entry t = some x) (hl : x.ended = none)
    (hj : x.job = .fetch g) (v : Window) : Kept e l (l.wantLookAhead t x g v) := by
  unfold Library.wantLookAhead
  dsimp only
  split
  · exact .refl e l
  · split
    · exact .of_same
    · split
      · exact kept_setEntry e l h (x.keptTo_fetch hl hj _)
      · exact Kept.trans .of_same (kept_setEntry e _ (x := x) h (x.keptTo_fetch hl hj _))

theorem kept_progress (t : Tag) : ∀ (n : Nat) (l : Library), Kept e l (Library.progress e t n l)
  | 0, l => .refl e l
  | n + 1, l => by
    unfold Library.progress
    split
    · exact .refl e l
    · rename_i x hx
      split
      · rename_i g hl hj
        split
        · exact kept_endFetch e l hx hl hj _
        · rename_i w rest hw
          dsimp only
          split
          · exact (kept_setEntry e l hx (x.setWindows_keptTo rest)).trans (Kept.trans .of_same (kept_progress t n _))
          · split
            · exact kept_endFetch e l hx hl hj _
            · split
              · split
                · exact .refl e l
                · exact (kept_openDelivery e l t w).trans (kept_progress t n _)
              · split
                · exact kept_wantLookAhead e l hx hl hj _
                · exact .refl e l
      · exact .refl e l

theorem kept_progressAll : Kept e l (l.progressAll e) := Kept.foldl (fun l t => kept_progress e t 24 l) _ _

theorem kept_stage : Kept e l (l.stage e) := by
  unfold Library.stage
  dsimp only
  have h := ((kept_passSlots e l).trans (kept_progressAll e _)).trans (kept_passSlots e _)
  generalize (l.passSlots.progressAll e).passSlots = m at h
  refine (h.trans (Kept.foldl (fun l x => kept_openWaitingDelivery e l x) m.buffer.deliveryWait m)).trans ?_
  refine (kept_progressAll e _).trans ?_
  exact Kept.foldl (fun l t => kept_openLookAhead e l t) _ _

/-! ## Events at a window -/

theorem kept_eachWindow (t : Tag) (f : Library → Window → Library) (h : ∀ l w, Kept e l (f l w)) :
    Kept e l (l.eachWindow t f) := by
  unfold Library.eachWindow
  refine Kept.foldl (fun l w => ?_) _ _
  split
  · exact h l _
  · exact .refl e l

theorem kept_resolvePending (t : Tag) : Kept e l (l.resolvePending e t) := by
  refine kept_eachWindow e l t _ fun l w => ?_
  split
  · exact kept_resolve e l t w
  · exact .refl e l

theorem kept_turnWindows (t : Tag) : Kept e l (l.turnWindows e t) := by
  refine kept_eachWindow e l t _ fun l w => ?_
  split
  · rename_i s _
    split
    · exact .refl e l
    · dsimp only
      refine (kept_withdraw e l s (.fetch t w.book w.frame)).trans ?_
      split
      · exact kept_holdFallback e _ t w
      · exact kept_twinFallback e _ t w
  · exact .refl e l

theorem kept_stopLost (t : Tag) (w : Window) : Kept e l (l.stopLost t w) := by
  unfold Library.stopLost
  split
  · exact kept_setWindow e l t _
  · exact kept_recordStop e l t _ _

theorem kept_windowOutcome (t : Tag) (w : Window) (ss : List Nat) (rs : List ReadResult) :
    Kept e l (l.windowOutcome e t w ss rs) := by
  unfold Library.windowOutcome
  dsimp only
  split
  · exact kept_stopLost e l t _
  · split
    · exact kept_holdFallback e l t _
    · exact kept_twinFallback e l t _

theorem kept_windowsLost (t : Tag) (b : Book) (f : Nat) : Kept e l (l.windowsLost t b f) := by
  refine kept_eachWindow e l t _ fun l w => ?_
  split
  · exact (kept_release e l t w none).trans (kept_stopLost e _ t w)
  · exact .refl e l

theorem kept_windowFailed (t : Tag) (w : Window) (s : Side) (i : Item) : Kept e l (l.windowFailed t w s i) :=
  (kept_giveBack e l s i).trans (kept_setWindow e _ t _)

theorem kept_fetchOutcome (t : Tag) (b : Book) (f : Nat) (live : Bool) (ss : List Nat) (rs : List ReadResult) :
    Kept e l (l.fetchOutcome e t b f live ss rs) := by
  unfold Library.fetchOutcome
  split
  · split
    · exact kept_windowOutcome e l t _ ss rs
    · exact .refl e l
  · exact .refl e l

end Sys2Proof.Machine
end

