-- ==== Sys2Proof/Laws/KeptCare.lean ====
section
/-! SUPPORT. What unwinding, the Twin Writer and the rescue leave alone inside an event. -/

namespace Sys2Proof.Machine

set_option Elab.async false

variable (e : Env) (l : Library)

/-! ## Unwinding -/

/-- A live FILE of the record books. -/
theorem Library.fileOf_some {l : Library} {t : Tag} {x : Entry} {g : Filing} (h : l.fileOf t = some (x, g)) :
    l.entry t = some x ∧ x.live = true ∧ x.job = .file g := by
  unfold Library.fileOf at h
  split at h
  · rename_i y hy
    split at h
    · rename_i hl
      split at h
      · rename_i g' hj; cases h; exact ⟨hy, hl, hj⟩
      · cases h
    · cases h
  · cases h

theorem kept_unwindFile (t : Tag) (o : Outcome) : Kept e l (l.unwindFile t o) := by
  unfold Library.unwindFile
  split
  · rename_i x g h
    split
    · exact .refl e l
    · rename_i hw
      obtain ⟨h1, h2, h3⟩ := Library.fileOf_some h
      exact kept_endRequest e l h1 h2 (.inr ⟨g, h3, hw⟩) _ _ _ fun h => absurd h3 (h g)
  · exact .refl e l

theorem kept_lowerIntake (b : Book) : Kept e l (l.lowerIntake b) := kept_setIntake e l b _

theorem kept_unwindStranded : Kept e l (l.unwindStranded e) := by
  refine Kept.foldl (fun l t => ?_) _ _
  split
  · exact (kept_unwindFile e l t _).trans (kept_lowerIntake e _ _)
  · exact .refl e l

theorem kept_unwindAll : Kept e l l.unwindAll := by
  refine Kept.foldl (fun l t => ?_) _ _
  split
  · exact (kept_unwindFile e l t _).trans (kept_lowerIntake e _ _)
  · exact .refl e l

/-! ## The Twin Writer -/

theorem kept_mapRereads (b : Book) (f : List Reread → List Reread) : Kept e l (l.mapRereads b f) := .of_same

theorem kept_syncReread (b : Book) : Kept e l (l.syncReread e b) := by
  unfold Library.syncReread
  split
  · split
    · exact kept_place e l _ _
    · exact kept_withdraw e l _ _
  · exact .refl e l

theorem kept_grantFrom : ∀ (xs : List (Book × Nat)) (l : Library), Kept e l (Library.grantFrom e xs l)
  | [], l => .of_same
  | (b, f) :: rest, l => by
    unfold Library.grantFrom
    split
    · exact kept_grantFrom rest l
    · split
      · exact (kept_mapRereads e l b _).trans ((kept_syncReread e _ b).trans (kept_grantFrom rest _))
      · exact .of_same

theorem kept_grantRereads : Kept e l (l.grantRereads e) := kept_grantFrom e _ l

theorem kept_askReread (b : Book) (f n : Nat) : Kept e l (l.askReread e b f n) := by
  unfold Library.askReread
  split
  · exact (kept_mapRereads e l b _).trans (kept_syncReread e _ b)
  · exact .of_same

theorem kept_dropRereads (b : Book) (gone : Nat → Bool) : Kept e l (l.dropRereads e b gone) := by
  unfold Library.dropRereads
  dsimp only
  have h := (kept_mapRereads e l b fun rs => rs.filter fun r => !gone r.frame).trans
    (kept_mapCommands e _ (Command.orphanReread b gone))
  refine h.trans (Kept.trans .of_same ((kept_syncReread e _ b).trans (kept_grantRereads e _)))

theorem kept_stopTwinWork (b : Book) : Kept e l (l.stopTwinWork e b) :=
  (kept_withdrawAll e l _).trans (kept_dropRereads e _ b _)

theorem kept_askWindow (b : Book) : Kept e l (l.askWindow e b) := by
  refine Kept.foldl (fun l f => ?_) _ _
  dsimp only
  split
  · exact kept_askReread e l b f _
  · exact .refl e l

theorem kept_wantTwinWrite (b : Book) (s : Side) : Kept e l (l.wantTwinWrite e b s) := by
  unfold Library.wantTwinWrite
  dsimp only
  split
  · exact kept_place e l s _
  · exact .refl e l

/-- R95: the marks that the Twin Writer passes only rise, and nothing but them changes. -/
theorem keptBut_skipFrames (b : Book) : ∀ (n : Nat) (l : Library), KeptBut e l (Library.skipFrames e b n l)
  | 0, l => (Kept.refl e l).toKeptBut
  | n + 1, l => by
    unfold Library.skipFrames
    dsimp only
    split
    · refine KeptBut.trans ?_ (keptBut_skipFrames b n _)
      exact
        { (Kept.refl e l).toKeptBut with
          state := fun k => by
            simp only [Library.book, Library.setBook, look_put]; split
            · rename_i h; subst h; rfl
            · rfl
          filing := fun k => by
            simp only [Library.book, Library.setBook, look_put]; split
            · rename_i h; subst h; rfl
            · rfl
          twinMark := fun k => by
            simp only [Library.book, Library.setBook, look_put]; split
            · rename_i h; subst h; exact Nat.le_succ _
            · exact le_rfl
          twinTop := fun k => by
            simp only [Library.book, Library.setBook, look_put]; split
            · rename_i hc h; subst h; exact fun _ => hc.1
            · exact fun h => h }
    · exact (Kept.refl e l).toKeptBut

/-- R94 to R96: an examination keeps what a switch keeps. -/
theorem keptBut_examine (b : Book) : KeptBut e l (l.examine e b) := by
  unfold Library.examine
  split
  · exact ((kept_stopTwinWork e l b).trans (kept_setTwin e _ b _)).toKeptBut
  · split
    · exact (Kept.refl e l).toKeptBut
    · dsimp only
      have h := keptBut_skipFrames e b Config.framesPerBook l
      generalize Library.skipFrames e b Config.framesPerBook l = m at h
      have h2 := h.trans (kept_setTwin e m b
        { m.twin b with state := twinStateOf (m.book b) (m.twin b).failed }).toKeptBut
      refine h2.trans ?_
      split
      · exact ((kept_askWindow e _ b).trans (kept_wantTwinWrite e _ b _)).toKeptBut
      · exact (kept_stopTwinWork e _ b).toKeptBut

theorem keptBut_examineBooks (p : Book → Bool) : KeptBut e l (l.examineBooks e p) := by
  have h : ∀ (bs : List Book) (m : Library), KeptBut e m (bs.foldl (fun l b => l.examine e b) m) := by
    intro bs
    induction bs with
    | nil => exact fun m => (Kept.refl e m).toKeptBut
    | cons b bs ih => exact fun m => (keptBut_examine e m b).trans (ih _)
  exact h _ l

/-! ## The rescue -/

/-- R168, R174: a rescue record takes a blank side as its target; its source stood in the queue, or in the record before. -/
theorem kept_beginRescue {t : Side} (r : RescueRecord) (queue : List Side) (ht : l.role t = .blank) (hr : r.target = some t)
    (hq : queue.Sublist l.care.queue) (hs : ∀ s, l.apart s → r.source ≠ s) (hn : l.care.rescue ≠ none ∨ l.care.queue ≠ []) :
    Kept e l { l.takeTarget t r.book with
      care := { (l.takeTarget t r.book).care with queue := queue, rescue := some r, waiting := false } } := by
  have hne : ∀ s, l.role s ≠ .blank → t ≠ s := fun s h1 h2 => by subst h2; exact h1 ht
  have hrole : ∀ s, l.role s ≠ .blank → look (l.takeTarget t r.book).roles s = l.role s := fun s h => by
    simp [Library.takeTarget, Library.role, Library.setRole, Library.setHealth, Library.callPatrol, look_put_ne _ _ (hne s h)]
  exact
    { Kept.refl e l with
      health := fun s hs => by
        refine ⟨⟨?_, fun q hq => ?_⟩, ?_⟩
        · show look (l.takeTarget t r.book).roles s ≠ .blank
          rw [hrole s hs.1]; exact hs.1
        · cases hq; rw [hr]; intro h; cases h; exact hs.1 ht
        · simp [Library.takeTarget, Library.health, Library.setRole, Library.setHealth, Library.callPatrol,
            look_put_ne _ _ (hne s hs.1)]
      role := fun s h => by
        refine ⟨⟨?_, fun hm => h.2.1 (hq.subset hm), fun q hq => ?_⟩, hrole s h.1⟩
        · show look (l.takeTarget t r.book).roles s ≠ .blank
          rw [hrole s h.1]; exact h.1
        · cases hq; refine ⟨hs s h, ?_⟩; rw [hr]; intro hts; cases hts; exact h.1 ht
      queue := hq
      quiet := fun h1 h2 => by
        rcases hn with hn | hn
        · exact absurd h1 hn
        · exact absurd h2 hn }

theorem Library.role_of_pool {s : Side} (h : s ∈ l.pool) : l.role s = .blank := by
  simp only [Library.pool, List.mem_filter] at h
  simpa using h.2

theorem Library.findTarget_blank {b : Book} {s t : Side} (h : l.findTarget b s = some t) : l.role t = .blank :=
  l.role_of_pool (List.mem_of_find?_eq_some h)

theorem Library.firstRescue_some {s : Side} {b : Book} {t : Side} (h : l.firstRescue = some (s, b, t)) :
    s ∈ l.care.queue ∧ l.role t = .blank := by
  unfold Library.firstRescue at h
  obtain ⟨q, hq, hx⟩ := List.exists_of_findSome?_eq_some h
  split at hx
  · rename_i b' _
    simp only [Option.map_eq_some_iff] at hx
    obtain ⟨t', ht, he⟩ := hx
    cases he
    exact ⟨hq, l.findTarget_blank ht⟩
  · cases hx

theorem kept_waitRescue (b : Option Book) (s : Side) : Kept e l (l.waitRescue e b s) := by
  unfold Library.waitRescue
  split
  · exact .refl e l
  · exact Kept.trans .of_same (kept_fault e _ _)

theorem kept_seekRescue : Kept e l (l.seekRescue e) := by
  unfold Library.seekRescue
  refine Kept.trans (b := { l with care := { l.care with seekDue := false } }) .of_same ?_
  generalize { l with care := { l.care with seekDue := false } } = l
  dsimp only
  split
  · rename_i r hr
    split
    · exact .refl e l
    · split
      · rename_i t ht
        exact kept_beginRescue e l { r with target := some t } l.care.queue (l.findTarget_blank ht) rfl (List.Sublist.refl _)
          (fun s hs => (hs.2.2 r hr).1) (.inl (by simp [hr]))
      · exact kept_waitRescue e l _ _
  · rename_i hr
    split
    · exact .of_same
    · rename_i q rest hq
      split
      · rename_i s b t h
        obtain ⟨h1, h2⟩ := l.firstRescue_some h
        refine kept_beginRescue e l ⟨s, (l.takeTarget t b).role s == .twin b, b, some t, 0, false⟩
          (l.care.queue.filter fun q => q != s) h2 rfl (List.filter_sublist) (fun q hq hs => ?_) (.inr (by simp [hq]))
        exact hq.2.1 (hs ▸ h1)
      · exact kept_waitRescue e l _ _

theorem kept_setBatch (x : Option (List BatchFrame)) : Kept e l { l with care := { l.care with batch := x } } := .of_same

theorem kept_syncReads (r : RescueRecord) (xs : List BatchFrame) : Kept e l (l.syncReads e r xs) := by
  refine Kept.foldl (fun l c => ?_) _ _
  split
  · split
    · exact kept_place e l _ _
    · exact kept_withdraw e l _ _
  · exact .refl e l

theorem kept_syncWrites (t : Side) (xs : List BatchFrame) : Kept e l (l.syncWrites e t xs) := by
  unfold Library.syncWrites
  split
  · split
    · exact kept_withdraw e l _ _
    · split
      · exact .refl e l
      · exact kept_place e l _ _
  · exact kept_withdraw e l _ _

theorem kept_moveItems (b : Book) (s t : Side) : Kept e l (l.moveItems b s t) := by
  unfold Library.moveItems
  dsimp only
  have h := (kept_setItems e l s ((l.items s).filter fun i => !l.movesWith b i.kind)).trans
    (Kept.foldl (fun l i => kept_giveBack e l t i) ((l.items s).filter fun i => l.movesWith b i.kind) _)
  refine h.trans ?_
  refine Kept.foldl (fun l u => ?_) _ _
  split
  · exact kept_setWindows e l u _
  · exact .refl e l

/-- R175: a switch ends the rescue; with no part in it, a side keeps its role and its counts. -/
theorem keptBut_switch {r : RescueRecord} {target : Side} (h : l.care.rescue = some r) (ht : r.target = some target) :
    KeptBut e l (l.switch r target) := by
  unfold Library.switch
  dsimp only
  refine KeptBut.trans ?_ (kept_setTwin e _ _ _).toKeptBut
  refine KeptBut.trans ?_ (kept_moveItems e _ _ _ _).toKeptBut
  have hu : ∀ s, l.untargeted s → target ≠ s := fun s hs hts => hs.2 r h (by rw [ht, hts])
  have ha : ∀ s, l.apart s → target ≠ s ∧ r.source ≠ s := fun s hs =>
    ⟨fun hts => (hs.2.2 r h).2 (by rw [ht, hts]), (hs.2.2 r h).1⟩
  have hbook : ∀ k : Book, ∀ x : BookEntry, x.state = (l.book r.book).state → x.filing = (l.book r.book).filing →
      x.twinMark = (l.book r.book).twinMark →
      (look (put l.books r.book x) k).state = (l.book k).state ∧ (look (put l.books r.book x) k).filing = (l.book k).filing ∧
        (look (put l.books r.book x) k).twinMark = (l.book k).twinMark := by
    intro k x h1 h2 h3
    rw [look_put]; split
    · rename_i hk; subst hk; exact ⟨h1, h2, h3⟩
    · exact ⟨rfl, rfl, rfl⟩
  have hb := fun k => hbook k
    (if r.ofTwin then { l.book r.book with twin := some target } else { l.book r.book with primary := some target })
    (by split <;> rfl) (by split <;> rfl) (by split <;> rfl)
  exact
    { (Kept.refl e l).toKeptBut with
      state := fun k => (hb k).1
      filing := fun k => (hb k).2.1
      twinMark := fun k => (hb k).2.2 ▸ le_rfl
      twinTop := fun k h => by
        show (look (put l.books r.book _) k).twinMark ≤ (look (put l.books r.book _) k).filing
        rw [(hb k).2.2, (hb k).2.1]; exact h
      health := fun s hs => by
        refine ⟨⟨?_, fun q hq => by cases hq⟩, ?_⟩
        · simp only [Library.role, Library.setRole, Library.setHealth, Library.setBook, look_put]
          split
          · simp
          · split
            · split <;> simp
            · exact hs.1
        · simp [Library.health, Library.setRole, Library.setHealth, Library.setBook, look_put_ne _ _ (hu s hs)]
      role := fun s hs => by
        have hx : look (put (put l.roles target (if r.ofTwin then .twin r.book else .primary r.book)) r.source (.retired r.book)) s
            = l.role s := by
          rw [look_put_ne _ _ (ha s hs).2, look_put_ne _ _ (ha s hs).1]; rfl
        refine ⟨⟨?_, hs.2.1, fun q hq => by cases hq⟩, hx⟩
        exact fun hc => hs.1 (hx.symm.trans hc) }

theorem kept_switch {r : RescueRecord} {target : Side} (h : l.care.rescue = some r) (ht : r.target = some target) :
    Kept e l (l.switch r target) :=
  { keptBut_switch e l h ht with quiet := fun h1 => by rw [h] at h1; cases h1 }

/-- The copying of a rescue goes on: the copy mark rises and nothing of the sides changes. -/
theorem kept_copyMark {r : RescueRecord} (h : l.care.rescue = some r) (n : Nat) (x : Option (List BatchFrame)) :
    Kept e l { l with care := { l.care with rescue := some { r with copyMark := n }, batch := x } } :=
  { Kept.refl e l with
    health := fun s hs => ⟨⟨hs.1, fun q hq => by cases hq; exact hs.2 r h⟩, rfl, rfl, .inl ⟨rfl, rfl⟩⟩
    role := fun s hs => ⟨⟨hs.1, hs.2.1, fun q hq => by cases hq; exact hs.2.2 r h⟩, rfl⟩
    quiet := fun h1 => by rw [h] at h1; cases h1 }

theorem kept_completeBatch {r : RescueRecord} (h : l.care.rescue = some r) (xs : List BatchFrame) :
    Kept e l (l.completeBatch r xs) :=
  (kept_withdrawAll e l _).trans (kept_copyMark e l.withdrawRescue (r := r) h _ _)

theorem kept_runRescue : ∀ (n : Nat) (l : Library), Kept e l (Library.runRescue e n l)
  | 0, l => .refl e l
  | n + 1, l => by
    unfold Library.runRescue
    have h1 : Kept e l (if l.care.seekDue then l.seekRescue e else l) := by
      split
      · exact kept_seekRescue e l
      · exact .refl e l
    dsimp only
    generalize (if l.care.seekDue then l.seekRescue e else l) = m at h1
    refine h1.trans ?_
    split
    · rename_i r hr
      split
      · rename_i target ht
        split
        · exact .refl e m
        · split
          · split
            · exact (kept_setBatch e m _).trans (kept_runRescue n _)
            · split
              · exact (kept_switch e m hr ht).trans (kept_runRescue n _)
              · exact .refl e m
          · split
            · exact (kept_completeBatch e m hr _).trans (kept_runRescue n _)
            · exact (kept_syncReads e _ r _).trans (kept_syncWrites e _ target _)
      · exact .refl e m
    · exact .refl e m

/-- With no rescue running or queued no book's sides are switched, and no book is examined. -/
theorem kept_rescueReaction : Kept e l (l.rescueReaction e) := by
  have h := kept_runRescue e 1100 l
  unfold Library.rescueReaction
  generalize Library.runRescue e 1100 l = a at h ⊢
  refine { h.toKeptBut.trans (keptBut_examineBooks e a _) with quiet := fun h1 h2 => ?_ }
  have hq := h.quiet h1 h2
  have hs : allBooks.filter (Library.switched l a) = [] := by
    rw [List.filter_eq_nil_iff]
    intro b _
    simp [Library.switched, (hq.2.2 b).1, (hq.2.2 b).2.1]
  simpa [Library.examineBooks, hs] using hq

end Sys2Proof.Machine
end

