-- ==== Sys2Proof/Laws/Settle.lean ====
section
/-! SUPPORT. What the mechanism's reactions leave alone, and with them what a whole event's reactions leave alone: `settle_settled` and `finish_finished` are
what proofs about commands cite, with no reaction unfolded. -/

namespace Sys2Proof.Machine

set_option Elab.async false

variable (e : Env) (l : Library)

/-! ## Drives -/

theorem kept_sendSpinUp (d : Drive) (h : (l.drive d).state.settled = false) : Kept e l (l.sendSpinUp e d) :=
  (kept_setDrive e l (d := d) (y := { l.drive d with state := .spinUp, limitStart := e.now })
    ⟨rfl, rfl, rfl, rfl, rfl, rfl, fun k => (by rw [h] at k; cases k), fun k => (by cases k)⟩).trans
    (kept_emit e _ _)

theorem kept_sendSpinDown (d : Drive) (h : (l.drive d).state.settled = false) : Kept e l (l.sendSpinDown e d) :=
  (kept_setDrive e l (d := d) (y := { l.drive d with state := .spinDown, limitStart := e.now })
    ⟨rfl, rfl, rfl, rfl, rfl, rfl, fun k => (by rw [h] at k; cases k), fun k => (by cases k)⟩).trans
    (kept_emit e _ _)

theorem kept_setMoves (ms : List Move) : Kept e l { l with picker := { l.picker with moves := ms } } := .of_same

theorem kept_askReturn (d : Drive) (r : ReturnReason) : Kept e l (l.askReturn d r) := by
  unfold Library.askReturn
  split
  · dsimp only
    split
    · exact .refl e l
    · exact kept_setMoves e l _
  · exact .refl e l

theorem kept_askUnload (d : Drive) : Kept e l (l.askUnload d) := by
  unfold Library.askUnload
  split
  · exact .refl e l
  · exact kept_askReturn e l d _

theorem kept_chooseUnload (d : Drive) : Kept e l (l.chooseUnload e d) := by
  unfold Library.chooseUnload
  dsimp only
  have h1 : Kept e l ((l.setDrive d { l.drive d with unload := true }).callPatrol) :=
    (kept_setDrive e l (d := d) (y := { l.drive d with unload := true })
      ⟨rfl, rfl, rfl, rfl, rfl, rfl, fun _ => rfl, fun k => k⟩).trans (kept_callPatrol e _)
  have h2 : ((l.setDrive d { l.drive d with unload := true }).callPatrol).drive d = { l.drive d with unload := true } := by
    simp [Library.callPatrol, Library.drive, Library.setDrive]
  generalize (l.setDrive d { l.drive d with unload := true }).callPatrol = m at h1 h2
  refine h1.trans ?_
  split
  · rename_i hs; exact kept_sendSpinDown e m d (by rw [hs]; rfl)
  · exact kept_askUnload e m d
  · exact .refl e m

theorem kept_dropPatrolMount (s : Side) : Kept e l (l.dropPatrolMount s) := by
  unfold Library.dropPatrolMount
  split
  · exact .of_same
  · exact .refl e l

theorem kept_dropPatrolLoad (m : Move) : Kept e l (l.dropPatrolLoad m) := by
  cases m with
  | load s f d => exact kept_dropPatrolMount e l _
  | back s d r => exact .refl e l

/-! ## Moves -/

theorem kept_faultMove (m : Move) : Kept e l (l.faultMove e m) := kept_fault e l _

/-- The moves of a picker that is not IDLE are left alone by a fold that leaves its state alone. -/
theorem dropPatrolLoads_picker : ∀ (ms : List Move) (l : Library), (ms.foldl Library.dropPatrolLoad l).picker = l.picker
  | [], _ => rfl
  | m :: ms, l => by
    rw [List.foldl_cons, dropPatrolLoads_picker ms]
    cases m with
    | load s f d =>
      unfold Library.dropPatrolLoad Library.dropPatrolMount
      dsimp only; split <;> rfl
    | back s d r => rfl

theorem kept_faultPicker (h : l.picker.state = .idle) : Kept e l l.faultPicker := by
  unfold Library.faultPicker
  dsimp only
  have h1 : Kept e l (l.picker.moves.foldl Library.dropPatrolLoad l) := Kept.foldl (fun l m => kept_dropPatrolLoad e l m) _ _
  have h2 : (l.picker.moves.foldl Library.dropPatrolLoad l).picker.state = .idle := by
    rw [dropPatrolLoads_picker]; exact h
  generalize l.picker.moves.foldl Library.dropPatrolLoad l = m at h1 h2
  refine h1.trans (Kept.trans ?_ (kept_callDecision e _))
  exact { Kept.refl e m with picker := fun k => absurd h2 k }

theorem kept_beginMove (m : Move) (h : l.picker.state = .idle) (ha : l.moveAllowed e m = true) : Kept e l (l.beginMove e m) := by
  unfold Library.beginMove
  dsimp only
  have h1 : Kept e l (Library.emit
      { l with picker := { l.picker with state := .moving, record := some m, limitStart := e.now, awaitCaddy := false } } (.move m)) :=
    Kept.trans (b := { l with picker :=
        { l.picker with state := .moving, record := some m, limitStart := e.now, awaitCaddy := false } })
      { Kept.refl e l with picker := fun k => absurd h k } (kept_emit e _ (.move m))
  have h2 : ∀ d, (Library.emit
      { l with picker := { l.picker with state := .moving, record := some m, limitStart := e.now, awaitCaddy := false } }
        (.move m)).drive d = l.drive d := fun _ => rfl
  generalize Library.emit
      { l with picker := { l.picker with state := .moving, record := some m, limitStart := e.now, awaitCaddy := false } }
        (.move m) = n at h1 h2
  refine h1.trans ?_
  cases m with
  | load s f d =>
    have hd : (l.drive d).state = .empty := by
      simp only [Library.moveAllowed, Bool.and_eq_true, beq_iff_eq] at ha; exact ha.1.1.1.2
    exact kept_setDrive e n ⟨rfl, rfl, rfl, rfl, rfl, rfl, fun k => (by rw [h2, hd] at k; cases k), fun k => (by cases k)⟩
  | back s d r =>
    cases d with
    | none => exact .refl e n
    | some d =>
      dsimp only
      split
      · exact .refl e n
      · rename_i hf
        have hd : (l.drive d).state = .stopped := by
          simp only [Library.moveAllowed, Bool.or_eq_true, beq_iff_eq] at ha
          rcases ha with ha | ha
          · exact ha
          · rw [h2] at hf; exact absurd ha hf
        exact kept_setDrive e n ⟨rfl, rfl, rfl, rfl, rfl, rfl, fun k => (by rw [h2, hd] at k; cases k), fun k => (by cases k)⟩

theorem kept_dropMove (m : Move) (h : l.picker.state = .idle) : Kept e l (l.dropMove e m) := by
  unfold Library.dropMove
  cases m with
  | load s f d => exact (kept_dropPatrolLoad e l _).trans (kept_callDecision e _)
  | back s d r =>
    dsimp only
    have h1 : Kept e l (if l.homeSeated (.back s d r) then l.faultMove e (.back s d r) else l) := by
      split
      · exact kept_faultMove e l _
      · exact .refl e l
    have h2 : (if l.homeSeated (.back s d r) then l.faultMove e (.back s d r) else l).picker.state = .idle := by
      split
      · exact h
      · exact h
    generalize (if l.homeSeated (.back s d r) then l.faultMove e (.back s d r) else l) = m at h1 h2
    refine h1.trans ?_
    cases d with
    | some d => exact kept_setDrive e m ⟨rfl, rfl, rfl, rfl, rfl, rfl, fun _ => rfl, fun k => k⟩
    | none =>
      dsimp only
      split
      · exact kept_faultPicker e m h2
      · exact .refl e m

theorem kept_tryMoves : ∀ (n : Nat) (l : Library), Kept e l (Library.tryMoves e n l)
  | 0, l => .refl e l
  | n + 1, l => by
    unfold Library.tryMoves
    split
    · exact .refl e l
    · rename_i hs
      have hs : l.picker.state = .idle := by
        by_contra hc; exact hs (.inr hc)
      split
      · exact .refl e l
      · rename_i m rest hm
        dsimp only
        refine (kept_setMoves e l rest).trans ?_
        split
        · rename_i ha
          simp only [Bool.and_eq_true] at ha
          exact kept_beginMove e { l with picker := { l.picker with moves := rest } } m hs ha.1
        · exact (kept_dropMove e { l with picker := { l.picker with moves := rest } } m hs).trans (kept_tryMoves n _)

/-! ## Patrol and the drives' items -/

theorem kept_fullPass (s : Side) : Kept e l (l.fullPass e s) := by
  unfold Library.fullPass
  refine Kept.trans (Kept.trans ?_ (kept_dropPatrolMount e _ s)) (kept_callPatrol e _)
  exact
    { Kept.refl e l with
      health := fun q hq => by
        refine ⟨hq, ?_⟩
        simp only [Library.health, Library.setHealth, look_put]
        split
        · rename_i h; subst h; exact ⟨rfl, rfl, .inr ⟨rfl, rfl⟩⟩
        · exact ⟨rfl, rfl, .inl ⟨rfl, rfl⟩⟩ }

theorem kept_setCursor (a b : Option Side) : Kept e l { l with care := { l.care with cursor := a, lastCursor := b } } := .of_same

theorem kept_moveCursor : ∀ (n : Nat) (l : Library), Kept e l (Library.moveCursor e n l)
  | 0, l => .of_same
  | n + 1, l => by
    unfold Library.moveCursor
    split
    · exact .of_same
    · rename_i s _
      dsimp only
      refine (kept_setCursor e l (some s) (some s)).trans ?_
      split
      · exact kept_place e _ s _
      · exact (kept_fullPass e _ s).trans (kept_moveCursor n _)

theorem kept_examineCursor : Kept e l (l.examineCursor e) := by
  unfold Library.examineCursor
  split
  · dsimp only
    refine Kept.trans (b := { l with care := { l.care with patrolDue := false } }) .of_same ?_
    split
    · split
      · exact .refl e _
      · exact (kept_withdraw e _ _ _).trans (kept_moveCursor e 8 _)
    · exact kept_moveCursor e 8 _
  · exact .refl e l

/-- R109: the issue of a command by a drive that is READY. -/
theorem kept_startCommand (d : Drive) (s : Side) (i : Item) (c : Command) (o : Output) (h : (l.drive d).state.settled = false) :
    Kept e l (l.startCommand e d s i c o) :=
  (kept_setDrive e l (d := d) (y := { l.drive d with state := .active, service := some ⟨i, s, c, e.now⟩ })
    ⟨rfl, rfl, rfl, rfl, rfl, rfl, fun k => (by rw [h] at k; cases k), fun k => (by cases k)⟩).trans
    (kept_emit e _ _)

theorem Library.setWindows_drive (t : Tag) (ws : List Window) (d : Drive) : (l.setWindows t ws).drive d = l.drive d := by
  unfold Library.setWindows; split <;> rfl

theorem Library.setWindow_drive (t : Tag) (w : Window) (d : Drive) : (l.setWindow t w).drive d = l.drive d :=
  l.setWindows_drive t _ d

/-- R109, R98: an issue by a READY drive keeps what the reactions keep, and when no command was issued every drive is as it was. -/
theorem kept_issue (d : Drive) (s : Side) (i : Item) (h : (l.drive d).state.settled = false) :
    Kept e l (l.issue e d s i).2 ∧ ((l.issue e d s i).1 = false → (l.issue e d s i).2.drive d = l.drive d) := by
  have hoff := kept_withdraw e l s i.kind
  unfold Library.issue
  dsimp only
  split
  · split
    · rename_i t b f _ _ w _
      refine ⟨(hoff.trans (kept_setWindow e _ t { w with reading := true })).trans (kept_startCommand e _ d s i _ _ ?_),
        fun k => by cases k⟩
      rw [Library.setWindow_drive]; exact h
    · exact ⟨hoff, fun _ => rfl⟩
  · split
    · rename_i t _ _ x g hg
      obtain ⟨h1, h2, h3⟩ := Library.fileOf_some hg
      have hk : x.KeptTo { x with job := .file { g with phase := .writing } } := by
        refine ⟨rfl, rfl, rfl, fun k => by simp [h2] at k, fun _ k => absurd h3 (k g), fun _ => rfl,
          fun _ => Entry.stop_same rfl (Entry.live_iff.mp h2), ?_, ?_, ?_⟩
        · intro g' hg'; rw [h3] at hg'; cases hg'
        · intro g' hg'; rw [h3] at hg'; cases hg'
          exact ⟨_, rfl, rfl, rfl, fun _ => ⟨rfl, .inr rfl⟩⟩
        · intro g' hg' hp; rw [h3] at hg'; cases hg'
          cases x; cases g; simp only at h3 hp ⊢; rw [h3, hp]
      exact ⟨(hoff.trans (kept_setEntry e (l.withdraw s i.kind) (t := t) h1 hk)).trans (kept_startCommand e _ d s i _ _ h),
        fun k => by cases k⟩
    · exact ⟨hoff, fun _ => rfl⟩
  · split
    · rename_i b _ _ fh data _
      exact ⟨(hoff.trans (kept_setTwin e _ b _)).trans (kept_startCommand e _ d s i _ _ h), fun k => by cases k⟩
    · exact ⟨hoff, fun _ => rfl⟩
  · split
    · rename_i b _ _ r _
      refine ⟨?_, fun k => by cases k⟩
      have h1 := kept_mapRereads e l b fun rs => rs.map fun q => if q.frame = r.frame then { q with state := .reading } else q
      have hd : ((l.mapRereads b fun rs => rs.map fun q =>
        if q.frame = r.frame then { q with state := .reading } else q).drive d).state.settled = false := h
      generalize (l.mapRereads b fun rs => rs.map fun q =>
        if q.frame = r.frame then { q with state := .reading } else q) = m at h1 hd
      refine h1.trans ?_
      split
      · exact kept_startCommand e m d s i _ _ hd
      · exact (kept_withdraw e m s i.kind).trans (kept_startCommand e _ d s i _ _ hd)
    · exact ⟨hoff, fun _ => rfl⟩
  · split
    · exact ⟨(kept_mapBatch e l _).trans (kept_startCommand e _ d s i _ _ h), fun k => by cases k⟩
    · exact ⟨hoff, fun _ => rfl⟩
  · split
    · exact ⟨(kept_mapBatch e l _).trans (kept_startCommand e _ d s i _ _ h), fun k => by cases k⟩
    · exact ⟨hoff, fun _ => rfl⟩
  · split
    · exact ⟨kept_startCommand e l d s i _ _ h, fun k => by cases k⟩
    · refine ⟨hoff.trans (kept_fullPass e _ s), fun _ => ?_⟩
      unfold Library.fullPass Library.dropPatrolMount
      dsimp only
      split <;> rfl

theorem kept_handOut (d : Drive) (s : Side) :
    ∀ (n : Nat) (l : Library), (l.drive d).state.settled = false → Kept e l (Library.handOut e d s n l)
  | 0, l, _ => .refl e l
  | n + 1, l, h => by
    unfold Library.handOut
    split
    · rename_i i _
      have hi := kept_issue e l d s i h
      generalize l.issue e d s i = r at hi
      obtain ⟨b, m⟩ := r
      cases b with
      | true => exact hi.1
      | false => exact hi.1.trans (kept_handOut d s n m (by rw [show m.drive d = l.drive d from hi.2 rfl]; exact h))
    · exact .refl e l

theorem kept_serveDrive (d : Drive) : Kept e l (l.serveDrive e d) := by
  unfold Library.serveDrive
  dsimp only
  split
  · split
    · split
      · rename_i hs
        split
        · exact kept_sendSpinUp e l d (by rw [hs]; rfl)
        · exact .refl e l
      · rename_i hs
        split
        · exact .refl e l
        · exact kept_handOut e d _ 64 l (by rw [hs]; rfl)
      · exact .refl e l
    · exact .refl e l
  · exact .refl e l

theorem kept_serveDrives : Kept e l (l.serveDrives e) := Kept.foldl (fun l d => kept_serveDrive e l d) _ _

/-! ## Decisions -/

theorem kept_takeDrive (d : Drive) : Kept e l (l.takeDrive e d) := by
  unfold Library.takeDrive
  dsimp only
  refine Kept.trans ?_ (kept_chooseUnload e _ d)
  split
  · exact kept_dropPatrolMount e l _
  · exact .refl e l

theorem kept_askLoad (s : Side) (d : Drive) : Kept e l (l.askLoad s d) := .of_same

theorem kept_give (s : Side) (g : Gift) : Kept e l (l.give e s g) := by
  cases g with
  | empty d =>
    simp only [Library.give]
    split
    · exact kept_askLoad e l s d
    · exact .refl e l
  | vacating d => exact .refl e l
  | idle d => exact kept_takeDrive e l d
  | busy d => exact kept_takeDrive e l d

theorem kept_giveAll : ∀ (cs : List SideRank) (ds : List Drive) (l : Library), Kept e l (Library.giveAll e cs ds l)
  | [], _, l => .refl e l
  | c :: rest, ds, l => by
    unfold Library.giveAll
    split
    · exact (kept_give e l _ _).trans (kept_giveAll rest _ _)
    · exact kept_giveAll rest ds l

theorem kept_considerPatrol : Kept e l (l.considerPatrol e) := by
  unfold Library.considerPatrol
  split
  · split
    · exact .refl e l
    · dsimp only
      split
      · exact .of_same
      · split
        · exact kept_takeDrive e l _
        · exact .refl e l
  · exact .refl e l

theorem kept_decide : Kept e l (l.decide e) := by
  unfold Library.decide
  split
  · dsimp only
    refine Kept.trans (b := { l with scheduler := { l.scheduler with decisionDue := false } }) .of_same ?_
    exact (kept_giveAll e _ [] _).trans (kept_considerPatrol e _)
  · exact .refl e l

theorem kept_registerEvents (was : Library) : Kept e l (l.registerEvents e was) := by
  unfold Library.registerEvents
  dsimp only
  have h1 : Kept e l (l.checkPatrolMount e) := by
    unfold Library.checkPatrolMount
    split
    · split
      · exact .refl e l
      · exact kept_dropPatrolMount e l _
    · exact .refl e l
  generalize l.checkPatrolMount e = m at h1
  have h2 : Kept e m (if Library.decisionEvent e was m then m.callDecision else m) := by
    split
    · exact kept_callDecision e m
    · exact .refl e m
  generalize (if Library.decisionEvent e was m then m.callDecision else m) = k at h2
  have h3 : Kept e k (if Library.placedUnmounted was k then k.callPlacement else k) := by
    unfold Library.callPlacement
    split
    · split
      · exact .refl e k
      · exact kept_callDecision e k
    · exact .refl e k
  generalize (if Library.placedUnmounted was k then k.callPlacement else k) = n at h3
  refine ((h1.trans h2).trans h3).trans ?_
  split
  · exact kept_callPatrol e n
  · exact .refl e n

/-! ## One event -/

theorem kept_work : Kept e l (l.work e) := by
  unfold Library.work
  dsimp only
  refine (Kept.foldl (fun l t => kept_turnWindows e l t) allTags l).trans ?_
  refine (kept_unwindStranded e _).trans ?_
  refine (Kept.foldl (fun l t => kept_resolvePending e l t) allTags _).trans ?_
  exact (kept_stage e _).trans (kept_rescueReaction e _)

theorem kept_direct : Kept e l (l.direct e) :=
  (kept_decide e l).trans ((kept_tryMoves e 16 _).trans ((kept_examineCursor e _).trans (kept_serveDrives e _)))

theorem kept_passes : ∀ (n : Nat) (was l : Library), Kept e l (Library.passes e n was l)
  | 0, _, l => .refl e l
  | n + 1, was, l => by
    unfold Library.passes Library.pass
    dsimp only
    exact ((kept_work e l).trans (kept_registerEvents e _ was)).trans ((kept_direct e _).trans (kept_passes n _ _))

/-! ## The end of an event -/

theorem kept_orderReservations (was : Library) : Kept e l (Library.orderReservations was l) := .of_same

theorem insertResponse_perm (r : Response) : ∀ rs : List Response, (insertResponse r rs).Perm (r :: rs)
  | [] => .refl _
  | q :: rest => by
    unfold insertResponse
    split
    · exact .refl _
    · exact ((insertResponse_perm r rest).cons q).trans (.swap r q rest)

theorem sortResponses_perm : ∀ rs : List Response, (rs.foldr insertResponse []).Perm rs
  | [] => .refl _
  | r :: rest => (insertResponse_perm r _).trans ((sortResponses_perm rest).cons r)

/-- R28: a link job is of the tag whose request has it ready. -/
theorem Library.readyJob_tag {l : Library} {t : Tag} {j : LinkJob} (h : l.readyJob t = some j) : j.tag = t := by
  unfold Library.readyJob at h
  split at h
  · unfold Entry.readyJob at h
    split at h
    · split at h
      · split at h
        · split at h
          · cases h
          · cases h; rfl
        · cases h
      · split at h
        · cases h; rfl
        · cases h
      · split at h
        · cases h
        · cases h; rfl
      · split at h
        · cases h
        · cases h; rfl
      · cases h
    · cases h
  · cases h

/-- R28: the jobs ready on the link are those that the requests have. -/
theorem Library.mem_refreshReady (j : LinkJob) : j ∈ l.refreshReady.front.ready ↔ l.readyJob j.tag = some j := by
  unfold Library.refreshReady
  simp only [List.mem_append, List.mem_filter, beq_iff_eq, List.mem_filterMap, allTags, List.mem_finRange, true_and,
    Bool.not_eq_true', List.contains_eq_mem, decide_eq_false_iff_not]
  constructor
  · rintro (⟨-, h⟩ | ⟨⟨t, ht⟩, -⟩)
    · exact h
    · rw [Library.readyJob_tag ht]; exact ht
  · intro h
    by_cases hc : j ∈ l.front.ready ∧ l.readyJob j.tag = some j
    · exact .inl hc
    · exact .inr ⟨⟨_, h⟩, hc⟩

/-- R28: what the end of an event does. -/
theorem finish_finished : Finished l l.finish where
  rest := rfl
  responses := ⟨_, rfl, sortResponses_perm _⟩
  ready j := l.queueResponses.mem_refreshReady j

/-- What the reactions of a whole event keep. -/
theorem settle_settled (was : Library) : Settled e l (l.settle e was) := by
  have h := (kept_passes e 6 was l).trans (kept_orderReservations e _ was)
  unfold Library.settle
  generalize Library.orderReservations was (Library.passes e 6 was l) = m at h
  obtain ⟨rs, hrs⟩ := h.ending
  exact
    { h with
      responses := by
        refine ⟨m.front.ending.foldr insertResponse [], ?_, fun r hr => ?_⟩
        · show m.front.responses ++ _ = _
          rw [h.responses]
        · rw [(sortResponses_perm _).mem_iff, hrs]; exact List.mem_append_left _ hr
      ending := rfl }

end Sys2Proof.Machine
end

