-- ==== Sys2Proof/Laws/Events.lean ====
section
/-! SUPPORT. The frame of an event: what beginning it, reacting to it and ending it leave of the state, and how a command's answer is read once its event is known
to be taken. -/

namespace Sys2Proof.Machine

set_option Elab.async false

variable (s : State)

@[simp] theorem State.begin_pending : s.begin.pending = s.pending := rfl
@[simp] theorem State.begin_env : s.begin.env = s.env := rfl
@[simp] theorem State.begin_fee : s.begin.fee = s.fee := rfl
@[simp] theorem State.begin_out : s.begin.lib.out = [] := rfl
@[simp] theorem State.begin_front : s.begin.lib.front = s.lib.front := rfl
@[simp] theorem State.begin_entry (t : Tag) : s.begin.lib.entry t = s.lib.entry t := rfl
@[simp] theorem State.begin_book (b : Book) : s.begin.lib.book b = s.lib.book b := rfl
@[simp] theorem State.begin_role (i : Side) : s.begin.lib.role i = s.lib.role i := rfl
@[simp] theorem State.begin_drive (d : Drive) : s.begin.lib.drive d = s.lib.drive d := rfl
@[simp] theorem State.begin_health (i : Side) : s.begin.lib.health i = s.lib.health i := rfl
@[simp] theorem State.begin_log : s.begin.lib.log = s.lib.log := rfl
@[simp] theorem State.begin_care : s.begin.lib.care = s.lib.care := rfl
@[simp] theorem State.begin_picker : s.begin.lib.picker = s.lib.picker := rfl
@[simp] theorem State.begin_buffer : s.begin.lib.buffer = s.lib.buffer := rfl

@[simp] theorem State.react_pending (was : Library) : (s.react was).pending = s.pending := rfl
@[simp] theorem State.react_env (was : Library) : (s.react was).env = s.env := rfl
@[simp] theorem State.react_fee (was : Library) : (s.react was).fee = s.fee := rfl
@[simp] theorem State.finish_pending : s.finish.pending = s.pending := rfl
@[simp] theorem State.finish_env : s.finish.env = s.env := rfl
@[simp] theorem State.finish_fee : s.finish.fee = s.fee := rfl
@[simp] theorem State.finishCommand_pending (d : Drive) : (s.finishCommand d).pending = s.pending := rfl
@[simp] theorem State.finishCommand_env (d : Drive) : (s.finishCommand d).env = s.env := rfl
@[simp] theorem State.finishCommand_fee (d : Drive) : (s.finishCommand d).fee = s.fee := rfl
@[simp] theorem State.reach_pending (n : Nat) : (s.reach n).pending = s.pending := rfl
@[simp] theorem State.reach_fee (n : Nat) : (s.reach n).fee = s.fee := rfl
@[simp] theorem State.reach_lib (n : Nat) : (s.reach n).lib = s.lib := rfl
@[simp] theorem State.reach_env (n : Nat) : (s.reach n).env = s.env.reach n := rfl

/-- The reactions of an event, as a statement about the state. -/
theorem State.react_reacted {s u : State} (h : u.pending = s.pending) : Reacted s (u.react s.begin.lib) u.env u.fee u.lib :=
  ⟨h, rfl, rfl, rfl, settle_settled u.env u.lib s.begin.lib⟩

/-- The end of an event, as a statement about the state. -/
theorem State.finish_ended {s u : State} (h : u.pending = s.pending) : Ended s u.finish u.env u.fee u.lib :=
  ⟨h, rfl, rfl, finish_finished u.lib⟩

/-- R183: an event is taken when start-up is over. -/
theorem State.event_next {s : State} (f : State → State) (h : s.env.startUp = none) : s.event f = .next (f s.begin) := by
  unfold State.event
  simp [State.starting, h]

/-- R183: no event is taken while start-up is not over. -/
theorem State.event_starting {s : State} (f : State → State) (h : s.env.startUp.isSome = true) : s.event f = .next s.begin := by
  unfold State.event
  simp [State.starting, h]

/-- R109: the outcome of a drive whose command runs is taken. -/
theorem State.outcome_next {s : State} {d : Drive} {v : InService} (f : State → InService → State) (h : s.env.startUp = none)
    (ha : (s.lib.drive d).state = .active) (hv : (s.lib.drive d).service = some v) (hx : (s.lib.drive d).expired ≠ some s.env.now) :
    s.outcome d f = .next (f s.begin v) := by
  unfold State.outcome
  rw [State.event_next _ h]
  simp [Library.lateOutcome, Library.activeService, ha, hv, hx]

/-- R109: an outcome that arrives at the time of an expiry of its drive's command limit is discarded. -/
theorem State.outcome_late {s : State} {d : Drive} (f : State → InService → State) (h : s.env.startUp = none)
    (hx : (s.lib.drive d).expired = some s.env.now) : s.outcome d f = .next { s with lib := s.begin.lib.dropLate d } := by
  unfold State.outcome
  rw [State.event_next _ h]
  simp [Library.lateOutcome, hx]

/-- R112: an expiry or a fault is taken by the command in progress of its drive. -/
theorem State.atCommand_next {s : State} {d : Drive} {v : InService} (f : State → InService → State) (h : s.env.startUp = none)
    (ha : (s.lib.drive d).state = .active) (hv : (s.lib.drive d).service = some v) : s.atCommand d f = .next (f s.begin v) := by
  unfold State.atCommand
  rw [State.event_next _ h]
  simp [Library.activeService, ha, hv]

/-! The changes of a start-up, taken one after another (R184). -/

@[simp] theorem State.take_nil (s : State) : s.take [] = s := rfl

@[simp] theorem State.take_cons (s : State) (c : State → State) (cs : List (State → State)) : s.take (c :: cs) = (c s).take cs := rfl

@[simp] theorem State.take_append (s : State) (cs ds : List (State → State)) : s.take (cs ++ ds) = (s.take cs).take ds := List.foldl_append

/-- R184: what every change of start-up keeps, start-up keeps however many of them it takes. -/
theorem State.take_keeps {P : State → Prop} {cs : List (State → State)} (h : ∀ c ∈ cs, ∀ s, P s → P (c s)) : ∀ {s : State}, P s → P (s.take cs) := by
  induction cs with
  | nil => exact fun k => k
  | cons c cs ih => exact fun k => ih (fun d hd => h d (.tail _ hd)) (h c (.head _) _ k)

/-- A reaction before the others is one of them. -/
theorem Kept.settled {e : Env} {a b c : Library} (h : Kept e a b) (k : Settled e b c) : Settled e a c where
  toKeptMost := h.toKeptMost.trans k.toKeptMost
  toKeptCare := h.toKeptCare.trans k.toKeptCare
  quiet hr hq := by
    obtain ⟨h1, h2, h3⟩ := h.quiet hr hq
    have hq' : b.care.queue = [] := by
      have := h.queue; rw [hq] at this; exact List.sublist_nil.mp this
    obtain ⟨k1, k2, k3⟩ := k.quiet h1 hq'
    exact ⟨k1, k2.trans h2, fun i =>
      ⟨(k3 i).1.trans (h3 i).1, (k3 i).2.1.trans (h3 i).2.1, (k3 i).2.2.trans (h3 i).2.2⟩⟩
  responses := by
    obtain ⟨rs, hrs, hm⟩ := k.responses
    obtain ⟨qs, hqs⟩ := h.ending
    exact ⟨rs, by rw [hrs, h.responses], fun r hr => hm r (by rw [hqs]; exact List.mem_append_left _ hr)⟩
  ending := k.ending

/-- R56, R128: everything that the test of the held-sector total can do. -/
theorem testEscalation_tests (l : Library) :
    EscalationTested l l.testEscalation
      ∧ l.testEscalation = { l with
          buffer := { l.buffer with escalation := l.testEscalation.buffer.escalation }
          scheduler := { l.scheduler with
            escalation := l.testEscalation.scheduler.escalation, decisionDue := l.testEscalation.scheduler.decisionDue } }
      ∧ (l.scheduler.decisionDue = true → l.testEscalation.scheduler.decisionDue = true) := by
  unfold Library.testEscalation
  dsimp only
  split
  next h => exact ⟨⟨h.symm, fun k => absurd rfl k, fun _ => rfl⟩, rfl, id⟩
  next h => exact ⟨⟨rfl, fun _ => ⟨rfl, rfl⟩, fun k => absurd k h⟩, rfl, fun _ => rfl⟩

/-- R44, R181: a FETCH ends DONE where its last sector has been delivered; any other request is left alone. -/
theorem endDelivered_cases (l : Library) (t : Tag) :
    (l.endDelivered t = l ∧ ∀ x, l.entry t = some x → x.moved ≠ x.record.count.val)
      ∨ ∃ x, l.entry t = some x ∧ x.moved = x.record.count.val ∧ l.endDelivered t = l.endRequest t .done x.moved 0 := by
  unfold Library.endDelivered
  cases h : l.entry t with
  | none => exact .inl ⟨rfl, fun x hx => by cases hx⟩
  | some x =>
    by_cases hm : x.moved = x.record.count.val
    · exact .inr ⟨x, rfl, hm, if_pos hm⟩
    · exact .inl ⟨if_neg hm, fun y hy => by cases hy; exact hm⟩

/-- R28, R181: a burst that a warning finds on the link is the one that is next there, and no FILE's burst is arriving. -/
theorem burstOnLink_some {l : Library} {n : Nat} {t : Tag} {x : Entry} (h : l.burstOnLink n = some (t, x)) :
    l.front.linkBurst = none ∧ l.front.ready.head? = some (.burst t) ∧ l.entry t = some x ∧ n < x.sectorsReady ∧ n < Config.sectorsPerFrame := by
  unfold Library.burstOnLink at h
  split at h
  next t' hj =>
    split at h
    next x' hx =>
      split at h
      next hn =>
        cases h
        unfold Library.nextJob at hj
        split at hj
        · cases hj
        next hb => exact ⟨hb, hj, hx, by omega, by omega⟩
      · cases h
    · cases h
  · cases h

/-- R28: a warning that finds a FILE's burst on the link, or no burst next, cuts none. -/
theorem burstOnLink_none {l : Library} {n : Nat} (h : l.front.linkBurst ≠ none ∨ ∀ t, l.front.ready.head? ≠ some (.burst t)) :
    l.burstOnLink n = none := by
  cases hb : l.burstOnLink n with
  | none => rfl
  | some p =>
    obtain ⟨h1, h2, -⟩ := burstOnLink_some hb
    rcases h with h | h
    · exact absurd h1 h
    · exact absurd h2 (h _)

@[simp] theorem State.beginHold_pending : s.beginHold.pending = s.pending := rfl
@[simp] theorem State.beginHold_env : s.beginHold.env = { s.env with hold := true, holdMarker := true } := rfl
@[simp] theorem State.beginHold_fee : s.beginHold.fee = s.fee.closeAll := rfl
@[simp] theorem State.beginHold_lib : s.beginHold.lib = s.lib.fault s.env (FaultRecord.of s.env .powerWarning) := rfl

/-- R181, R152: where no burst is on the link HOLD begins as it is, and otherwise the burst is cut before the assertion or after it. -/
theorem holdOver_cases (i : InTransfer) :
    (s.lib.burstOnLink i.sent = none ∧ s.holdOver i = s.beginHold)
      ∨ ∃ t x, s.lib.burstOnLink i.sent = some (t, x)
        ∧ ((offersFirst i = true ∧ s.holdOver i = (s.finishTransfer s t x (i.sent + 1)).beginHold)
          ∨ (offersFirst i = false ∧ s.holdOver i = s.beginHold.finishTransfer s t x (i.sent + 1))) := by
  unfold State.holdOver
  split
  next t x h =>
    refine .inr ⟨t, x, h, ?_⟩
    cases hi : offersFirst i
    · exact .inr ⟨rfl, if_neg (by simp)⟩
    · exact .inl ⟨rfl, if_pos rfl⟩
  next h => exact .inl ⟨h, rfl⟩

/-- An event without reactions leaves the blocks as its own effect left them. -/
theorem Finished.sameBlocks {a b : Library} (h : Finished a b) : SameBlocks a b := by
  rw [h.rest]; exact ⟨rfl, rfl, rfl, rfl, rfl, rfl, rfl, rfl, rfl⟩

theorem Finished.entry {a b : Library} (h : Finished a b) (t : Tag) : b.entry t = a.entry t := by
  rw [h.rest]; rfl

theorem Finished.out {a b : Library} (h : Finished a b) : b.out = a.out := by rw [h.rest]

theorem Finished.link {a b : Library} (h : Finished a b) : b.front.linkBurst = a.front.linkBurst := by rw [h.rest]

theorem Finished.ending {a b : Library} (h : Finished a b) : b.front.ending = [] := by rw [h.rest]

theorem SameBlocks.refl (a : Library) : SameBlocks a a := ⟨rfl, rfl, rfl, rfl, rfl, rfl, rfl, rfl, rfl⟩

theorem SameBlocks.trans {a b c : Library} (h : SameBlocks a b) (k : SameBlocks b c) : SameBlocks a c :=
  ⟨k.books.trans h.books, k.roles.trans h.roles, k.hold.trans h.hold, k.escalation.trans h.escalation, k.twins.trans h.twins,
    k.drives.trans h.drives, k.picker.trans h.picker, k.care.trans h.care, k.log.trans h.log⟩

end Sys2Proof.Machine
end

