-- ==== Sys2Proof/Laws/Requests.lean ====
section
/-! SUPPORT. The end of a request, said once: what becomes of its entry, of its response, of the other requests and of the blocks. -/

namespace Sys2Proof.Machine

set_option Elab.async false

variable (l : Library)

/-- What releasing a window changes: the demand lists and, while it is being read, whether the commands in progress are still wanted. -/
structure OnlyDemand (a b : Library) : Prop where
  front : b.front = a.front
  books : b.books = a.books
  roles : b.roles = a.roles
  buffer : b.buffer = a.buffer
  twins : b.twins = a.twins
  picker : b.picker = a.picker
  care : b.care = a.care
  log : b.log = a.log
  out : b.out = a.out
  drive : ∀ d, ∃ v, b.drive d = { a.drive d with service := v } ∧ v.isSome = (a.drive d).service.isSome

theorem OnlyDemand.refl (a : Library) : OnlyDemand a a := ⟨rfl, rfl, rfl, rfl, rfl, rfl, rfl, rfl, rfl, fun _ => ⟨_, rfl, rfl⟩⟩

theorem OnlyDemand.trans {a b c : Library} (h : OnlyDemand a b) (k : OnlyDemand b c) : OnlyDemand a c where
  front := k.front.trans h.front
  books := k.books.trans h.books
  roles := k.roles.trans h.roles
  buffer := k.buffer.trans h.buffer
  twins := k.twins.trans h.twins
  picker := k.picker.trans h.picker
  care := k.care.trans h.care
  log := k.log.trans h.log
  out := k.out.trans h.out
  drive d := by
    obtain ⟨v, hv, hv'⟩ := h.drive d
    obtain ⟨w, hw, hw'⟩ := k.drive d
    refine ⟨w, ?_, ?_⟩
    · rw [hw, hv]
    · rw [hw', hv]; exact hv'

theorem OnlyDemand.entry {a b : Library} (h : OnlyDemand a b) (t : Tag) : b.entry t = a.entry t := by
  unfold Library.entry; rw [h.front]

theorem onlyDemand_withdraw (s : Side) (k : ItemKind) : OnlyDemand l (l.withdraw s k) :=
  ⟨rfl, rfl, rfl, rfl, rfl, rfl, rfl, rfl, rfl, fun _ => ⟨_, rfl, rfl⟩⟩

theorem onlyDemand_withdrawAll (p : ItemKind → Bool) : OnlyDemand l (l.withdrawAll p) :=
  ⟨rfl, rfl, rfl, rfl, rfl, rfl, rfl, rfl, rfl, fun _ => ⟨_, rfl, rfl⟩⟩

theorem onlyDemand_mapCommands (f : Command → Command) : OnlyDemand l (l.mapCommands f) where
  front := rfl
  books := rfl
  roles := rfl
  buffer := rfl
  twins := rfl
  picker := rfl
  care := rfl
  log := rfl
  out := rfl
  drive d := by
    refine ⟨((l.drive d).service.map fun v => { v with command := f v.command }), ?_, by simp⟩
    simp [Library.drive, Library.mapCommands, look]

theorem onlyDemand_release (t : Tag) (w : Window) (n : Option Nat) : OnlyDemand l (l.release t w n) := by
  have h : OnlyDemand l (match w.item with
      | some s => l.withdraw s (.fetch t w.book w.frame)
      | none => l) := by
    split
    · exact onlyDemand_withdraw l _ _
    · exact OnlyDemand.refl l
  unfold Library.release
  dsimp only
  split
  · exact h.trans (onlyDemand_mapCommands _ _)
  · exact h

theorem onlyDemand_releases (t : Tag) (n : Option Nat) :
    ∀ (ws : List Window) (l : Library), OnlyDemand l (ws.foldl (fun l w => l.release t w n) l)
  | [], l => OnlyDemand.refl l
  | w :: ws, l => (onlyDemand_release l t w n).trans (onlyDemand_releases t n ws _)

/-- R44: the entry of a request that has ended. -/
def Entry.end_ (x : Entry) (o : Outcome) (moved discard : Nat) : Entry :=
  { x with
    moved := moved, stopAddress := stopAddressOf o x.record.addr.val moved, job := x.job.clear, ended := some o, discard := discard }

/-- R44: everything that the end of a request can do. -/
structure EndsRequest (a b : Library) (t : Tag) (x : Entry) (o : Outcome) (moved discard : Nat) : Prop where
  entry : b.entry t = some (x.end_ o moved discard)
  others : ∀ u, u ≠ t → b.entry u = a.entry u
  ready : b.front.ready = a.front.ready.filter fun j => j.tag != t
  responses : b.front.responses = a.front.responses
  ending : b.front.ending = a.front.ending ++ [(x.end_ o moved discard).response o]
  link : b.front.linkBurst = a.front.linkBurst
  books : b.books = a.books
  roles : b.roles = a.roles
  hold : b.buffer.hold = a.buffer.hold
  escalation : b.buffer.escalation = a.buffer.escalation
  twins : b.twins = a.twins
  picker : b.picker = a.picker
  care : b.care = a.care
  log : b.log = a.log
  out : b.out = a.out
  drive : ∀ d, ∃ v, b.drive d = { a.drive d with service := v } ∧ v.isSome = (a.drive d).service.isSome
  drives : x.windows = [] → b.drives = a.drives

/-- R44: the end of a request that is LIVE. -/
theorem endRequest_ends {l : Library} {t : Tag} {x : Entry} (h : l.entry t = some x) (o : Outcome) (moved discard : Nat) :
    EndsRequest l (l.endRequest t o moved discard) t x o moved discard := by
  unfold Library.endRequest
  rw [h]
  dsimp only
  generalize hm : x.windows.foldl (fun l w => l.release t w none) l = m
  have hk : OnlyDemand l m := by rw [← hm]; exact onlyDemand_releases t none _ l
  have hd : x.windows = [] → m = l := by intro hw; rw [← hm, hw]; rfl
  have k := hk.trans (onlyDemand_withdrawAll m (ItemKind.ofTag t))
  generalize hn : m.withdrawAll (ItemKind.ofTag t) = n at k
  have hd' : x.windows = [] → n.drives = l.drives := by
    intro hw; rw [← hn, Library.withdrawAll_drives, hd hw]
  exact
    { entry := by simp only [Library.entry, look_put_same]; rfl
      others := fun u hu => by
        have := k.entry u
        simp only [Library.entry] at this ⊢
        rw [look_put_ne _ _ (Ne.symm hu)]
        exact this
      ready := by rw [← k.front]
      responses := by rw [← k.front]
      ending := by rw [← k.front]; rfl
      link := by rw [← k.front]
      books := k.books
      roles := k.roles
      hold := by rw [← k.buffer]
      escalation := by rw [← k.buffer]
      twins := k.twins
      picker := k.picker
      care := k.care
      log := k.log
      out := k.out
      drive := fun d => k.drive d
      drives := hd' }

/-- A FREE tag has no request to end. -/
theorem endRequest_none {l : Library} {t : Tag} (h : l.entry t = none) (o : Outcome) (moved discard : Nat) :
    l.endRequest t o moved discard = l := by
  unfold Library.endRequest; rw [h]

/-- R25, R44: a request that ends and touches no command leaves the blocks as they were. -/
theorem EndsRequest.sameBlocks {a b : Library} {t : Tag} {x : Entry} {o : Outcome} {m d : Nat} (h : EndsRequest a b t x o m d)
    (hw : x.windows = []) : SameBlocks a b :=
  ⟨h.books, h.roles, h.hold, h.escalation, h.twins, h.drives hw, h.picker, h.care, h.log⟩

/-- R28, R44: after the end of the event the response of the request that has ended waits to be sent. -/
theorem EndsRequest.finished {a b c : Library} {t : Tag} {x : Entry} {o : Outcome} {m d : Nat} (h : EndsRequest a b t x o m d)
    (k : Finished b c) : RequestEnds c t x o m where
  entry := ⟨x.end_ o m d, by rw [k.entry, h.entry], rfl, rfl, rfl, rfl, rfl, rfl⟩
  response := by
    obtain ⟨rs, hrs, hp⟩ := k.responses
    rw [hrs]
    refine List.mem_append_right _ (hp.mem_iff.mpr ?_)
    rw [h.ending]
    exact List.mem_append_right _ (List.mem_singleton.mpr rfl)

/-- R28, R44: the same when the event has reactions, which keep the entry of an ended request. -/
theorem EndsRequest.settled {e : Env} {a b c : Library} {t : Tag} {x : Entry} {o : Outcome} {m d : Nat} (h : EndsRequest a b t x o m d)
    (k : Settled e b c) : RequestEnds c t x o m where
  entry := by
    obtain ⟨y, hy, hk⟩ := k.entry t _ h.entry
    have hy' := hk.ended (by rfl)
    subst hy'
    exact ⟨_, hy, rfl, rfl, rfl, rfl, rfl, rfl⟩
  response := by
    obtain ⟨rs, hrs, hm⟩ := k.responses
    rw [hrs]
    refine List.mem_append_right _ (hm _ ?_)
    rw [h.ending]
    exact List.mem_append_right _ (List.mem_singleton.mpr rfl)

end Sys2Proof.Machine
end

