-- ==== Sys2Proof/Laws/Counts.lean ====
section
/-! SUPPORT. The outcome of a drive's command, said once: what finishing the command, counting its results and the rescue trigger change. -/

namespace Sys2Proof.Machine

set_option Elab.async false

variable (e : Env) (l : Library)

/-- The blocks that neither a drive's command nor a count touches. -/
structure SameButCounts (a b : Library) : Prop where
  front : b.front = a.front
  books : b.books = a.books
  roles : b.roles = a.roles
  buffer : b.buffer = a.buffer
  twins : b.twins = a.twins
  picker : b.picker = a.picker
  rescue : b.care.rescue = a.care.rescue
  batch : b.care.batch = a.care.batch

theorem SameButCounts.refl (a : Library) : SameButCounts a a := ⟨rfl, rfl, rfl, rfl, rfl, rfl, rfl, rfl⟩

theorem SameButCounts.trans {a b c : Library} (h : SameButCounts a b) (k : SameButCounts b c) : SameButCounts a c :=
  ⟨k.front.trans h.front, k.books.trans h.books, k.roles.trans h.roles, k.buffer.trans h.buffer, k.twins.trans h.twins,
    k.picker.trans h.picker, k.rescue.trans h.rescue, k.batch.trans h.batch⟩

theorem SameButCounts.entry {a b : Library} (h : SameButCounts a b) (t : Tag) : b.entry t = a.entry t := by
  unfold Library.entry; rw [h.front]

theorem SameButCounts.book {a b : Library} (h : SameButCounts a b) (k : Book) : b.book k = a.book k := by
  unfold Library.book; rw [h.books]

theorem SameButCounts.role {a b : Library} (h : SameButCounts a b) (s : Side) : b.role s = a.role s := by
  unfold Library.role; rw [h.roles]

theorem SameButCounts.twin {a b : Library} (h : SameButCounts a b) (k : Book) : b.twin k = a.twin k := by
  unfold Library.twin; rw [h.twins]

/-! ## A fault -/

theorem fault_same (r : FaultRecord) : SameButCounts l (l.fault e r) := ⟨rfl, rfl, rfl, rfl, rfl, rfl, rfl, rfl⟩

@[simp] theorem fault_health_eq (r : FaultRecord) : (l.fault e r).care = l.care := rfl

/-- R178: a fault that is not masked fills an empty record. -/
theorem fault_first {l : Library} {e : Env} {r : FaultRecord} (h : l.log.first = none) (hm : KindSet.has e.mask r.kind = false) :
    (l.fault e r).log.first = some r := by
  simp [Library.fault, FaultLog.record, hm, h]

/-- R178: a full record is not changed. -/
theorem fault_keeps {l : Library} {e : Env} {r q : FaultRecord} (h : l.log.first = some q) : (l.fault e r).log.first = some q := by
  simp only [Library.fault, FaultLog.record]
  split
  · exact h
  · simp [h]

/-! ## The trigger -/

/-- R166: everything that the trigger can do. -/
theorem trigger_cases (s : Side) :
    l.trigger e s = l
      ∨ (l.care.queue.length < Config.queueSlots ∧
          l.trigger e s = { l with care := { l.care with queue := l.care.queue ++ [s], seekDue := true } })
      ∨ (Config.queueSlots ≤ l.care.queue.length ∧
          l.trigger e s = l.fault e { FaultRecord.of e .rescueQueueFull with book := (l.role s).holds, side := some s }) := by
  unfold Library.trigger
  dsimp only
  split
  · split
    · rename_i h; exact .inr (.inl ⟨h, rfl⟩)
    · rename_i h; exact .inr (.inr ⟨by omega, rfl⟩)
  · exact .inl rfl

theorem trigger_same (s : Side) : SameButCounts l (l.trigger e s) := by
  rcases trigger_cases e l s with h | ⟨-, h⟩ | ⟨-, h⟩ <;> rw [h]
  · exact SameButCounts.refl l
  · exact ⟨rfl, rfl, rfl, rfl, rfl, rfl, rfl, rfl⟩
  · exact fault_same e l _

@[simp] theorem trigger_health (s i : Side) : (l.trigger e s).health i = l.health i := by
  rcases trigger_cases e l s with h | ⟨-, h⟩ | ⟨-, h⟩ <;> rw [h] <;> rfl

@[simp] theorem trigger_drive (s : Side) (d : Drive) : (l.trigger e s).drive d = l.drive d := by
  rcases trigger_cases e l s with h | ⟨-, h⟩ | ⟨-, h⟩ <;> rw [h] <;> rfl

@[simp] theorem trigger_scheduler (s : Side) : (l.trigger e s).scheduler = l.scheduler := by
  rcases trigger_cases e l s with h | ⟨-, h⟩ | ⟨-, h⟩ <;> rw [h]
  rfl

@[simp] theorem trigger_out (s : Side) : (l.trigger e s).out = l.out := by
  rcases trigger_cases e l s with h | ⟨-, h⟩ | ⟨-, h⟩ <;> rw [h]
  rfl

/-- R166: with room in the queue the trigger records no fault. -/
theorem trigger_log {l : Library} {e : Env} {s : Side} (h : l.care.queue.length < 8) : (l.trigger e s).log = l.log := by
  rcases trigger_cases e l s with k | ⟨-, k⟩ | ⟨hq, k⟩
  · rw [k]
  · rw [k]
  · simp only [Config.queueSlots] at hq; omega

/-! ## Counts -/

/-- R65, R115, R161: everything that counting an outcome does to counters. -/
theorem countRead_counts (d : Drive) (s : Side) (b : Book) (f : Nat) (t : Option Tag) (rs : List ReadResult) :
    SameButCounts l (l.countRead e d s b f t rs)
      ∧ (l.countRead e d s b f t rs).drive d = (l.drive d).count (countCorrected rs) (countFailed rs)
      ∧ (∀ d', d' ≠ d → (l.countRead e d s b f t rs).drive d' = l.drive d')
      ∧ (l.countRead e d s b f t rs).health s = (l.health s).count (countCorrected rs) (countFailed rs)
      ∧ (∀ i, i ≠ s → (l.countRead e d s b f t rs).health i = l.health i)
      ∧ (l.countRead e d s b f t rs).out = l.out ∧ (l.countRead e d s b f t rs).scheduler = l.scheduler := by
  unfold Library.countRead
  dsimp only
  generalize hm : (l.setHealth s ((l.health s).count (countCorrected rs) (countFailed rs))).setDrive d
    ((l.drive d).count (countCorrected rs) (countFailed rs)) = m
  have h1 : SameButCounts l m := by rw [← hm]; exact ⟨rfl, rfl, rfl, rfl, rfl, rfl, rfl, rfl⟩
  have h2 : m.drive d = (l.drive d).count (countCorrected rs) (countFailed rs) := by rw [← hm]; simp
  have h3 : ∀ d', d' ≠ d → m.drive d' = l.drive d' := by
    intro d' hd; rw [← hm]; simp [Library.setDrive_drive, Ne.symm hd]
  have h4 : m.health s = (l.health s).count (countCorrected rs) (countFailed rs) := by rw [← hm]; simp
  have h5 : ∀ i, i ≠ s → m.health i = l.health i := by
    intro i hi; rw [← hm]; simp [Library.setHealth_health, Ne.symm hi]
  have h6 : m.out = l.out := by rw [← hm]; rfl
  have h7 : m.scheduler = l.scheduler := by rw [← hm]; rfl
  clear hm
  generalize hn : (if 0 < countFailed rs then
      m.fault e { FaultRecord.of e .readUncorrectable with
        book := some b, side := some s, frame := some f, drive := some d, tag := t }
    else m) = n
  have k : SameButCounts m n ∧ n.drives = m.drives ∧ n.care = m.care ∧ n.out = m.out ∧ n.scheduler = m.scheduler := by
    rw [← hn]; split
    · exact ⟨fault_same e m _, rfl, rfl, rfl, rfl⟩
    · exact ⟨SameButCounts.refl m, rfl, rfl, rfl, rfl⟩
  obtain ⟨k1, k2, k3, k4, k5⟩ := k
  have kd : ∀ d', n.drive d' = m.drive d' := fun d' => by unfold Library.drive; rw [k2]
  have kh : ∀ i, n.health i = m.health i := fun i => by unfold Library.health; rw [k3]
  clear hn
  split
  · refine ⟨(h1.trans k1).trans (trigger_same e n s), ?_, ?_, ?_, ?_, ?_, ?_⟩
    · rw [trigger_drive, kd, h2]
    · intro d' hd; rw [trigger_drive, kd, h3 d' hd]
    · rw [trigger_health, kh, h4]
    · intro i hi; rw [trigger_health, kh, h5 i hi]
    · rw [trigger_out, k4, h6]
    · rw [trigger_scheduler, k5, h7]
  · refine ⟨h1.trans k1, ?_, ?_, ?_, ?_, k4.trans h6, k5.trans h7⟩
    · rw [kd, h2]
    · intro d' hd; rw [kd, h3 d' hd]
    · rw [kh, h4]
    · intro i hi; rw [kh, h5 i hi]

/-- R161: everything that counting a WRITE_FAIL does. -/
theorem countWriteFail_counts (s : Side) :
    SameButCounts l (l.countWriteFail e s) ∧ (∀ d, (l.countWriteFail e s).drive d = l.drive d)
      ∧ (l.countWriteFail e s).health s = (l.health s).count 0 1 ∧ (∀ i, i ≠ s → (l.countWriteFail e s).health i = l.health i)
      ∧ (l.countWriteFail e s).out = l.out ∧ (l.countWriteFail e s).scheduler = l.scheduler
      ∧ (l.care.queue.length < 8 → (l.countWriteFail e s).log = l.log) := by
  unfold Library.countWriteFail
  have h0 : SameButCounts l (l.setHealth s ((l.health s).count 0 1)) := ⟨rfl, rfl, rfl, rfl, rfl, rfl, rfl, rfl⟩
  refine ⟨h0.trans (trigger_same e _ s), ?_, ?_, ?_, ?_, ?_, ?_⟩
  · intro d; rw [trigger_drive]; rfl
  · rw [trigger_health]; simp
  · intro i hi; rw [trigger_health]; simp [Library.setHealth_health, Ne.symm hi]
  · rw [trigger_out]; rfl
  · rw [trigger_scheduler]; rfl
  · intro h; rw [trigger_log (by simpa using h)]; rfl

/-! ## The end of a command -/

/-- R109: a drive whose command has ended. -/
def DriveRecord.after (r : DriveRecord) (now : Nat) : DriveRecord :=
  { r with
    service := none, failures := 0, lastUse := now, state := if r.unload then .spinDown else .ready,
    limitStart := if r.unload then now else r.limitStart }

/-- R109, R111: where a drive goes from ACTIVE or from a ready report. -/
theorem toReady_goes (d : Drive) :
    SameButCounts l (l.toReady e d)
      ∧ (l.toReady e d).drive d = { l.drive d with
          state := if (l.drive d).unload then .spinDown else .ready,
          limitStart := if (l.drive d).unload then e.now else (l.drive d).limitStart }
      ∧ (∀ d', d' ≠ d → (l.toReady e d).drive d' = l.drive d')
      ∧ (l.toReady e d).care = l.care ∧ (l.toReady e d).log = l.log ∧ (l.toReady e d).scheduler = l.scheduler
      ∧ (l.toReady e d).out = l.out ++ (if (l.drive d).unload then [.spinDown d] else []) := by
  unfold Library.toReady Library.sendSpinDown
  by_cases hu : (l.drive d).unload = true
  · simp only [hu, if_true]
    refine ⟨⟨rfl, rfl, rfl, rfl, rfl, rfl, rfl, rfl⟩, ?_, ?_, rfl, rfl, rfl, rfl⟩
    · rw [Library.emit_drive, Library.setDrive_drive_same]
    · intro d' hd; rw [Library.emit_drive, Library.setDrive_drive, if_neg (Ne.symm hd)]
  · have hu : (l.drive d).unload = false := by simpa using hu
    simp only [hu]
    refine ⟨⟨rfl, rfl, rfl, rfl, rfl, rfl, rfl, rfl⟩, ?_, ?_, rfl, rfl, rfl, ?_⟩
    · simp
    · intro d' hd; simp [Library.setDrive_drive, Ne.symm hd]
    · simp

/-- R109, R111: everything that the end of a drive's command does. -/
theorem finishCommand_ends (d : Drive) (patrol : Bool) :
    SameButCounts l (l.finishCommand e d patrol)
      ∧ (l.finishCommand e d patrol).drive d = (l.drive d).after e.now
      ∧ (∀ d', d' ≠ d → (l.finishCommand e d patrol).drive d' = l.drive d')
      ∧ (l.finishCommand e d patrol).care = l.care ∧ (l.finishCommand e d patrol).log = l.log
      ∧ (l.finishCommand e d patrol).scheduler = { l.scheduler with quiet := if patrol then l.scheduler.quiet else e.now }
      ∧ (l.finishCommand e d patrol).out = l.out ++ (if (l.drive d).unload then [.spinDown d] else []) := by
  unfold Library.finishCommand
  dsimp only
  generalize hm : (if patrol = true then
      l.setDrive d { l.drive d with service := none, failures := 0, lastUse := e.now }
    else { l.setDrive d { l.drive d with service := none, failures := 0, lastUse := e.now } with
      scheduler :=
        { (l.setDrive d { l.drive d with service := none, failures := 0, lastUse := e.now }).scheduler with quiet := e.now } }) = m
  have h1 : SameButCounts l m := by rw [← hm]; cases patrol <;> exact ⟨rfl, rfl, rfl, rfl, rfl, rfl, rfl, rfl⟩
  have h2 : m.drives = put l.drives d { l.drive d with service := none, failures := 0, lastUse := e.now } := by
    rw [← hm]; cases patrol <;> rfl
  have h3 : m.care = l.care ∧ m.log = l.log ∧ m.out = l.out := by rw [← hm]; cases patrol <;> exact ⟨rfl, rfl, rfl⟩
  have h4 : m.scheduler = { l.scheduler with quiet := if patrol then l.scheduler.quiet else e.now } := by
    rw [← hm]; cases patrol <;> rfl
  have hd : m.drive d = { l.drive d with service := none, failures := 0, lastUse := e.now } := by
    unfold Library.drive; rw [h2, look_put_same]; rfl
  have ho : ∀ d', d' ≠ d → m.drive d' = l.drive d' := fun d' hd' => by
    unfold Library.drive; rw [h2, look_put_ne _ _ (Ne.symm hd')]
  obtain ⟨k1, k2, k3, k4, k5, k6, k7⟩ := toReady_goes e m d
  refine ⟨h1.trans k1, ?_, ?_, k4.trans h3.1, k5.trans h3.2.1, k6.trans h4, ?_⟩
  · rw [k2, hd]; rfl
  · intro d' hd'; rw [k3 d' hd', ho d' hd']
  · rw [k7, h3.2.2, hd]

end Sys2Proof.Machine
end

