-- ==== Sys2Proof/Laws/Pages.lean ====
section
/-! SUPPORT. What the pages of the service book read as (R185): a field whose bytes no other field of its page shares reads as its value, and bytes that no field names
read as zero. -/

namespace Sys2Proof.Machine

set_option Elab.async false

/-- A bit of a field at its place in a page. -/
def Field.bit (x : Field) (j : Nat) : Bool := decide (8 * x.offset ≤ j) && (x.value % 256 ^ x.width).testBit (j - 8 * x.offset)

theorem Field.place_getLsbD (x : Field) (s : Sector) (j : Nat) :
    (x.place s).getLsbD j = (s.getLsbD j || (decide (j < 8192) && x.bit j)) := by
  rw [Field.place, BitVec.getLsbD_or, BitVec.getLsbD_shiftLeft, BitVec.getLsbD_ofNat, Field.bit]
  by_cases hj : j < 8192
  · have h : j - 8 * x.offset < 8192 := by omega
    by_cases ho : j < 8 * x.offset
    · simp [hj, ho, show ¬ 8 * x.offset ≤ j by omega]
    · simp [hj, ho, h, show 8 * x.offset ≤ j by omega]
  · simp [hj]

theorem page_getLsbD_from (fs : List Field) (s : Sector) (j : Nat) :
    (fs.foldl (fun s x => x.place s) s).getLsbD j = (s.getLsbD j || (decide (j < 8192) && fs.any fun x => x.bit j)) := by
  induction fs generalizing s with
  | nil => simp
  | cons x fs ih =>
    simp only [List.foldl_cons, ih, Field.place_getLsbD, List.any_cons]
    cases s.getLsbD j <;> cases decide (j < 8192) <;> cases x.bit j <;> simp

/-- R185: a bit of a page is that of one of its fields. -/
theorem page_getLsbD (fs : List Field) (j : Nat) : (page fs).getLsbD j = (decide (j < 8192) && fs.any fun x => x.bit j) := by
  rw [page, page_getLsbD_from]; simp [Sector.zeros]

theorem bytesAt_testBit (s : Sector) (o n i : Nat) : (bytesAt s o n).testBit i = (decide (i < 8 * n) && s.getLsbD (8 * o + i)) := by
  have h : (256 : Nat) ^ n = 2 ^ (8 * n) := by rw [Nat.pow_mul]
  rw [bytesAt, h, Nat.testBit_mod_two_pow, ← BitVec.getLsbD, BitVec.getLsbD_ushiftRight]

/-- A field has no bit outside its bytes. -/
theorem Field.bit_outside (x : Field) (j : Nat) (h : j < 8 * x.offset ∨ 8 * (x.offset + x.width) ≤ j) : x.bit j = false := by
  have e : (256 : Nat) ^ x.width = 2 ^ (8 * x.width) := by rw [Nat.pow_mul]
  rw [Field.bit, e, Nat.testBit_mod_two_pow]
  rcases h with h | h
  · simp; omega
  · have : ¬ j - 8 * x.offset < 8 * x.width := by omega
    simp [this]

/-- The bytes of two fields are apart. -/
def Field.apart (x y : Field) : Prop := x.offset + x.width ≤ y.offset ∨ y.offset + y.width ≤ x.offset

/-- R185: a field whose bytes no other field of the page shares reads as its value. -/
theorem bytesAt_page (fs : List Field) (x : Field) (hx : x ∈ fs) (hin : x.offset + x.width ≤ 1024)
    (h : ∀ y ∈ fs, y = x ∨ x.apart y) : bytesAt (page fs) x.offset x.width = x.value % 256 ^ x.width := by
  refine Nat.eq_of_testBit_eq fun i => ?_
  rw [bytesAt_testBit, page_getLsbD]
  have e : (256 : Nat) ^ x.width = 2 ^ (8 * x.width) := by rw [Nat.pow_mul]
  by_cases hi : i < 8 * x.width
  · have hj : 8 * x.offset + i < 8192 := by omega
    have hb : (fs.any fun y => y.bit (8 * x.offset + i)) = x.bit (8 * x.offset + i) := by
      rw [Bool.eq_iff_iff, List.any_eq_true]
      refine ⟨fun ⟨y, hy, hb⟩ => ?_, fun hb => ⟨x, hx, hb⟩⟩
      rcases h y hy with rfl | h
      · exact hb
      · rw [y.bit_outside _ (by unfold Field.apart at h; omega)] at hb; cases hb
    rw [hb]; simp [Field.bit, hi, hj]
  · rw [e, Nat.testBit_mod_two_pow]; simp [hi]

/-- R185: bytes that no field of the page names read as zero. -/
theorem bytesAt_page_unnamed (fs : List Field) (o n : Nat)
    (h : ∀ y ∈ fs, o + n ≤ y.offset ∨ y.offset + y.width ≤ o) : bytesAt (page fs) o n = 0 := by
  refine Nat.eq_of_testBit_eq fun i => ?_
  rw [bytesAt_testBit, page_getLsbD, Nat.zero_testBit]
  by_cases hi : i < 8 * n
  · have : (fs.any fun y => y.bit (8 * o + i)) = false := by
      rw [List.any_eq_false]
      intro y hy
      rw [y.bit_outside _ (by have := h y hy; omega)]; simp
    rw [this]; simp
  · simp [hi]

/-- R185: the fields of a page stand in rising order, each after the bytes of the one before it. -/
abbrev risingFields (fs : List Field) : Prop := fs.Pairwise fun x y => x.offset + x.width ≤ y.offset

/-- R185: in a page of rising fields every field reads as its value. -/
theorem bytesAt_page_rising (fs : List Field) (h : risingFields fs) (x : Field) (hx : x ∈ fs) (hin : x.offset + x.width ≤ 1024) :
    bytesAt (page fs) x.offset x.width = x.value % 256 ^ x.width := by
  refine bytesAt_page fs x hx hin ?_
  induction fs with
  | nil => cases hx
  | cons y fs ih =>
    obtain ⟨hy, h⟩ := List.pairwise_cons.1 h
    intro z hz
    rcases List.mem_cons.1 hx with rfl | hx'
    · rcases List.mem_cons.1 hz with rfl | hz
      · exact .inl rfl
      · exact .inr (.inl (hy z hz))
    · rcases List.mem_cons.1 hz with rfl | hz
      · exact .inr (.inr (hy x hx'))
      · exact ih h hx' z hz

end Sys2Proof.Machine
end

