-- ==== Sys2Proof/WellFormed.lean ====
section
/-! DEFINITION. Which commands the links can bring. Most operands carry their range in their type; the checks here are
those that a type does not carry. -/

namespace Sys2Proof

/-- R109: an outcome of a read or verify carries one result per sector of one frame. -/
def wellFormedResults (results : List ReadResult) : Bool :=
  decide (1 ≤ results.length ∧ results.length ≤ Config.sectorsPerFrame)

/-- R189: the count and the sides are bytes of the page, and the list is as long as the count says. -/
def wellFormedPool (count : Nat) (sides : List Nat) : Bool :=
  decide (count < 256) && decide (sides.length = count) && sides.all (fun n => decide (n < 256))

/-- Table 11-9: each value fits its bytes. -/
def ScheduleLine.wellFormed (l : ScheduleLine) : Bool :=
  decide (l.fee < 65536 ∧ l.threshold < 65536 ∧ l.rate < 256 ∧ l.cap < 4294967296)

/-- Table 11-9: each value fits its bytes. -/
def ScheduleData.wellFormed (d : ScheduleData) : Bool :=
  d.lines.toList.all ScheduleLine.wellFormed && decide (d.surcharge < 4294967296) && decide (d.timeout < 256)

/-- A command that an event of the specification can be. -/
def Instr.wellFormed : Instr → Bool
  | .fetchRequest _ => true
  | .fileRequest _ => true
  | .pull => true
  | .fileBurstArrival _ _ _ => true
  | .burstSent count => decide (1 ≤ count ∧ count ≤ Config.sectorsPerFrame)
  | .responseSent => true
  | .fetchReadOutcome _ rs => wellFormedResults rs
  | .primaryWriteOk _ => true
  | .primaryWriteFail _ => true
  | .twinWriteVerified _ => true
  | .twinWriteFail _ => true
  | .rereadOutcome _ rs => wellFormedResults rs
  | .rescueReadOutcome _ rs => wellFormedResults rs
  | .rescueWriteVerified _ => true
  | .rescueWriteFail _ => true
  | .patrolVerifyOutcome _ rs => wellFormedResults rs
  | .commandLimitExpiry _ => true
  | .hardwareFaultReport _ => true
  | .spinUpLimitExpiry _ => true
  | .spinDownLimitExpiry _ => true
  | .readyReport _ => true
  | .stoppedReport _ => true
  | .idleSpinDown _ => true
  | .caddyReport _ _ => true
  | .moveCompletion => true
  | .moveLimitExpiry _ _ => true
  | .pickerFaultReport _ _ => true
  | .presenceChange _ _ => true
  | .dwellExpiry _ => true
  | .demandAgeLimit _ _ => true
  | .patrolIdleTime => true
  | .orderTimerExpiry _ => true
  | .powerWarning inTransfer => inTransfer.all fun i => decide (i.sent < Config.sectorsPerFrame)
  | .holdEnd => true
  | .reset _ i => decide (1 ≤ i.straps ∧ i.straps ≤ 4)
  | .dayClose _ day => decide (day < 65536)
  | .clearFaults _ => true
  | .setMask _ _ => true
  | .clearCauses _ => true
  | .pickerClear _ => true
  | .orderClose _ => true
  | .scheduleWrite _ _ d => d.wellFormed
  | .poolAddition _ _ n sides => wellFormedPool n sides
  | .poolRemoval _ _ n sides => wellFormedPool n sides
  | .thresholdWrite _ _ v => decide (v < 65536)
  | .assignment _ _ p t => decide (p < 256) && decide (t < 256)
  | .twinAddition _ _ t => decide (t < 256)
  | .twinRemoval _ _ => true
  | .closeBook _ _ => true
  | .serviceWriteRefused _ _ _ => true

end Sys2Proof
end

