-- ==== Sys2Proof/Laws/PerInstr.lean ====
section
/-! SUPPORT. The bounds that well-formedness gives each command's operands: every number fits 16 bits, and a list of results has at most 64 members. -/

namespace Sys2Proof.Laws.Bounded

set_option Elab.async false

/-- The plain numbers among a command's operands; those whose type carries their range are not here. -/
def numbers : Instr → List Nat
  | .burstSent count => [count]
  | .powerWarning inTransfer => (inTransfer.map InTransfer.sent).toList
  | .reset _ inputs => [inputs.straps]
  | .dayClose _ day => [day]
  | .poolAddition _ _ count sides => count :: sides
  | .poolRemoval _ _ count sides => count :: sides
  | .thresholdWrite _ _ value => [value]
  | .assignment _ _ primary twin => [primary, twin]
  | .twinAddition _ _ twin => [twin]
  | _ => []

/-- The results among a command's operands. -/
def results : Instr → List ReadResult
  | .fetchReadOutcome _ rs => rs
  | .rereadOutcome _ rs => rs
  | .rescueReadOutcome _ rs => rs
  | .patrolVerifyOutcome _ rs => rs
  | _ => []

/-- A well-formed command's numbers fit 16 bits, and its results are those of at most one frame (R109; the widths of the service pages' fields). -/
def Statement (i : Instr) : Prop :=
  i.wellFormed = true → (∀ n ∈ numbers i, n < 65536) ∧ (results i).length ≤ Config.sectorsPerFrame

/-- A command without numbers and without results. -/
theorem of_none {i : Instr} (h : numbers i = []) (h' : results i = []) : Statement i := by
  intro _
  rw [h, h']
  exact ⟨by simp, by simp⟩

/-- A command with results alone. -/
theorem of_results {i : Instr} {rs : List ReadResult} (h : numbers i = []) (h' : results i = rs) (hw : i.wellFormed = wellFormedResults rs) :
    Statement i := by
  intro hi
  rw [hw, wellFormedResults, decide_eq_true_iff] at hi
  rw [h, h']
  exact ⟨by simp, hi.2⟩

/-- A pool write's numbers are bytes. -/
theorem of_pool {i : Instr} {count : Nat} {sides : List Nat} (h : numbers i = count :: sides) (h' : results i = [])
    (hw : i.wellFormed = wellFormedPool count sides) : Statement i := by
  intro hi
  rw [hw, wellFormedPool] at hi
  simp only [Bool.and_eq_true, decide_eq_true_iff, List.all_eq_true] at hi
  rw [h, h']
  refine ⟨fun n hn => ?_, by simp⟩
  rcases List.mem_cons.mp hn with rfl | hn
  · omega
  · have := hi.2 n hn; omega

theorem fetchRequest (r : RequestRecord) : Statement (.fetchRequest r) := of_none rfl rfl

theorem fileRequest (r : RequestRecord) : Statement (.fileRequest r) := of_none rfl rfl

theorem pull : Statement (.pull) := of_none rfl rfl

theorem fileBurstArrival (tag : Tag) (data : Sector) (key : KeyPosition) : Statement (.fileBurstArrival tag data key) := of_none rfl rfl

theorem burstSent (count : Nat) : Statement (.burstSent count) := by
  intro h
  have h := of_decide_eq_true h
  simp only [Config.sectorsPerFrame] at h
  simp [numbers, results]
  omega

theorem responseSent : Statement (.responseSent) := of_none rfl rfl

theorem fetchReadOutcome (drive : Drive) (results : List ReadResult) : Statement (.fetchReadOutcome drive results) := of_results rfl rfl rfl

theorem primaryWriteOk (drive : Drive) : Statement (.primaryWriteOk drive) := of_none rfl rfl

theorem primaryWriteFail (drive : Drive) : Statement (.primaryWriteFail drive) := of_none rfl rfl

theorem twinWriteVerified (drive : Drive) : Statement (.twinWriteVerified drive) := of_none rfl rfl

theorem twinWriteFail (drive : Drive) : Statement (.twinWriteFail drive) := of_none rfl rfl

theorem rereadOutcome (drive : Drive) (results : List ReadResult) : Statement (.rereadOutcome drive results) := of_results rfl rfl rfl

theorem rescueReadOutcome (drive : Drive) (results : List ReadResult) : Statement (.rescueReadOutcome drive results) := of_results rfl rfl rfl

theorem rescueWriteVerified (drive : Drive) : Statement (.rescueWriteVerified drive) := of_none rfl rfl

theorem rescueWriteFail (drive : Drive) : Statement (.rescueWriteFail drive) := of_none rfl rfl

theorem patrolVerifyOutcome (drive : Drive) (results : List ReadResult) : Statement (.patrolVerifyOutcome drive results) := of_results rfl rfl rfl

theorem commandLimitExpiry (drive : Drive) : Statement (.commandLimitExpiry drive) := of_none rfl rfl

theorem hardwareFaultReport (drive : Drive) : Statement (.hardwareFaultReport drive) := of_none rfl rfl

theorem spinUpLimitExpiry (drive : Drive) : Statement (.spinUpLimitExpiry drive) := of_none rfl rfl

theorem spinDownLimitExpiry (drive : Drive) : Statement (.spinDownLimitExpiry drive) := of_none rfl rfl

theorem readyReport (drive : Drive) : Statement (.readyReport drive) := of_none rfl rfl

theorem stoppedReport (drive : Drive) : Statement (.stoppedReport drive) := of_none rfl rfl

theorem idleSpinDown (drive : Drive) : Statement (.idleSpinDown drive) := of_none rfl rfl

theorem caddyReport (drive : Drive) (seated : Bool) : Statement (.caddyReport drive seated) := of_none rfl rfl

theorem moveCompletion : Statement (.moveCompletion) := of_none rfl rfl

theorem moveLimitExpiry (grip : Bool) (caddy : Bool) : Statement (.moveLimitExpiry grip caddy) := of_none rfl rfl

theorem pickerFaultReport (grip : Bool) (caddy : Bool) : Statement (.pickerFaultReport grip caddy) := of_none rfl rfl

theorem presenceChange (slot : Slot) (seated : Bool) : Statement (.presenceChange slot seated) := of_none rfl rfl

theorem dwellExpiry (drive : Drive) : Statement (.dwellExpiry drive) := of_none rfl rfl

theorem demandAgeLimit (side : Side) (placed : Nat) : Statement (.demandAgeLimit side placed) := of_none rfl rfl

theorem patrolIdleTime : Statement (.patrolIdleTime) := of_none rfl rfl

theorem orderTimerExpiry (station : Station) : Statement (.orderTimerExpiry station) := of_none rfl rfl

theorem powerWarning (inTransfer : Option InTransfer) : Statement (.powerWarning inTransfer) := by
  cases inTransfer with
  | none => exact of_none rfl rfl
  | some i =>
    intro h
    have h := of_decide_eq_true h
    simp only [Config.sectorsPerFrame] at h
    simp [numbers, results]
    omega

theorem holdEnd : Statement (.holdEnd) := of_none rfl rfl

theorem reset (cause : ResetCause) (inputs : ResetInputs) : Statement (.reset cause inputs) := by
  intro h
  simp [Instr.wellFormed] at h
  simp [numbers, results]
  omega

theorem dayClose (tag : Tag) (day : Nat) : Statement (.dayClose tag day) := by
  intro h
  simp [Instr.wellFormed] at h
  simp [numbers, results]
  omega

theorem clearFaults (tag : Tag) : Statement (.clearFaults tag) := of_none rfl rfl

theorem setMask (tag : Tag) (mask : BitVec 16) : Statement (.setMask tag mask) := of_none rfl rfl

theorem clearCauses (tag : Tag) : Statement (.clearCauses tag) := of_none rfl rfl

theorem pickerClear (tag : Tag) : Statement (.pickerClear tag) := of_none rfl rfl

theorem orderClose (tag : Tag) : Statement (.orderClose tag) := of_none rfl rfl

theorem scheduleWrite (tag : Tag) (key : KeyPosition) (data : ScheduleData) : Statement (.scheduleWrite tag key data) := of_none rfl rfl

theorem poolAddition (tag : Tag) (key : KeyPosition) (count : Nat) (sides : List Nat) : Statement (.poolAddition tag key count sides) :=
  of_pool rfl rfl rfl

theorem poolRemoval (tag : Tag) (key : KeyPosition) (count : Nat) (sides : List Nat) : Statement (.poolRemoval tag key count sides) :=
  of_pool rfl rfl rfl

theorem thresholdWrite (tag : Tag) (key : KeyPosition) (value : Nat) : Statement (.thresholdWrite tag key value) := by
  intro h
  simp [Instr.wellFormed] at h
  simp [numbers, results]
  omega

theorem assignment (tag : Tag) (key : KeyPosition) (primary twin : Nat) : Statement (.assignment tag key primary twin) := by
  intro h
  simp [Instr.wellFormed] at h
  simp [numbers, results]
  omega

theorem twinAddition (tag : Tag) (key : KeyPosition) (twin : Nat) : Statement (.twinAddition tag key twin) := by
  intro h
  simp [Instr.wellFormed] at h
  simp [numbers, results]
  omega

theorem twinRemoval (tag : Tag) (key : KeyPosition) : Statement (.twinRemoval tag key) := of_none rfl rfl

theorem closeBook (tag : Tag) (key : KeyPosition) : Statement (.closeBook tag key) := of_none rfl rfl

theorem serviceWriteRefused (tag : Tag) (key : KeyPosition) (data : Sector) : Statement (.serviceWriteRefused tag key data) := of_none rfl rfl

end Sys2Proof.Laws.Bounded
end

