-- ==== Sys2Proof/Tests/Slice0.lean ====
section
/-! SUPPORT. The model's own tests: an ill-formed term for each check of WellFormed, the worked examples and tables of the specification on small states, and
for each statement a state and operands that meet its hypotheses, at the edges of its clauses. -/

namespace Sys2Proof.Tests

set_option Elab.async false

open Sys2Proof.Machine

/-! ## Terms that the checks refuse -/

theorem test_burst_of_none_is_ill_formed : (Instr.burstSent 0).wellFormed = false := by decide
theorem test_burst_of_65_is_ill_formed : (Instr.burstSent 65).wellFormed = false := by decide
theorem test_warning_in_sector_65_is_ill_formed : (Instr.powerWarning (some ⟨64, false⟩)).wellFormed = false := by decide
theorem test_read_outcome_without_results_is_ill_formed : (Instr.fetchReadOutcome 0 []).wellFormed = false := by decide
theorem test_reread_outcome_of_65_is_ill_formed : (Instr.rereadOutcome 0 (List.replicate 65 .blank)).wellFormed = false := by decide
theorem test_rescue_outcome_without_results_is_ill_formed : (Instr.rescueReadOutcome 0 []).wellFormed = false := by decide
theorem test_verify_outcome_of_65_is_ill_formed : (Instr.patrolVerifyOutcome 0 (List.replicate 65 .blank)).wellFormed = false := by decide
theorem test_no_drive_configured_is_ill_formed :
    (Instr.reset .powerOn ⟨0, Vector.replicate 64 false, false, true, false, none⟩).wellFormed = false := by decide
theorem test_five_drives_configured_is_ill_formed :
    (Instr.reset .powerOn ⟨5, Vector.replicate 64 false, false, true, false, none⟩).wellFormed = false := by decide
theorem test_day_of_17_bits_is_ill_formed : (Instr.dayClose 0 65536).wellFormed = false := by decide
theorem test_rate_of_9_bits_is_ill_formed :
    (Instr.scheduleWrite 0 .opened ⟨Vector.replicate 8 ⟨0, 0, 256, 0⟩, 0, 10⟩).wellFormed = false := by decide
theorem test_surcharge_of_33_bits_is_ill_formed :
    (Instr.scheduleWrite 0 .opened ⟨Vector.replicate 8 ⟨0, 0, 0, 0⟩, 4294967296, 10⟩).wellFormed = false := by decide
theorem test_pool_count_of_9_bits_is_ill_formed : (Instr.poolAddition 0 .opened 256 []).wellFormed = false := by decide
theorem test_pool_list_shorter_than_its_count_is_ill_formed : (Instr.poolAddition 0 .opened 2 [4]).wellFormed = false := by decide
theorem test_pool_side_of_9_bits_is_ill_formed : (Instr.poolRemoval 0 .opened 1 [256]).wellFormed = false := by decide
theorem test_threshold_of_17_bits_is_ill_formed : (Instr.thresholdWrite 0 .opened 65536).wellFormed = false := by decide
theorem test_assigned_side_of_9_bits_is_ill_formed : (Instr.assignment 0 .opened 0 256).wellFormed = false := by decide
theorem test_twin_side_of_9_bits_is_ill_formed : (Instr.twinAddition 0 .opened 256).wellFormed = false := by decide

/-! ## Small states -/

/-- A request record. -/
def ask (tag : Tag) (addr : BlockAddress) (count : Fin 1024) (mode : ChargeMode := .none) (flag : InstrumentFlag := .head) : RequestRecord :=
  ⟨tag, addr, count, 3, mode, flag, 1⟩

/-- A block address of the service book. -/
def serviceAt (block : Nat) : BlockAddress := Fin.ofNat _ (33292288 + block)

/-- The entry of a request with its work. -/
def entryOf (r : RequestRecord) (j : Job) : Entry := ⟨r, j, 0, r.addr.val, .empty, 0, none, 0⟩

/-- Sides 0, 2 and 4 lie in slots 0, 1 and 2: side 0 is the primary of book 0 and stands in drive 0, which is READY; side 2 is its twin; side 4 is BLANK. One page of two
sectors is filed and not yet on the twin. -/
def shelf : Library :=
  { State.reset.lib with
    books := put State.reset.lib.books 0 ⟨.opened, some 0, some 2, 1, 1, 0⟩
    roles := put (put (put State.reset.lib.roles 0 (.primary 0)) 2 (.twin 0)) 4 .blank
    buffer := { Buffer.reset with hold := [⟨0, 0, [1, 2]⟩] }
    twins := put State.reset.lib.twins 0 ⟨.working, none, [], none⟩
    drives := put State.reset.lib.drives 0 { DriveRecord.empty 0 with state := .ready }
    picker :=
      { State.reset.lib.picker with
        locations := put (put (put State.reset.lib.picker.locations 0 (.inDrive 0 .a)) 1 .inSlot) 2 .inSlot
        presence := put (put State.reset.lib.picker.presence 1 true) 2 true }
    log := FaultLog.blank }

/-- The machine with that shelf, on day 7. -/
def library : State := { State.reset with env := { State.reset.env with day := 7, directory := [(0, .head 1 2)] }, lib := shelf }

/-- A library with an entry in its Request Table. -/
def withEntry (s : State) (t : Tag) (x : Entry) : State := { s with lib := s.lib.setEntry t (some x) }

/-- A library with drive 0 in a state. -/
def withDrive (s : State) (x : DriveState) : State :=
  { s with lib := s.lib.setDrive 0 { s.lib.drive 0 with state := x } }

/-- A library whose drive 0 runs a command on a side. -/
def inService (c : Command) (side : Side) : InService := ⟨⟨.patrol, 0⟩, side, c, 0⟩

/-- A library whose drive 0 runs a command. -/
def running (v : InService) : State :=
  { library with lib := shelf.setDrive 0 { shelf.drive 0 with state := .active, service := some v } }

theorem running_running (v : InService) : Running (running v) 0 v := ⟨rfl, rfl, rfl⟩

theorem running_answered (v : InService) : Answered (running v) 0 v := ⟨running_running v, (by decide : (none : Option Nat) ≠ some 0)⟩

/-- A library whose service write of tag 9 awaits its sector. -/
def writing (block : Nat) : State := withEntry library 9 (entryOf (ask 9 (serviceAt block) 1) (.serviceWrite true))

/-- The entry of that service write. -/
def writeEntry (block : Nat) : Entry := entryOf (ask 9 (serviceAt block) 1) (.serviceWrite true)

/-- A library with a move under way. -/
def moving (m : Move) (p : PickerState) (await : Bool) : State :=
  { library with lib := { shelf with picker := { shelf.picker with state := p, record := some m, awaitCaddy := await } } }

/-- An order of station 3 for book 0, head 0, class 1. -/
def order (pages amount : Nat) : Order := ⟨0, 0, 1, false, pages, amount, false, 0⟩

/-- Accounts with that order open and frame 0 among its recent pages. -/
def accounts (pages amount : Nat) : Fee :=
  { Fee.blank with
    schedule := ⟨Vector.replicate 8 ⟨150, 10, 60, 0⟩, 500, 10⟩
    orders := put Fee.blank.orders 3 (some (order pages amount))
    recent := put Fee.blank.recent 3 [0] }

/-- A FETCH window with a run of sectors. -/
def window (xs : List SectorState) : Window := ⟨0, 0, 0, 1, .head 1 2, .staged, xs, none, false, false, none, 0⟩

/-- A sector from the primary. -/
def fromPrimary (x : Sector) : SectorState := ⟨.primary, false, false, x⟩

/-- The FETCH of tag 5 with its first window staged. -/
def fetchEntry (mode : ChargeMode) : Entry :=
  entryOf (ask 5 0 2 mode) (.fetch ⟨[⟨0, 0, 2, true⟩], [window [fromPrimary 1, fromPrimary 2]], .done⟩)

/-- The library with that FETCH ready to send. -/
def sending (mode : ChargeMode) : State :=
  let s := withEntry library 5 (fetchEntry mode)
  { s with lib := { s.lib with front := { s.lib.front with ready := [.burst 5] } } }

/-- A FILE of a page of `len` sectors at frame 1 of book 0. -/
def filing (len : Nat) (phase : FilePhase) (received : List Sector) : Filing := ⟨0, 1, true, 1, len, phase, true, received⟩

/-- The entry of that FILE. -/
def fileEntry (g : Filing) : Entry := entryOf (ask 5 64 2 .none) (.file g)

/-! ## The worked examples of the specification -/

/-- Table 1-1. -/
theorem test_sample_addresses :
    (bookOf 5000000, frameOf 5000000, sectorOf 5000000) = (some 19, 301, 0)
      ∧ (bookOf 7777777, frameOf 7777777, sectorOf 7777777) = (some 29, 2743, 49)
      ∧ (bookOf 33292287, frameOf 33292287, sectorOf 33292287) = (some 126, 4095, 63)
      ∧ bookOf 33292288 = none ∧ serviceBlock 33292371 = 83 ∧ blockOf 83 = .book 19 := by
  decide

/-- Table 1-5. -/
def directory19 : List (Nat × Frame) :=
  [(77824, .head 2 40), (77825, .cont 2 64), (77826, .void), (77827, .cont 2 12), (77828, .head 5 64), (77829, .lost false 5),
   (77830, .cont 5 30), (77831, .lost true 1), (77832, .cont 1 64)]

theorem test_heads_of_book_19 :
    [0, 1, 3, 4, 5, 6, 7, 8].map (fun f => ({ State.reset.env with directory := directory19 }.headOf 19 f).map Prod.fst)
      = [some 0, some 0, some 0, some 4, some 4, some 4, some 7, some 7] := by
  decide +kernel

/-- Table 8-2. -/
theorem test_reduced_fees :
    [(150, 60), (133, 60), (125, 50), (125, 49), (99, 100), (9999, 0)].map (fun (p, r) => (FeeLine.mk p 1 r 0).base 1)
      = [90, 80, 63, 61, 99, 0] := by
  decide

/-- The offer of a page of Table 8-3: frame `40 + i` of an instrument of class 2 at station 3. -/
def pageOffer (i : Nat) (m : Bool) : Offer := ⟨6, 3, m, 9, 40 + i, 2, 40, i == 0⟩

/-- Table 8-3: the offers in their order. -/
def station3 : Fee × List Nat :=
  [pageOffer 0 true, pageOffer 1 true, pageOffer 2 true, pageOffer 3 true, pageOffer 4 true, pageOffer 5 true, pageOffer 6 true,
    pageOffer 7 true, pageOffer 8 false, pageOffer 5 true].foldl
    (fun (f, xs) x => let (g, c) := f.take 0 false x; (g, xs ++ [c.total]))
    ({ Fee.blank with schedule := ⟨Vector.replicate 8 ⟨150, 6, 60, 1000⟩, 500, 10⟩ }, [])

theorem test_station_3_page_totals : station3.2 = [650, 150, 150, 150, 150, 90, 90, 70, 0, 0] := by decide +kernel

theorem test_station_3_order :
    look station3.1.orders 3 = some ⟨9, 40, 2, true, 9, 1000, true, 0⟩ ∧ look station3.1.tallies.stations 3 = ⟨1500, 9, 1⟩
      ∧ look station3.1.tallies.classes 2 = ⟨1500, 9⟩ ∧ station3.1.tallies.certified = 1 := by
  decide +kernel

/-- Table 3-3: frame 42 of book 19 is being written; an entry of 64 sectors is to join with 20 slots free. -/
theorem test_demotion :
    let h (b : Book) (f n : Nat) : HoldEntry := ⟨b, f, List.replicate n 0⟩
    (demote (fun x => x.frame == 42) 64 20 [h 19 41 30, h 19 42 64, h 7 100 48, h 19 43 64]).map
      (fun xs => xs.map HoldEntry.frame) (fun xs => xs.map HoldEntry.frame) = ([42, 43], [41, 100]) := by
  decide +kernel

/-- Table 3-4. -/
theorem test_escalation :
    [4114, 4050, 3650, 3610, 3580, 3644].foldl (fun (xs : List Bool) n => xs ++ [escalationAfter (xs.getLast?.getD false) n]) []
      = [true, true, true, true, false, false] := by
  decide

/-! ## Commands on the small states -/

/-- The state that a command leaves. -/
def after (c : Instr) (s : State) : State :=
  match exec c s with
  | .next t => t
  | .fault _ => s
  | .refused _ => s

/-- R22, R157, R180, R183: a power-on reset that finds no marker begins on day 1 with POWER_ON alone in the reset-cause set. -/
theorem test_power_on_reset :
    let t := after (.reset .powerOn ⟨4, Vector.replicate 64 false, false, false, false, none⟩) library
    t.env.day = 1 ∧ t.env.causes = ⟨true, false, false⟩ ∧ t.env.threshold = 200 := by
  decide +kernel

/-- R33: a FETCH of no sectors ends BAD_REQUEST with nothing moved. -/
theorem test_fetch_of_no_sectors :
    (after (.fetchRequest (ask 5 77 0)) library).lib.front.responses = [⟨5, .badRequest, 0, 77, 0, .empty, 0⟩] := by decide +kernel

/-- R35: a FILE above the mark is answered NOT_AT_MARK. -/
theorem test_file_above_the_mark :
    (after (.fileRequest (ask 5 128 2)) library).lib.front.responses = [⟨5, .notAtMark, 0, 128, 2, .empty, 0⟩] := by decide +kernel

/-- R27, R36: an accepted FILE at the mark issues its pull with its count. -/
theorem test_file_at_the_mark_pulls :
    (after .pull (after (.fileRequest (ask 5 64 2)) library)).lib.out = [.pull 5 2] := by decide +kernel

/-- R36: the intake mark rises at the acceptance. -/
theorem test_intake_mark_rises : ((after (.fileRequest (ask 5 64 2)) library).lib.book 0).intake = 2 := by decide +kernel

/-- R31: a duplicate is answered at once. -/
theorem test_duplicate_is_answered :
    (after (.fetchRequest (ask 5 0 1)) (sending .none)).lib.out = [.accept 5, .response ⟨5, .inProgress, 0, 0, 2, .empty, 0⟩] := by
  decide +kernel

/-- Table 11-5: the day number page. -/
theorem test_day_number_page : bytesAt (servicePage library.env library.fee library.lib 3) 0 2 = 7 := by decide +kernel

/-- Table 11-3, Table 11-2: the status page: four drives, the picker IDLE, no HOLD, no request, two held sectors, no cursor, and drive 0 READY with side 0. -/
theorem test_status_page :
    [0, 1, 2, 3, 6, 7, 8, 9].map (fun i => bytesAt (servicePage library.env library.fee library.lib 0) i 1) = [4, 0, 0, 0, 0, 255, 3, 0]
      ∧ bytesAt (servicePage library.env library.fee library.lib 0) 4 2 = 2 := by
  decide +kernel

/-- R158: a day close with another day's number is refused. -/
theorem test_day_mismatch :
    (after (.dayClose 9 6) (writing 3)).lib.front.responses.map Response.outcome = [.dayMismatch] ∧ (after (.dayClose 9 6) (writing 3)).env.day = 7 := by
  decide +kernel

/-- R187: a keyed write with the key locked. -/
theorem test_locked_key :
    (after (.closeBook 9 .locked) (writing 64)).lib.front.responses.map Response.outcome = [.protected_]
      ∧ ((after (.closeBook 9 .locked) (writing 64)).lib.book 0).state = .opened := by
  decide +kernel

/-- R166: a threshold of 0 is taken as 1. -/
theorem test_threshold_of_0 : (after (.thresholdWrite 9 .opened 0) (writing 34)).env.threshold = 1 := by decide +kernel

/-- R119, R108: a LOAD that completes leaves the cartridge in the drive and the drive in SPINUP. -/
theorem test_load_completes :
    let t := after .moveCompletion (moving (.load 1 .a 1) .moving false)
    t.lib.location 1 = .inDrive 1 .a ∧ (t.lib.drive 1).state = .spinUp := by
  decide +kernel

/-! ## States that meet the hypotheses of the statements -/

/-- A service write awaits its sector. -/
theorem writing_awaits (n : Nat) (h : n < 262144) : AwaitsWrite (writing n) 9 (writeEntry n) (blockOf n) where
  started := rfl
  link := .inl rfl
  entry := rfl
  live := rfl
  job := rfl
  block := by
    have : (serviceAt n).val = 33292288 + n := by simp only [serviceAt, Fin.ofNat]; omega
    simp only [writeEntry, entryOf, ask, serviceBlock, this, Config.serviceBase]
    rw [Nat.add_sub_cancel_left]

theorem witness_duplicate_tag :
    let s := sending .none
    s.env.startUp = none ∧ s.lib.entry (ask 5 64 3).tag = some (fetchEntry .none) := by decide +kernel

theorem witness_fetch_refused :
    library.env.startUp = none ∧ library.lib.entry 5 = none ∧ library.lib.front.ending = [] ∧ library.env.hold = false
      ∧ { library with env := { library.env with hold := true } }.env.hold = true
      ∧ (ask 5 0 0).count.val < 1 ∧ 512 < (ask 5 0 513).count.val
      ∧ bookOf (ask 5 262144 512).addr.val = some 1 ∧ (library.lib.book 1).state = .unassigned
      ∧ 33292288 ≤ (ask 5 33554431 2).addr.val ∧ 33554431 < (ask 5 33554431 2).addr.val + (ask 5 33554431 2).count.val - 1 := by
  decide +kernel

theorem witness_fetch_accepted :
    library.env.startUp = none ∧ library.lib.entry 5 = none ∧ library.env.hold = false
      ∧ bookOf (ask 5 262143 512).addr.val = some 0 ∧ (library.lib.book 0).state ≠ .unassigned
      ∧ 33292288 ≤ (ask 5 (serviceAt 0) 1).addr.val ∧ (ask 5 33554431 1).addr.val + (ask 5 33554431 1).count.val - 1 ≤ 33554431 := by
  decide +kernel

theorem witness_windows :
    (ask 5 33292287 512).addr.val < 33292288 ∧ 1 ≤ (ask 5 33292287 512).count.val ∧ (ask 5 33292287 512).count.val ≤ 512 := by decide

theorem witness_file_refused :
    library.env.startUp = none ∧ library.lib.entry 5 = none ∧ library.lib.front.ending = [] ∧ library.env.hold = false
      ∧ 33292288 ≤ (ask 5 (serviceAt 0) 2).addr.val ∧ bookOf 64 = some 0 ∧ 64 < (ask 5 64 65).count.val
      ∧ (ask 5 65 64).addr.val % 64 ≠ 0 ∧ (library.lib.book 1).state = .unassigned
      ∧ ({ shelf with books := put shelf.books 0 { shelf.book 0 with state := .closed } }.book 0).state = .closed
      ∧ (library.lib.book 0).state = .opened ∧ (library.lib.book 0).primary = some 0
      ∧ (withDrive library .failed).lib.available library.env 0 = false ∧ library.lib.available library.env 0 = true
      ∧ frameOf 128 ≠ (library.lib.book 0).intake
      ∧ frameOf 0 = ({ shelf with books := put shelf.books 0 ⟨.opened, some 0, none, 0, 0, 0⟩ }.book 0).intake := by
  decide +kernel

/-- R35, check 7: below frame 0 there is nothing to continue. -/
theorem witness_nothing_to_continue (mark : Nat → HeadMark) : ¬ ContinuesBelow mark (frameOf 0)
  | ⟨_, below, _⟩ => absurd below (Nat.not_lt_zero _)

theorem witness_file_accepted :
    library.env.startUp = none ∧ library.lib.entry 5 = none ∧ library.env.hold = false ∧ (ask 5 (serviceAt 3) 1).count.val = 1
      ∧ bookOf 64 = some 0 ∧ (ask 5 64 64).addr.val % 64 = 0 ∧ (library.lib.book 0).state = .opened
      ∧ (library.lib.book 0).primary = some 0 ∧ library.lib.available library.env 0 = true ∧ frameOf 64 = (library.lib.book 0).intake := by
  decide +kernel

/-- R12: the page filed at frame 0 is the head of what continues it at frame 1. -/
theorem witness_head_to_continue :
    HeadBelow (library.lib.acceptMark library.env 0) (frameOf 64) 0 1 ∧ ContinuesBelow (library.lib.acceptMark library.env 0) (frameOf 64) := by
  have head : library.lib.acceptMark library.env 0 0 = .head 1 := by decide +kernel
  have none_between {k : Nat} {P : Prop} (above : 0 < k) (below : k < frameOf 64) : P := absurd below (Nat.not_lt.mpr above)
  exact ⟨⟨Nat.one_pos, head, fun _ => none_between⟩, ⟨0, Nat.one_pos, .inl ⟨1, head⟩, fun _ => none_between⟩⟩

/-- R12, R35: how a frame counts: at the filing mark by its live FILE, below it by its entry. -/
theorem witness_accept_mark :
    let s := withEntry library 5 (fileEntry (filing 2 .queued [1, 2]))
    s.lib.fileOf 5 = some (fileEntry (filing 2 .queued [1, 2]), filing 2 .queued [1, 2]) ∧ (s.lib.book 0).filing = 1
      ∧ s.lib.acceptMark s.env 0 1 = .head 1 ∧ s.lib.acceptMark s.env 0 0 = .head 1 ∧ library.lib.acceptMark library.env 0 1 = .none := by
  decide +kernel

/-- The library with the pull of tag 9 next on the link. -/
def pulling (j : Job) : State :=
  let s := withEntry library 9 (entryOf (ask 9 64 2) j)
  { s with lib := { s.lib with front := { s.lib.front with ready := [.pull 9] } } }

theorem witness_pull (j : Job) :
    (pulling j).env.startUp = none ∧ (pulling j).lib.front.linkBurst = none ∧ (pulling j).lib.front.ready = .pull 9 :: []
      ∧ (pulling j).lib.entry 9 = some (entryOf (ask 9 64 2) j) ∧ (entryOf (ask 9 64 2) j).ended = none :=
  ⟨rfl, rfl, rfl, rfl, rfl⟩

theorem witness_file_sector (xs : List Sector) :
    let g := filing 2 .intake xs
    let s := withEntry library 5 (fileEntry g)
    s.env.startUp = none ∧ s.lib.front.linkBurst = none ∧ s.lib.entry 5 = some (fileEntry g) ∧ (fileEntry g).ended = none
      ∧ (fileEntry g).job = .file g ∧ g.phase = .intake ∧ g.pulled = true :=
  ⟨rfl, rfl, rfl, rfl, rfl, rfl, rfl⟩

theorem witness_fetch_burst (mode : ChargeMode) :
    (sending mode).env.startUp = none ∧ (sending mode).lib.front.linkBurst = none ∧ (sending mode).lib.front.ready = .burst 5 :: []
      ∧ (sending mode).lib.entry 5 = some (fetchEntry mode) ∧ (fetchEntry mode).ended = none :=
  ⟨rfl, rfl, rfl, rfl, rfl⟩

theorem witness_window_run :
    (window [fromPrimary 1, fromPrimary 2]).run (sectorOf ((fetchEntry .none).record.addr.val + (fetchEntry .none).moved)) ≠ [] := by
  decide +kernel

theorem witness_charged_page :
    (fetchEntry .copy).record.tag = 5 ∧ ((fetchEntry .copy).record.addr.val + (fetchEntry .copy).moved) % 64 = 0
      ∧ (fetchEntry .certified).record.mode = .certified ∧ (window [fromPrimary 1, fromPrimary 2]).resolved = .head 1 2
      ∧ HeadBelow (fun n => (library.env.frame 0 n).mark) (0 + 1) 0 1 := by
  refine ⟨by decide +kernel, by decide +kernel, by decide +kernel, by decide +kernel, by decide, by decide +kernel, fun k _ _ => by omega⟩

/-- R77, R78: under a charge mode, a burst that does not begin at sector 0 and one of a VOID frame. -/
theorem witness_burst_without_offer :
    let x := { fetchEntry .copy with moved := 1 }
    let blank : Window := { window [.zero, .zero] with resolved := .void }
    (x.record.addr.val + x.moved) % 64 ≠ 0 ∧ (window [fromPrimary 1, fromPrimary 2]).run (sectorOf (x.record.addr.val + x.moved)) ≠ []
      ∧ blank.run 0 ≠ [] ∧ x.record.mode = .copy ∧ ∀ c n, blank.resolved ≠ .head c n ∧ blank.resolved ≠ .cont c n := by
  refine ⟨by decide +kernel, by decide +kernel, by decide +kernel, rfl, fun c n => ⟨?_, ?_⟩⟩ <;> exact fun h => by cases h

/-- R42 to R44: a last window that is delivered whole, and one with a recorded stop at its second sector. -/
theorem witness_fetch_ends :
    let w := window [fromPrimary 1, fromPrimary 2]
    let cut : Window := { window [fromPrimary 1, SectorState.empty] with stop := some ⟨1, .unreadable⟩, state := .stopped }
    let held (v : Window) : Library := ((withEntry library 5 (entryOf (ask 5 0 2) (.fetch ⟨[⟨0, 0, 2, true⟩], [v], .done⟩))).begin.deliver 5
      (entryOf (ask 5 0 2) (.fetch ⟨[⟨0, 0, 2, true⟩], [v], .done⟩)) v (v.run 0)).lib
    w.stop = none ∧ w.item = none ∧ w.state ≠ .pending ∧ w.address w.last < (ask 5 0 2).addr.val + 0 + 2
      ∧ cut.item = none ∧ cut.state ≠ .pending ∧ 1 ≤ cut.last ∧ cut.address 1 = 0 + 0 + 1 ∧ cut.run 0 = [fromPrimary 1]
      ∧ (Library.progress library.env 5 3 (held w)).front.ending = [⟨5, .done, 2, 1, 0, .empty, 0⟩]
      ∧ (Library.progress library.env 5 3 (held cut)).front.ending = [⟨5, .unreadable, 1, 1, 1, .empty, 0⟩] := by
  decide +kernel

/-- R40: a FETCH whose second segment lies in a book that is not checked: one UNASSIGNED and one OPEN. -/
theorem witness_second_segment :
    let v : Window := { window [SectorState.empty, SectorState.empty] with book := 1, state := .unopened, resolved := .blank }
    let g : Fetching := ⟨[⟨0, 0, 2, true⟩, ⟨1, 262144, 2, false⟩], [window [fromPrimary 1, fromPrimary 2], v], .done⟩
    let s := withEntry library 5 (entryOf (ask 5 0 4) (.fetch g))
    let l := { s.lib with books := put s.lib.books 1 ⟨.opened, some 9, none, 0, 0, 0⟩ }
    s.lib.buffer.lookWait = [] ∧ s.lib.buffer.deliveryWait = [] ∧ (∀ k ∈ g.segments, k.book = v.book → k.checked = false)
      ∧ (s.lib.book 1).state = .unassigned ∧ (l.book 1).state ≠ .unassigned
      ∧ (Library.progress s.env 5 3 l).buffer.lookWait = [5] ∧ ((Library.progress s.env 5 3 s.lib).windows 5).length = 1 := by
  decide +kernel

/-- The library with a FETCH of two service pages ready to send. -/
def pages : State :=
  let s := withEntry library 5 (entryOf (ask 5 (serviceAt 0) 2) .servicePages)
  { s with lib := { s.lib with front := { s.lib.front with ready := [.burst 5] } } }

theorem witness_service_pages :
    pages.env.startUp = none ∧ pages.lib.front.linkBurst = none ∧ pages.lib.front.ready = .burst 5 :: []
      ∧ pages.lib.entry 5 = some (entryOf (ask 5 (serviceAt 0) 2) .servicePages)
      ∧ (entryOf (ask 5 (serviceAt 0) 2) .servicePages).moved < (entryOf (ask 5 (serviceAt 0) 2) .servicePages).record.count.val :=
  ⟨rfl, rfl, rfl, rfl, by decide⟩

/-- A response that waits. -/
def waiting : State :=
  let s := withEntry library 5 { entryOf (ask 5 0 2) .refused with ended := some .notAtMark }
  { s with lib := { s.lib with front := { s.lib.front with responses := [⟨5, .notAtMark, 0, 0, 2, .empty, 0⟩] } } }

theorem witness_response :
    waiting.env.startUp = none ∧ waiting.lib.front.responses = ⟨5, .notAtMark, 0, 0, 2, .empty, 0⟩ :: []
      ∧ waiting.lib.entry 5 = some { entryOf (ask 5 0 2) .refused with ended := some .notAtMark } ∧ waiting.lib.front.ending = [] :=
  ⟨rfl, rfl, rfl, rfl⟩

/-! Outcomes of sector commands: `running_answered` meets `Answered`; the command is the one the state was given. -/

theorem witness_fetch_read :
    let v := inService (.fetchRead 5 0 0 [0, 1] true 2) 0
    Answered (running v) 0 v ∧ v.command = .fetchRead 5 0 0 [0, 1] true 2 ∧ ([.ok 1, .blank] : List ReadResult).length = [0, 1].length :=
  ⟨running_answered _, rfl, rfl⟩

theorem witness_read_results :
    ([.corrected 1, .uncorrectable] : List ReadResult).length = [0, 1].length ∧ [0, 1].Nodup
      ∧ (window [SectorState.empty, SectorState.empty]).sectors[1]? = some SectorState.empty := by
  decide +kernel

/-- A FILE that writes its page at drive 0. -/
def primaryWriting : State :=
  withEntry (running (inService (.primaryWrite 5 0 1) 0)) 5 (fileEntry (filing 2 .writing [1, 2]))

theorem witness_primary_write :
    let g := filing 2 .writing [1, 2]
    Answered primaryWriting 0 (inService (.primaryWrite 5 0 1) 0)
      ∧ (inService (.primaryWrite 5 0 1) 0).command = .primaryWrite 5 g.book g.frame
      ∧ primaryWriting.lib.fileOf 5 = some (fileEntry g, g)
      ∧ primaryWriting.lib.log.first = none ∧ KindSet.has primaryWriting.env.mask .writeFailed = false
      ∧ primaryWriting.lib.untargeted 0 :=
  ⟨⟨⟨rfl, rfl, rfl⟩, by decide⟩, rfl, rfl, rfl, by decide, by decide +kernel, fun r h => absurd (show (none : Option RescueRecord) = some r from h) (by simp)⟩

/-- A library whose book 0 has its marks at the end of the book and whose drive 0 writes the twin of its last page. -/
def lastTwinWrite : State :=
  let s := running (inService (.twinWrite 0 4095 2 true true) 2)
  { s with lib := s.lib.setBook 0 ⟨.opened, some 0, some 2, 4096, 4096, 4095⟩ }

/-- R56: a held-sector total of 4095, which the page of two sectors lifts past 4096. -/
theorem witness_escalation_begins :
    let l := { shelf with buffer := { shelf.buffer with hold := [⟨0, 0, List.replicate 4095 0⟩] } }
    let a := l.joinHold ⟨0, 1, [1, 2]⟩
    l.buffer.escalation = false ∧ a.buffer.escalation = true ∧ a.scheduler.escalation = true ∧ a.scheduler.decisionDue = true := by
  decide +kernel

theorem witness_twin_write :
    let v := inService (.twinWrite 0 0 2 true true) 2
    Answered (running v) 0 v ∧ ((running v).lib.book 0).twin = some v.side ∧ ((running v).lib.book 0).twinMark = 0
      ∧ 0 < ((running v).lib.book 0).filing ∧ ((running v).lib.twin 0).state ≠ .paused
      ∧ Answered lastTwinWrite 0 (inService (.twinWrite 0 4095 2 true true) 2) ∧ (lastTwinWrite.lib.book 0).twinMark = 4095
      ∧ 4095 < (lastTwinWrite.lib.book 0).filing ∧ (lastTwinWrite.lib.book 0).filing ≤ 4096 :=
  ⟨running_answered _, rfl, rfl, by decide +kernel, by decide +kernel, ⟨⟨rfl, rfl, rfl⟩, by decide⟩, rfl, by decide +kernel, by decide +kernel⟩

theorem witness_twin_removed :
    let v := inService (.twinWrite 0 0 2 true false) 3
    Answered (running v) 0 v ∧ ((running v).lib.book 0).twin ≠ some v.side :=
  ⟨running_answered _, by decide +kernel⟩

theorem witness_reread (live : Bool) :
    let v := inService (.reread 0 0 2 live) 0
    Answered (running v) 0 v ∧ ([.uncorrectable, .ok 1] : List ReadResult).length = 2 ∧ ((running v).lib.book 0).twin ≠ none
      ∧ ([.ok 1, .corrected 2] : List ReadResult).map resultData = [1, 2].map some ∧ ((running v).lib.twin 0).state ≠ .paused :=
  ⟨running_answered _, rfl, (by decide +kernel : (shelf.book 0).twin ≠ none), rfl, (by decide +kernel : (shelf.twin 0).state ≠ .paused)⟩

/-- A frame of a batch that is being read from the source. -/
def batchedFrame : BatchFrame := ⟨0, 2, .toRead, [none, none], some .source, false, false, true⟩

/-- A rescue of side 0 onto side 4 at the machine, with its batch. -/
def rescuing (s : State) : State :=
  { s with lib := { s.lib with care := { s.lib.care with rescue := some ⟨0, false, 0, some 4, 0, false⟩, batch := some [batchedFrame] } } }

theorem witness_rescue_read (live : Bool) :
    let v := inService (.rescueRead 0 0 [0, 1] live) 0
    Answered (rescuing (running v)) 0 v ∧ ([.blank, .blank] : List ReadResult).length = [0, 1].length
      ∧ (rescuing (running v)).lib.care.rescue = some ⟨0, false, 0, some 4, 0, false⟩
      ∧ (rescuing (running v)).lib.care.batch = some [batchedFrame] ∧ [batchedFrame].find? (fun z => z.frame == 0) = some batchedFrame
      ∧ [0, 1].Nodup ∧ (batchedFrame.receive [0, 1] [.ok 1, .blank]).lacking ≠ [] ∧ (batchedFrame.receive [0, 1] [.ok 1, .ok 2]).lacking = [] :=
  ⟨⟨⟨rfl, rfl, rfl⟩, (by decide : (none : Option Nat) ≠ some 0)⟩, rfl, rfl, rfl, rfl, by decide, by decide, by decide⟩

/-- R173: the read that loses the frame of a rescue whose other copy is not to be had. -/
theorem test_rescue_loses_frame :
    let s := rescuing (running (inService (.rescueRead 0 0 [0, 1] true) 0))
    let l := { s.lib with books := put s.lib.books 0 ⟨.opened, some 0, none, 1, 1, 1⟩, buffer := Buffer.reset }
    let u := after (.rescueReadOutcome 0 [.blank, .blank]) { s with lib := l }
    u.env.frame 0 0 = .lost true 1 := by
  decide +kernel

theorem witness_rescue_write (live : Bool) (side : Side) :
    let v := inService (.rescueWrite 0 0 live) side
    Answered (rescuing (running v)) 0 v ∧ (rescuing (running v)).lib.care.rescue = some ⟨0, false, 0, some 4, 0, false⟩
      ∧ (side = 4 → some 4 = some v.side) ∧ (side = 5 → some 4 ≠ some v.side) :=
  ⟨⟨⟨rfl, rfl, rfl⟩, (by decide : (none : Option Nat) ≠ some 0)⟩, rfl, fun h => by rw [h]; rfl, fun h => by subst h; exact (by decide : some (4 : Side) ≠ some 5)⟩

theorem witness_patrol (f : Nat) :
    let v := inService (.patrolVerify 0 f 2) 0
    Answered (running v) 0 v ∧ ([.ok 1, .ok 2] : List ReadResult).length = 2 ∧ (running v).lib.untargeted v.side
      ∧ ((running v).lib.role v.side).holds = some 0 :=
  ⟨running_answered _, rfl, ⟨(by decide +kernel : shelf.role 0 ≠ .blank), fun r h => absurd (show (none : Option RescueRecord) = some r from h) (by simp)⟩,
    (by decide +kernel : (shelf.role 0).holds = some 0)⟩

theorem witness_pass_goes_on :
    let e := { library.env with directory := [(0, .head 1 2), (2, .cont 1 2)] }
    (e.frame 0 2).filed = true ∧ 2 < ({ shelf with books := put shelf.books 0 ⟨.opened, some 0, some 2, 3, 3, 0⟩ }).patrolTop 0 := by
  decide +kernel

/-- The library with the window of that FETCH being read at drive 0. -/
def reading : State :=
  let w := { window [SectorState.empty, SectorState.empty] with state := .sourcing, reading := true }
  withEntry (running (inService (.fetchRead 5 0 0 [0, 1] true 0) 0)) 5
    (entryOf (ask 5 0 2) (.fetch ⟨[⟨0, 0, 2, true⟩], [w], .done⟩))

/-- R61, R67 to R70: the outcome of a window's read under a filed and under a LOST entry, a window whose side is unavailable, and a pending window whose frame
has been filed. -/
theorem witness_waiting_windows :
    let w := { window [SectorState.empty, SectorState.empty] with state := .sourcing, item := some 0 }
    let held (v : Window) : State := withEntry library 5 (entryOf (ask 5 0 2) (.fetch ⟨[⟨0, 0, 2, true⟩], [v], .done⟩))
    let away (s : State) : Library := s.lib.setDrive 0 { s.lib.drive 0 with state := .failed }
    let pend := { w with state := .pending, item := none, resolved := .blank }
    (held w).lib.windows 5 = [w] ∧ (w.receive [0, 1] [.ok 1, .ok 2]).missing = [] ∧ (w.receive [0, 1] [.ok 1, .blank]).missing = [1]
      ∧ (library.env.frame 0 0).isLost = false ∧ (Frame.lost true 1).isLost = true
      ∧ (away (held w)).available library.env 0 = false ∧ w.reading = false ∧ ((away (held w)).windows 5) = [w]
      ∧ (held w).lib.available library.env 0 = true
      ∧ (held pend).lib.windows 5 = [pend] ∧ ¬ ((library.lib.book 0).filing ≤ pend.frame) := by
  decide +kernel

/-- R109: an outcome at the time at which its drive's command limit has expired. -/
theorem witness_late_outcome :
    let s := { library with lib := shelf.setDrive 0 { shelf.drive 0 with expired := some 0 } }
    s.env.startUp = none ∧ (s.lib.drive 0).expired = some s.env.now ∧ ((after (.primaryWriteOk 0) s).lib.drive 0).expired = none := by
  decide +kernel

/-- Each owner of a command that fails: `running_running` gives the drive. -/
theorem witness_command_failure :
    Running reading 0 (inService (.fetchRead 5 0 0 [0, 1] true 0) 0)
      ∧ ((reading.lib.windows 5).find? fun w => w.book == 0 && w.frame == 0 && w.reading).isSome = true
      ∧ (shelf.book 0).primary = some 0 ∧ (shelf.book 0).twin = some 2 :=
  ⟨⟨rfl, rfl, rfl⟩, by decide +kernel, by decide +kernel, by decide +kernel⟩

/-! Drives, picker and presence. -/

theorem witness_spin :
    (withDrive library .spinUp).env.startUp = none ∧ ((withDrive library .spinUp).lib.drive 0).state = .spinUp
      ∧ ((withDrive library .spinDown).lib.drive 0).state = .spinDown ∧ ((withDrive library .spinDown).lib.drive 0).failures = 0
      ∧ ((withDrive library .spinDown).lib.drive 0).unload = false ∧ (withDrive library .spinDown).lib.mountedSide 0 = some 0
      ∧ library.lib.picker.moves = [] ∧ library.lib.picker.state ≠ .faulted := by
  decide +kernel

theorem witness_idle :
    library.env.startUp = none ∧ (library.lib.drive 0).state = .ready ∧ (library.lib.drive 0).service = none
      ∧ library.lib.mountedSide 0 = some 0 ∧ library.lib.items 0 = [] := by
  decide +kernel

theorem witness_moves_complete :
    (moving (.load 1 .a 1) .moving false).lib.picker.record = some (.load 1 .a 1)
      ∧ (moving (.load 1 .a 1) .moving false).lib.picker.expired ≠ some (moving (.load 1 .a 1) .moving false).env.now
      ∧ (moving (.load 1 .a 1) .retry true).lib.picker.awaitCaddy = true
      ∧ (moving (.back 1 (some 0) .unload) .retry false).lib.picker.record = some (.back 1 (some 0) .unload)
      ∧ (moving (.back 1 (some 0) .unload) .retry false).lib.seated 1 = true
      ∧ (moving (.back 0 (some 0) .unload) .moving false).lib.seated 0 = false := by
  decide +kernel

/-- R118: the moves of the shelf that can be begun, and one of each kind that cannot. -/
theorem witness_moves_begin :
    let e := { library.env with configured := 4 }
    let held := { shelf with picker := { shelf.picker with locations := put shelf.picker.locations 5 .inPicker } }
    library.env.hold = false ∧ shelf.picker.state = .idle
      ∧ shelf.moveAllowed e (.load 1 .a 1) = true ∧ shelf.homeSeated (.load 1 .a 1) = false ∧ shelf.moveAllowed e (.load 1 .a 0) = false
      ∧ (withDrive library .stopped).lib.moveAllowed e (.back 0 (some 0) .unload) = true ∧ shelf.homeSeated (.back 0 (some 0) .unload) = false
      ∧ (withDrive library .failed).lib.moveAllowed e (.back 1 (some 0) .failure) = true ∧ shelf.homeSeated (.back 1 (some 0) .failure) = true
      ∧ held.moveAllowed e (.back 5 none .held) = true ∧ held.homeSeated (.back 5 none .held) = false
      ∧ shelf.moveAllowed e (.back 5 none .held) = false := by
  decide +kernel

theorem witness_moves_fail :
    (moving (.load 1 .a 1) .moving false).env.startUp = none ∧ (moving (.load 1 .a 1) .moving false).lib.picker.state = .moving
      ∧ (moving (.back 0 (some 0) .failure) .moving false).lib.seated 0 = false
      ∧ (moving (.back 0 (some 0) .failure) .retry false).lib.picker.state = .retry
      ∧ (moving (.back 0 (some 0) .failure) .retry false).lib.picker.awaitCaddy = false
      ∧ (moving (.back 0 (some 0) .failure) .retry false).lib.picker.record = some (.back 0 (some 0) .failure) := by
  decide +kernel

theorem witness_late_completion :
    let l := { shelf with picker := { shelf.picker with expired := some library.env.now } }
    l.picker.expired = some library.env.now ∧ library.env.startUp = none := by
  decide +kernel

theorem witness_presence :
    library.lib.seated 1 = true ∧ library.lib.location 1 = .inSlot ∧ library.lib.moving 1 = false
      ∧ library.lib.inUseSide 1 = some 2 ∧ library.lib.log.first = none
      ∧ library.lib.seated 5 = false ∧ library.lib.location 5 = .absent ∧ library.lib.moving 5 = false
      ∧ (∀ q : Side, slotOf q = 5 → library.lib.role q = .unlisted) := by
  decide +kernel

/-- R176: the rescue of side 0 onto side 4, whose cartridge stands in slot 2, is stopped while that slot is empty. -/
theorem witness_presence_of_a_rescue :
    let away := { shelf with picker := { shelf.picker with locations := put shelf.picker.locations 2 .absent, presence := put shelf.picker.presence 2 false } }
    slotOf (4 : Side) = 2 ∧ (rescuing library).lib.location 2 = .inSlot ∧ (rescuing library).lib.seated 2 = true
      ∧ away.location 2 = .absent ∧ away.seated 2 = false ∧ away.location (slotOf 0) ≠ .absent
      ∧ ((away.setRole 4 (.rescueTarget 0)).role 4).inUse = true
      ∧ (away.setLocation 0 .absent).location (slotOf 0) = .absent := by
  decide +kernel

/-! Times, power and start-up. -/

theorem witness_timed :
    let s := { library with lib := library.lib.setItems 0 [⟨.rescueRead, 4⟩] }
    s.env.startUp = none ∧ s.lib.mountedSide 0 = some 0 ∧ s.lib.hasDemand 0 = true ∧ (∃ x ∈ s.lib.demand 0, x.placed = 4)
      ∧ ∀ i, library.lib.hasDemand i = false := by
  decide +kernel

/-- R133: one state for each step, and one that finds no drive. -/
theorem witness_drive_choice :
    let c : SideRank := ⟨1, false, 0, 4⟩
    let e (n now : Nat) : Env := { library.env with configured := n, now := now }
    let busy := shelf.setItems 0 [⟨.rescueRead, 0⟩]
    shelf.findDrive (e 4 0) [] c = some (.empty 1)
      ∧ (shelf.setDrive 0 { shelf.drive 0 with unload := true }).findDrive (e 1 0) [] c = some (.vacating 0)
      ∧ shelf.findDrive (e 1 0) [] c = some (.idle 0) ∧ busy.findDrive (e 1 20) [] c = some (.busy 0) ∧ busy.findDrive (e 1 19) [] c = none
      ∧ shelf.findDrive (e 1 0) [0] c = none := by
  decide +kernel

theorem witness_decisions :
    { library.env with hold := true }.hold = true ∧ (moving (.load 1 .a 1) .faulted false).lib.picker.state = .faulted
      ∧ shelf.hasDemand 1 = false ∧ (shelf.setItems 0 [⟨.rescueRead, 0⟩]).hasDemand 0 = true ∧ (shelf.drive 0).state = .ready
      ∧ (shelf.drive 1).state ≠ .ready ∧ (shelf.drive 1).state ≠ .stopped ∧ shelf.mountedSide 0 = some 0 := by
  decide +kernel

/-- R137: a patrol mount whose side has become unavailable. -/
theorem witness_patrol_mount_ends :
    let l := { shelf with scheduler := { shelf.scheduler with patrolMount := some 9 } }
    let a := l.registerEvents library.env shelf
    l.scheduler.decisionDue = false ∧ a.scheduler.patrolMount = none ∧ a.scheduler.decisionDue = true := by
  decide +kernel

theorem witness_order_timer :
    { library with fee := accounts 1 150 }.env.startUp = none ∧ look (accounts 1 150).orders 3 = some (order 1 150) := by decide +kernel

theorem witness_hold :
    (sending .none).env.hold = false ∧ (fetchEntry .none).ended = none ∧ primaryWriting.lib.entry 5 = some (fileEntry (filing 2 .writing [1, 2]))
      ∧ { library with env := { library.env with hold := true } }.env.startUp = none := by
  decide +kernel

/-- R42, R152: one of the two sectors is in transfer, without a charge mode and under one (the page's head is that of `witness_charged_page`). -/
theorem witness_hold_in_transfer (mode : ChargeMode) :
    let w := window [fromPrimary 1, fromPrimary 2]
    (sending mode).lib.entry 5 = some (fetchEntry mode) ∧ (sending mode).env.startUp = none ∧ (sending mode).env.hold = false
      ∧ (sending mode).lib.front.linkBurst = none ∧ (sending mode).lib.front.ready = .burst 5 :: []
      ∧ (fetchEntry mode).record.tag = 5 ∧ (fetchEntry mode).record.mode = mode ∧ w.resolved = .head 1 2
      ∧ ((fetchEntry mode).record.addr.val + (fetchEntry mode).moved) % 64 = 0 ∧ w.run (sectorOf 0) = [fromPrimary 1, fromPrimary 2] :=
  ⟨rfl, rfl, rfl, rfl, rfl, rfl, rfl, rfl, rfl, by decide +kernel⟩

/-- R185, R181: a page of the service book in transfer. -/
theorem witness_hold_over_pages :
    pages.env.hold = false ∧ ∃ x, pages.lib.entry 5 = some x ∧ x.ended = none ∧ x.job = .servicePages ∧ x.moved + 1 ≤ x.record.count.val :=
  ⟨rfl, _, rfl, rfl, rfl, by decide⟩

/-- R28: what leaves the link without a burst at a warning. -/
theorem witness_no_burst_at_warning :
    { sending .none with lib := { (sending .none).lib with front := { (sending .none).lib.front with linkBurst := some 2 } } }.lib.front.linkBurst ≠ none
      ∧ ∀ t, (pulling (.serviceWrite false)).lib.front.ready.head? ≠ some (.burst t) := by
  decide +kernel

/-- The FETCH of a window of `size` sectors, the responses that the warning makes in its sector behind `sent` others (R181, R44; the event's own effect, before its
reactions), and the sectors that its burst has delivered. -/
def heldAfter (sent : Nat) (early : Bool) (size : Fin 1024) (mode : ChargeMode) (w : Window) : List Response × List Output × Fee :=
  let s := withEntry { library with fee := accounts 1 150 } 5 (entryOf (ask 5 0 size mode) (.fetch ⟨[⟨0, 0, size.val, true⟩], [w], .done⟩))
  let s := { s with lib := { s.lib with front := { s.lib.front with ready := [.burst 5] } } }.begin
  let u := s.holdOver ⟨sent, early⟩
  (u.lib.holdRequests.front.ending, u.lib.out, u.fee)

/-- R181, R44: with a sector left HOLD ends the FETCH after the sector in transfer, also below a stop; with none left it is DONE. -/
theorem test_hold_after_the_sector_in_transfer :
    let cut : Window := { window [fromPrimary 1, SectorState.empty] with stop := some ⟨1, .unreadable⟩, state := .stopped }
    let one : Window := { window [fromPrimary 1] with last := 0 }
    (heldAfter 0 false 2 .none cut).1 = [⟨5, .powerHold, 1, 1, 1, .empty, 0⟩] ∧ (heldAfter 0 false 1 .none one).1 = [⟨5, .done, 1, 0, 0, .empty, 0⟩] := by
  decide +kernel

/-- R181, R75: the warning falls among the zero-filled sectors beyond the length of a frame of one sector, or into that sector: the stop address is the first sector not
delivered. -/
theorem test_hold_in_the_zero_filled_tail :
    let w : Window := { window [fromPrimary 1, SectorState.zero, SectorState.zero] with last := 2, resolved := .head 1 1 }
    (heldAfter 0 false 3 .none w).1 = [⟨5, .powerHold, 1, 1, 2, .empty, 0⟩]
      ∧ (heldAfter 1 false 3 .none w).1 = [⟨5, .powerHold, 2, 2, 1, { Notes.empty with blankFill := true }, 0⟩]
      ∧ (heldAfter 1 false 3 .none w).2.1 = [.burst 5 0 [1, Sector.zeros]] := by
  decide +kernel

/-- R152: a page's first sector in transfer is charged to a new order, or, when its offer is taken before the assertion, to the order that is open, whose
recent-page list has the page already (R145); the order closes at the event. -/
theorem test_hold_charges_the_sector_in_transfer :
    let fee (n : Nat) (early : Bool) := (heldAfter n early 2 .certified (window [fromPrimary 1, fromPrimary 2])).2.2
    let seen (f : Fee) := (f.tallies.amount, f.tallies.orders, look f.orders 3)
    seen (fee 0 false) = (650, 1, none) ∧ seen (fee 0 true) = (0, 0, none) ∧ seen (fee 1 false) = (0, 0, none) := by
  decide +kernel

theorem witness_reset :
    { library with env := { library.env with formatMarker := false } }.env.formatMarker = false ∧ library.env.formatMarker = true
      ∧ library.lib.picker.record = none ∧ library.lib.location 1 = .inSlot ∧ library.lib.location 5 = .absent
      ∧ library.lib.location 0 = .inDrive 0 .a ∧ library.lib.care.rescue = none ∧ library.lib.care.queue = []
      ∧ (∀ k, library.lib.location k = .inSlot → look library.lib.picker.presence k = true)
      ∧ ∀ k, library.lib.location k = .absent → look library.lib.picker.presence k = false := by
  decide +kernel

/-- A reset that finds the machine as it stands, broken off after `n` changes. -/
def broken (n : Nat) : ResetInputs := ⟨4, State.reset.lib.picker.presence, false, true, false, some n⟩

/-- R184: a further reset between the marker and the record of its fault: the marker stands and the fault is never recorded; one that comes before the marker finds
it absent again. -/
theorem test_reset_broken_off :
    let s := { library with env := { library.env with formatMarker := false } }
    let u (n : Nat) := after (.reset .powerOn (broken n)) s
    (u 0).env.formatMarker = false ∧ (u 1).env.formatMarker = true ∧ (u 1).env.causes = ⟨false, false, false⟩ ∧ (u 1).lib.log.first = none
      ∧ (u 2).env.causes = ⟨true, false, false⟩ ∧ (u 3).lib.log.first = some ⟨.recordMemoryBlank, none, none, none, none, none, none, 1⟩
      ∧ (u 0).attn = false ∧ (u 3).attn = true ∧ (u 3).env.startUp = some ⟨none, false, some 3⟩ := by
  decide +kernel

theorem witness_reset_broken_off :
    (broken 2).cut = some 2 ∧ (broken 4).cut = some 4 ∧ (broken 4).memoryKept = true ∧ library.env.formatMarker = true
      ∧ (after (.reset .resetLine (broken 4)) library).env.startUp = some ⟨none, false, some 4⟩
      ∧ ((after (.reset .resetLine (broken 4)) (moving (.load 1 .a 1) .moving false)).env.startUp = some ⟨some 1, false, some 4⟩) := by
  decide +kernel

theorem witness_reset_of_a_move :
    let s := moving (.back 0 (some 0) .unload) .moving false
    s.env.formatMarker = true ∧ s.lib.picker.record = some (.back 0 (some 0) .unload) ∧ s.lib.location 0 = .inDrive 0 .a
      ∧ (moving (.load 1 .a 1) .moving false).lib.picker.record = some (.load 1 .a 1) := by
  decide +kernel

theorem witness_start_up_waits :
    (moving (.load 1 .a 1) .moving false).env.formatMarker = true
      ∧ (moving (.load 1 .a 1) .moving false).lib.picker.record = some (.load 1 .a 1) ∧ (1 : Drive).val < 2 := by
  decide +kernel

/-! Service writes: `writing_awaits` gives the state for each block. -/

theorem witness_blocks :
    blockOf 3 = .day ∧ blockOf 4 = .fault ∧ blockOf 5 = .picker ∧ blockOf 16 = .order 0 ∧ blockOf 31 = .order 15 ∧ blockOf 32 = .schedule
      ∧ blockOf 33 = .pool ∧ blockOf 34 = .rescue ∧ blockOf 64 = .book 0 ∧ blockOf 190 = .book 126 := by
  decide

theorem witness_close :
    ((writing 64).lib.book 0).state = .opened ∧ ((writing 65).lib.book 1).state = .unassigned
      ∧ ({ shelf with books := put shelf.books 0 { shelf.book 0 with state := .closed } }.book 0).state = .closed := by
  decide +kernel

theorem witness_pool :
    ([3, 5].take 2).Nodup ∧ (writing 33).lib.role 3 = .unlisted ∧ (writing 33).lib.location (slotOf 3) ≠ .absent
      ∧ (writing 33).lib.role 5 = .unlisted ∧ (writing 33).lib.location (slotOf 5) ≠ .absent ∧ (writing 33).lib.role 4 = .blank
      ∧ ¬ ([3, 3].take 2).Nodup ∧ (writing 33).lib.location (slotOf 127) = .absent := by
  decide +kernel

theorem witness_picker_clear :
    (moving (.load 1 .a 1) .faulted false).lib.picker.state = .faulted
      ∧ { shelf with picker := { shelf.picker with locations := put shelf.picker.locations 2 .inPicker } }.heldSlot = some 2 := by
  decide +kernel

theorem witness_assignment :
    ((writing 65).lib.book 1).state = .unassigned ∧ (writing 65).lib.role 4 = .blank ∧ (writing 65).lib.bookUnderRescue 1 = false
      ∧ (writing 65).lib.sideUnderRescue 4 = false := by
  decide +kernel

theorem witness_twin_writes :
    ((writing 64).lib.book 0).twin = some 2 ∧ (writing 64).lib.bookUnderRescue 0 = false ∧ (writing 64).lib.sideUnderRescue 2 = false
      ∧ ({ shelf with books := put shelf.books 0 ⟨.opened, some 0, none, 1, 1, 1⟩ }.book 0).twin = none
      ∧ (writing 64).lib.role 4 = .blank ∧ ((writing 64).lib.book 0).primary.map slotOf ≠ some (slotOf 4) := by
  decide +kernel

theorem witness_waiting_unload :
    let l := { (withDrive (moving (.load 1 .a 1) .faulted false) .stopped).lib with }
    ((l.setDrive 0 { l.drive 0 with unload := true }).drive 0).state = .stopped ∧ l.mountedSide 0 = some 0 := by
  decide +kernel

/-- R168 to R176: a side that finds a target and one that finds none; the frames of a batch; the course with and without a batch. -/
theorem witness_rescue_course :
    let queued := { shelf with care := { shelf.care with queue := [0], seekDue := false } }
    let l := (rescuing library).lib
    let r : RescueRecord := ⟨0, false, 0, some 4, 0, false⟩
    let bare := { l with care := { l.care with batch := none, seekDue := false } }
    (queued.role 0).holds = some 0 ∧ queued.findTarget 0 0 = some 4 ∧ queued.care.rescue = none
      ∧ (queued.setRole 4 .unlisted).findTarget 0 0 = none
      ∧ (library.env.frame 0 0).filed = true ∧ (library.env.frame 0 1).filed = false
      ∧ l.copyAvailable library.env r .source = true ∧ (withDrive library .failed).lib.copyAvailable library.env r .source = false
      ∧ (l.held 0 0).isSome = true ∧ l.held 0 1 = none ∧ batchedFrame.failedOn .source = false
      ∧ bare.care.seekDue = false ∧ bare.care.rescue = some r ∧ r.target = some 4 ∧ r.stopped = false
      ∧ l.care.batch = some [batchedFrame] ∧ batchedFrame.state = .toRead ∧ r.copyMark < bare.chasedMark r
      ∧ bare.chasedMark { r with copyMark := 1 } = 1 ∧ bare.sourceWriting r = false
      ∧ primaryWriting.lib.sourceWriting r = true ∧ (4 : Side) ≠ r.source := by
  decide +kernel

theorem witness_refused_writes :
    readWrite .status Sector.zeros = .readOnly ∧ readWrite .fault Sector.zeros = .unknown false
      ∧ readWrite (.book 0) (BitVec.ofNat 8192 5) = .unknown true := by
  decide +kernel

/-! Fees, lists and the whole machine. -/

theorem witness_recent_page :
    library.env.hold = false ∧ look (accounts 1 150).orders 3 = some (order 1 150) ∧ 0 ∈ look (accounts 1 150).recent 3 := by decide +kernel

theorem witness_new_and_charged_page :
    Fee.blank.hasOrder ⟨5, 3, true, 0, 0, 1, 0, true⟩ = false ∧ look (accounts 65535 4294967295).orders 3 = some (order 65535 4294967295)
      ∧ 1 ∉ look (accounts 1 150).recent 3 := by
  decide +kernel

theorem witness_demand_list :
    ([⟨.fetch 1 0 0, 4⟩, ⟨.patrol, 2⟩] : List Item).Pairwise (fun a b => keyBefore b.key a.key = false)
      ∧ (([⟨.fetch 1 0 0, 4⟩, ⟨.patrol, 2⟩] : List Item).map Item.kind).Nodup := by
  decide +kernel

/-- R59 to R71: a window of frame 0 of book 0 under each entry, and each state of its copies. -/
theorem witness_window_turns :
    let e (x : Frame) : Env := { library.env with directory := if x = .blank then [] else [(0, x)] }
    let w := { window [SectorState.empty, SectorState.empty] with state := .sourcing }
    let l := (withEntry library 5 (entryOf (ask 5 0 2) (.fetch ⟨[⟨0, 0, 2, true⟩], [w], .done⟩))).lib
    l.windows 5 = [w] ∧ w.stop = none ∧ w.missing = [0, 1] ∧ w.sectors.length = w.size ∧ (e .void).frame 0 0 = .void
      ∧ (e .blank).frame 0 0 = .blank ∧ ((e (.lost true 1)).frame 0 0).isLost = true ∧ ((e (.cont 1 1)).frame 0 0).length = 1
      ∧ (l.setBook 0 ⟨.opened, some 0, some 2, 0, 1, 0⟩).book 0 = ⟨.opened, some 0, some 2, 0, 1, 0⟩ ∧ (l.book 0).primary = some 0
      ∧ l.available library.env 0 = true ∧ (l.setDrive 0 { l.drive 0 with state := .failed }).available library.env 0 = false
      ∧ (l.book 0).twin = some 2 ∧ (l.book 0).twinMark = 0 ∧ l.available library.env 2 = true
      ∧ (l.held 0 0).isSome = true ∧ ({ l with buffer := Buffer.reset }).held 0 0 = none := by
  decide +kernel

/-- R136, R163: a library at rest has a patrol candidate; with side 0 eligible the cursor takes it. -/
theorem witness_patrol_choice :
    let l := shelf.setBook 0 ⟨.opened, some 0, some 2, 1, 1, 1⟩
    l.oldestPatrol library.env = some 2 ∧ l.scheduler.patrolMount = none ∧ l.nextCursor library.env = some 0 ∧ l.care.lastCursor = none
      ∧ l.patrolEligible library.env 0 = true
      ∧ ({ l with care := { l.care with lastCursor := some 127 } }).nextCursor library.env = some 0 := by
  decide +kernel

/-- R162, R164: what bars a side from patrol, and a mark above its top, at its frame and past it. -/
theorem witness_patrol_frames :
    let l := shelf.setBook 0 ⟨.opened, some 0, some 2, 1, 1, 1⟩
    let marked (n : Nat) : Library := l.setHealth 0 ⟨0, 0, n, none⟩
    l.nextPatrol library.env 0 = some (0, 0) ∧ (marked 2).nextPatrol library.env 0 = some (0, 0) ∧ (marked 1).nextPatrol library.env 0 = none
      ∧ (l.setHealth 0 ⟨0, 0, 0, some 7⟩).patrolEligible library.env 0 = false ∧ (l.setRole 0 (.retired 0)).patrolEligible library.env 0 = false
      ∧ (l.setDrive 0 { l.drive 0 with unload := true }).patrolEligible library.env 0 = false ∧ l.patrolEligible library.env 2 = false
      ∧ (l.setItems 0 [⟨.rescueRead, 0⟩]).patrolEligible library.env 0 = false ∧ (l.setItems 0 [⟨.patrol, 0⟩]).patrolEligible library.env 0 = true
      ∧ ((marked 1).setItems 0 [⟨.patrol, 0⟩]).firstServable 0 = some ⟨.patrol, 0⟩ := by
  decide +kernel

/-- R175: a switch of side 0 to side 4: the items of book 0 go with their placement times, but for one that the target has already, and no other item goes. -/
theorem test_switch_moves_items :
    let l := (shelf.setItems 0 [⟨.twinReread 0, 5⟩, ⟨.fetch 5 0 0, 6⟩, ⟨.rescueRead, 7⟩, ⟨.fetch 5 1 0, 8⟩]).setItems 4 [⟨.fetch 5 0 0, 9⟩]
    let a := l.switch ⟨0, false, 0, some 4, 1, false⟩ 4
    (a.items 4).map Item.placed = [9, 5] ∧ (a.items 0).map Item.placed = [7, 8] := by
  decide +kernel

/-! Parts of the reactions and of the failures. -/

/-- R88: a FILE of two sectors, one received, whose primary side stands in a FAILED drive. -/
theorem witness_stranded_file :
    let s := withEntry (withDrive library .failed) 5 (fileEntry (filing 2 .intake [1]))
    s.lib.fileOf 5 = some (fileEntry (filing 2 .intake [1]), filing 2 .intake [1]) ∧ (s.lib.book 0).primary = some 0
      ∧ s.lib.available s.env 0 = false
      ∧ ((s.lib.unwindStranded s.env).entry 5).map (fun y => (y.ended, y.discard)) = some (some .sideUnavailable, 1) := by
  decide +kernel

/-- R154, R177: a page that saturates the day's amount. -/
theorem test_saturation_is_logged :
    let s := { sending .copy with fee := { accounts 1 150 with orders := Fee.blank.orders, recent := Fee.blank.recent, tallies := { Fee.blank.tallies with amount := 4294967290 } } }
    s.fee.tallies.saturated = false ∧ s.lib.log.first = none ∧ KindSet.has s.env.mask .tallySaturated = false
      ∧ (after (.burstSent 2) s).fee.tallies.saturated = true
      ∧ (after (.burstSent 2) s).lib.log.first = some ⟨.tallySaturated, some 0, none, some 0, none, none, some 5, 7⟩ := by
  decide +kernel

/-- Tables 11-6 and 11-12: WRITE_FAILED of a twin side, and a side of the first side page. -/
theorem test_fault_and_side_pages :
    let l := { shelf with log := { shelf.log with first := some ⟨.writeFailed, some 0, some 2, some 513, some 1, none, none, 7⟩ } }
    bytesAt (servicePage library.env library.fee l 4) 0 12 = 0x0007_00ff_ff01_0201_0200_0401
      ∧ bytesAt (servicePage library.env library.fee (l.setHealth 2 ⟨258, 3, 772, some 5⟩) 35) 32 10 = 0x0005_0304_0003_0102_0003 := by
  decide +kernel

/-- Tables 11-7, 11-13 and 11-14: the move under way, the entry of book 0, and its first frame. -/
theorem test_picker_book_and_directory_pages :
    bytesAt (servicePage library.env library.fee (moving (.load 1 .b 1) .retry true).lib 5) 0 8 = 0x0001_0101_0100_0102
      ∧ bytesAt (servicePage library.env library.fee library.lib 64) 0 10 = 0x0000_0001_0001_0202_0001
      ∧ bytesAt (servicePage library.env library.fee library.lib 1024) 0 4 = 0x0000_0211 := by
  decide +kernel

theorem witness_failed_read :
    let s := running (inService (.fetchRead 5 0 0 [0, 1] true 2) 0)
    (ReadResult.blank ∈ ([.ok 1, .blank] : List ReadResult)) ∧ s.lib.log.first = none ∧ KindSet.has s.env.mask .readUncorrectable = false
      ∧ s.lib.care.queue.length < 8 := by
  decide +kernel

/-- R52: the re-read half free, and taken by a record of 512 sectors; the head of the waiting list with its record, too long and fitting, and without. -/
theorem witness_reread_slots :
    let taken := shelf.setTwin 0 ⟨.working, none, [⟨0, 511, .reading, []⟩, ⟨1, 2, .asked, []⟩], none⟩
    let waits (l : Library) : Library := { l with buffer := { l.buffer with rereadWait := [(0, 1)] } }
    2 ≤ shelf.rereadFree ∧ taken.rereadFree < 2 ∧ (shelf.book 0).primary = some 0
      ∧ ((waits taken).twin 0).rereads.find? (fun r => r.frame == 1) = some ⟨1, 2, .asked, []⟩ ∧ (waits taken).rereadFree < 2
      ∧ 2 ≤ (waits (shelf.setTwin 0 ⟨.working, none, [⟨1, 2, .asked, []⟩], none⟩)).rereadFree
      ∧ ((waits shelf).twin 0).rereads.find? (fun r => r.frame == 1) = none := by
  decide +kernel

/-- R52: what joins the waiting list at one event is put in order behind what waited. -/
theorem witness_reservations :
    let l (xs : List (Book × Nat)) : Library := { shelf with buffer := { shelf.buffer with rereadWait := xs } }
    (Library.orderReservations (l [(9, 9)]) (l [(9, 9), (5, 1), (2, 7), (5, 0)])).buffer.rereadWait = [(9, 9), (2, 7), (5, 0), (5, 1)] := by
  decide +kernel

/-- R113: the second failure at each kind of command; a RETURN that waits; a record that is full. -/
theorem witness_second_failure :
    let s (x : DriveState) : State := { library with lib := shelf.setDrive 0 { shelf.drive 0 with state := x, failures := 1 } }
    let v := inService (.patrolVerify 0 0 2) 0
    let r := { running v with lib := (running v).lib.setDrive 0 { (running v).lib.drive 0 with failures := 1 } }
    ((s .spinUp).lib.drive 0).failures = 1 ∧ ((s .spinUp).lib.drive 0).service = none ∧ ((s .spinDown).lib.drive 0).state = .spinDown
      ∧ (s .spinUp).lib.mountedSide 0 = some 0 ∧ (s .spinUp).lib.picker.moves = [] ∧ (s .spinUp).lib.log.first = none
      ∧ KindSet.has library.env.mask .driveFailed = false ∧ (r.lib.drive 0).failures = 1 ∧ (r.lib.drive 0).service = some v
      ∧ (Move.back 0 (some 0) .unload).drive? = some 0 ∧ (Move.load 1 .a 1).drive? ≠ some 0 ∧ (Move.load 1 .a 0).byScheduler = true
      ∧ State.reset.lib.log.first ≠ none ∧ ((running v).lib.drive 0).failures = 0 := by
  decide +kernel

/-- R101, R112: the owners of the commands that take their items back. -/
theorem witness_items_return :
    let twin := running (inService (.twinWrite 0 0 2 true true) 2)
    (shelf.book 0).primary = some 0 ∧ (twin.lib.book 0).twin = some 2
      ∧ ((State.failCommand twin.begin 0).lib.twin 0).state = .working
      ∧ (rescuing twin).lib.care.batch = some [batchedFrame] := by
  decide +kernel

/-- A request with its delivery window open and a look-ahead window. -/
def ahead (t : Tag) (v : Window) (s : State) : State :=
  withEntry s t (entryOf (ask t 0 130) (.fetch ⟨[⟨0, 0, 130, true⟩], [window [fromPrimary 1, fromPrimary 2], v], .done⟩))

/-- R46, R47, R48: look-ahead windows that are unopened, open, and being read; slots that hold a window and slots that do not. -/
theorem witness_staging :
    let w := window [SectorState.empty, SectorState.empty]
    let shut := { w with frame := 1, state := .unopened }
    let open_ := { w with frame := 1, state := .sourcing, item := some 0 }
    let full (s : State) : Library := { s.lib with buffer := { s.lib.buffer with deliveryWait := [⟨9, 1023, []⟩] } }
    (ahead 5 shut library).lib.lookAhead 5 = some shut ∧ shut.isOpen = false ∧ shut.size ≤ (ahead 5 shut library).lib.stagingFree
      ∧ (full (ahead 5 shut library)).stagingFree < shut.size
      ∧ ((full (ahead 6 open_ library)).lastLookAhead 5 false = some (6, open_)) ∧ (full (ahead 6 open_ library)).stagingFree < 2
      ∧ ((ahead 6 { open_ with reading := true } library).lib.lastLookAhead 5 true = some (6, { open_ with reading := true }))
      ∧ library.lib.lastLookAhead 5 false = none
      ∧ (Library.displaceIdle 2 5 16 (full library)).stagingFree < 2
      ∧ (ahead 6 { open_ with reading := true } (running (inService (.fetchRead 6 0 1 [0, 1] true 0) 0))).lib.lookAhead 6
          = some { open_ with reading := true }
      ∧ ((ahead 6 { open_ with reading := true } (running (inService (.fetchRead 6 0 1 [0, 1] true 0) 0))).lib.drive 0).service
          = some (inService (.fetchRead 6 0 1 [0, 1] true 0) 0) := by
  decide +kernel

theorem witness_moves_fail_at_home :
    let s := moving (.back 1 (some 0) .unload) .moving false
    s.env.startUp = none ∧ s.lib.picker.record = some (.back 1 (some 0) .unload) ∧ s.lib.picker.state = .moving
      ∧ s.lib.picker.awaitCaddy = false ∧ s.lib.seated 1 = true ∧ (moving (.load 1 .a 1) .retry true).lib.picker.awaitCaddy = true
      ∧ (moving (.load 1 .a 1) .retry true).lib.picker.record = some (.load 1 .a 1) := by
  decide +kernel

/-- R19, R118, R124: a slot with a move under way, a cartridge in a drive, one in the grip, and a drive whose RETURN was dropped. -/
theorem witness_presence_while_away :
    let s := moving (.load 1 .a 1) .moving false
    let dropped := (shelf.setDrive 0 { shelf.drive 0 with state := .stopped, askAgain := some .unload }).setSeated 0 true
    s.lib.moving 1 = true ∧ s.lib.seated 1 = true ∧ shelf.location 0 = .inDrive 0 .a ∧ shelf.seated 0 = false
      ∧ (shelf.setLocation 5 .inPicker).location 5 = .inPicker ∧ (dropped.drive 0).askAgain = some .unload ∧ dropped.seated 0 = true
      ∧ dropped.mountedSide 0 = some 0 ∧ slotOf 0 = 0 ∧ dropped.picker.moves = [] ∧ (dropped.drive 1).askAgain = none
      ∧ (after (.presenceChange 0 false) { library with lib := dropped }).lib.picker.record = some (.back 0 (some 0) .unload) := by
  decide +kernel

/-- R131, R132: a decision that gives a candidate its drive. -/
theorem witness_decision_gives :
    let l := { shelf.setItems 2 [⟨.rescueRead, 0⟩] with scheduler := { (shelf.setItems 2 [⟨.rescueRead, 0⟩]).scheduler with decisionDue := true } }
    let e := { library.env with configured := 2 }
    l.scheduler.decisionDue = true ∧ e.hold = false ∧ l.picker.state ≠ .faulted ∧ l.picker.moves = [] ∧ l.picker.record = none
      ∧ (l.candidates e).map SideRank.side = [2] ∧ (l.decide e).picker.moves = [.load 1 .a 1] := by
  decide +kernel

/-- R174: a record without a target, with the pool as it stands and with an empty one. -/
theorem witness_record_without_target :
    let l := { shelf with care := { shelf.care with rescue := some ⟨0, false, 0, none, 0, false⟩ } }
    l.care.rescue = some ⟨0, false, 0, none, 0, false⟩ ∧ l.findTarget 0 0 = some 4 ∧ (l.setRole 4 .unlisted).findTarget 0 0 = none
      ∧ l.care.waiting = false ∧ l.log.first = none ∧ KindSet.has library.env.mask .noBlank = false := by
  decide +kernel

/-- R6 to R9: what refuses each change. -/
theorem witness_refused_changes :
    ((writing 64).lib.book 0).state ≠ .unassigned ∧ ((writing 65).lib.book 1).state = .unassigned ∧ (writing 65).lib.role 3 ≠ .blank ∧ ¬ 200 < 128
      ∧ 5 / 2 = 4 / 2 ∧ (rescuing (writing 65)).lib.care.rescue = some ⟨0, false, 0, some 4, 0, false⟩
      ∧ ((writing 64).lib.book 0).twin = some 2 ∧ ((writing 64).lib.book 0).primary = some 0 ∧ (0 : Side).val / 2 = 1 / 2 := by
  decide +kernel

/-- R109, R126: the mounted side 0 with an item of each kind first on its list, and the work that it names. -/
theorem witness_hand_outs :
    let l (x : Library) (k : ItemKind) : Library := x.setItems 0 [⟨k, 0⟩]
    let w := { window [SectorState.empty, SectorState.empty] with state := .sourcing }
    let fetch := (withEntry library 5 (entryOf (ask 5 0 2) (.fetch ⟨[⟨0, 0, 2, true⟩], [w], .done⟩))).lib
    let file := (withEntry library 5 (fileEntry (filing 2 .queued [1, 2]))).lib
    let reread := shelf.setTwin 0 ⟨.working, none, [⟨0, 2, .granted, []⟩], none⟩
    let batch (x : BatchFrame) : Library := { (rescuing library).lib with care := { (rescuing library).lib.care with batch := some [x] } }
    let toRead := batch { batchedFrame with reading := false }
    let ready := batch { batchedFrame with state := .ready }
    (shelf.drive 0).unload = false ∧ shelf.mountedSide 0 = some 0 ∧ (shelf.drive 0).state = .ready ∧ (shelf.drive 0).service = none
      ∧ (l (withDrive library .stopped).lib .patrol).firstServable 0 = some ⟨.patrol, 0⟩
      ∧ (l fetch (.fetch 5 0 0)).firstServable 0 = some ⟨.fetch 5 0 0, 0⟩
      ∧ (fetch.windows 5).find? (fun w => w.book == 0 && w.frame == 0 && w.isOpen) = some w
      ∧ (l shelf (.fetch 5 0 0)).firstServable 0 = some ⟨.fetch 5 0 0, 0⟩ ∧ shelf.windows 5 = []
      ∧ (l file (.file 5)).firstServable 0 = some ⟨.file 5, 0⟩ ∧ file.fileOf 5 = some (fileEntry (filing 2 .queued [1, 2]), filing 2 .queued [1, 2])
      ∧ (l shelf (.twinWrite 0)).firstServable 0 = some ⟨.twinWrite 0, 0⟩ ∧ shelf.twinData 0 (shelf.book 0).twinMark = some (true, [1, 2])
      ∧ ({ shelf with buffer := Buffer.reset }).twinData 0 (shelf.book 0).twinMark = none
      ∧ (l reread (.twinReread 0)).firstServable 0 = some ⟨.twinReread 0, 0⟩
      ∧ (reread.twin 0).rereads.find? (fun r => r.state == .granted) = some ⟨0, 2, .granted, []⟩
      ∧ (l toRead .rescueRead).firstServable 0 = some ⟨.rescueRead, 0⟩ ∧ (toRead.rescueReadFrame 0).isSome = true
      ∧ (l ready .rescueWrite).firstServable 0 = some ⟨.rescueWrite, 0⟩ ∧ ready.lowestOpen.isSome = true
      ∧ (l shelf .patrol).firstServable 0 = some ⟨.patrol, 0⟩ ∧ shelf.nextPatrol library.env 0 = some (0, 0) := by
  decide +kernel

/-- R136: a quiet library that mounts side 2 at the EMPTY drive 1, one that chooses the idle drive 0 to unload, and one whose only drive is ACTIVE. -/
theorem witness_patrol_mount :
    let l := shelf.setBook 0 ⟨.opened, some 0, some 2, 1, 1, 1⟩
    let e (n : Nat) : Env := { library.env with configured := n, now := 180 }
    l.scheduler.patrolMount = none ∧ l.picker.state = .idle ∧ l.picker.moves = [] ∧ l.scheduler.quiet + 180 ≤ (e 2).now ∧ (∀ i, l.hasDemand i = false)
      ∧ l.oldestPatrol (e 2) = some 2 ∧ l.oldestPatrol (e 1) = some 2 ∧ l.faceBound 2 = none ∧ (l.drive 1).state = .empty ∧ l.picker.record = none
      ∧ (l.drive 0).state = .ready ∧ l.mountedSide 0 = some 0 ∧ (l.considerPatrol (e 2)).picker.moves = [.load 1 .a 1]
      ∧ ((l.considerPatrol (e 1)).drive 0).unload = true
      ∧ (l.setDrive 0 { l.drive 0 with state := .active }).considerPatrol (e 1) = l.setDrive 0 { l.drive 0 with state := .active } := by
  decide +kernel

/-- A library that waits at start-up for the caddy report of drive 1, a LOAD of slot 1 under way. -/
def awaiting : State :=
  { moving (.load 1 .a 1) .moving false with env := { library.env with startUp := some ⟨some 1, false, none⟩ } }

/-- R123: an empty caddy leaves the LOAD's cartridge at its slot, a seated one takes it into the drive. -/
theorem test_load_settled_by_the_caddy :
    (shelf.settleRecord (.load 1 .a 1) false false).location 1 = .inSlot
      ∧ (shelf.settleRecord (.load 1 .a 1) false true).location 1 = .inDrive 1 .a := by
  decide +kernel

/-- R183, log entry 11: the report of another drive is no event. -/
theorem test_start_up_waits_for_its_drive :
    (after (.caddyReport 0 false) awaiting).env.startUp = some ⟨some 1, false, none⟩ := by
  decide +kernel

/-- Table 1-4: events that change the directory, one at a drive with no write in progress, and raw sectors of and beside a waiting service write. -/
theorem witness_directory_events :
    (after (.primaryWriteFail 0) primaryWriting).env.directory = [(0, .head 1 2), (1, .void)]
      ∧ (after (.primaryWriteFail 0) library).env.directory = [(0, .head 1 2)]
      ∧ ((writing 65).lib.book 1).state = .unassigned
      ∧ (after (.fileBurstArrival 9 (BitVec.ofNat 8192 0xff0401) .opened) (writing 65)).lib.role 4 = .primary 1
      ∧ (after (.fileBurstArrival 9 (BitVec.ofNat 8192 0xff0401) .opened) (writing 33)).env.directory = [(0, .head 1 2)] := by
  decide +kernel

theorem witness_trigger :
    let l := shelf.setHealth 0 ⟨200, 0, 0, none⟩
    (l.role 0).holds ≠ none ∧ library.env.threshold ≤ (l.health 0).corrected ∧ 0 ∉ l.care.queue ∧ l.care.rescue = none
      ∧ 8 ≤ ([1, 3, 5, 7, 9, 11, 13, 15] : List Side).length ∧ (shelf.health 0).corrected < library.env.threshold := by
  decide +kernel

theorem witness_bounds_sound : library.env.sound ∧ library.lib.sound := by
  unfold Env.sound Library.sound
  decide +kernel

theorem witness_accounts_sound : Fee.blank.sound where
  schedule := by unfold Schedule.sound FeeLine.sound; decide +kernel
  order s o h := by
    have : ∀ s, look Fee.blank.orders s = none := by decide +kernel
    rw [this s] at h; cases h
  recent s := by
    have : ∀ s, look Fee.blank.recent s = [] := by decide +kernel
    rw [this s]; exact ⟨by decide, List.nodup_nil, fun _ => rfl⟩
  tallies := fun _ => by decide +kernel
  closed := fun _ => by decide +kernel

theorem library_book (b : Book) : library.lib.book b = if b = 0 then ⟨.opened, some 0, some 2, 1, 1, 0⟩ else .unassigned := by
  revert b; decide +kernel

theorem library_role (i : Side) :
    library.lib.role i = if i = 0 then .primary 0 else if i = 2 then .twin 0 else if i = 4 then .blank else .unlisted := by
  revert i; decide +kernel

theorem library_rescue (r : RescueRecord) : library.lib.care.rescue ≠ some r :=
  fun h => absurd (show (none : Option RescueRecord) = some r from h) (by simp)

theorem witness_roles_sound : library.lib.RolesSound where
  primary b i := by
    rw [library_book, library_role]
    by_cases hb : b = 0 <;> by_cases hi : i = 0 <;> simp [hb, hi, BookEntry.unassigned] <;> grind
  twin b i := by
    rw [library_book, library_role]
    by_cases hb : b = 0 <;> by_cases hi : i = 2 <;> simp [hb, hi, BookEntry.unassigned] <;> grind
  target b i := by
    rw [library_role]
    exact ⟨fun ⟨r, hr, _⟩ => absurd hr (library_rescue r), fun h => by grind⟩
  source r hr := absurd hr (library_rescue r)
  assigned b := by rw [library_book]; by_cases hb : b = 0 <;> simp [hb, BookEntry.unassigned]
  unassigned b := by rw [library_book]; by_cases hb : b = 0 <;> simp [hb, BookEntry.unassigned]
  sides b p t := by rw [library_book]; by_cases hb : b = 0 <;> simp [hb, BookEntry.unassigned, slotOf]; grind
  apart r _ hr := absurd hr (library_rescue r)

theorem library_frame (b : Book) (f : Nat) : library.env.frame b f = if b = 0 ∧ f = 0 then .head 1 2 else .blank := by
  have h : frameKey b f = 0 ↔ b = 0 ∧ f = 0 := by
    unfold frameKey Config.framesPerBook
    rw [Fin.ext_iff]
    simp
  show dirGet [(0, Frame.head 1 2)] (frameKey b f) = _
  simp only [dirGet, h]

theorem library_files (t : Tag) : library.lib.fileOf t = none := by
  have h : library.lib.entry t = none := by revert t; decide +kernel
  simp [Library.fileOf, h]

theorem witness_books_sound : library.BooksSound where
  marks b :=
    { twin := by rw [library_book]; split <;> decide
      filing := by rw [library_book]; split <;> decide
      top := by rw [library_book]; split <;> decide
      alone := by rw [library_book]; split <;> decide
      unassigned := by rw [library_book]; split <;> decide
      live := fun _ => by
        have : library.lib.liveFiles b = 0 := by simp [Library.liveFiles, library_files]
        rw [this, library_book]; split <;> decide
      directory := fun f _ => by
        rw [library_frame, library_book]
        by_cases hb : b = 0 <;> simp [hb, BookEntry.unassigned]; omega }
  files :=
    { tags := fun t x h => by
        have : ∀ t, library.lib.entry t = none := by decide +kernel
        rw [this t] at h; cases h
      frames := fun t x g h => by rw [library_files] at h; cases h
      distinct := fun t u x y g k h => by rw [library_files] at h; cases h
      writes := fun d v t b f h => by
        have : ∀ d, (library.lib.drive d).service = none := by decide +kernel
        rw [this d] at h; cases h
      single := fun d d' v v' t b f b' f' h => by
        have : ∀ d, (library.lib.drive d).service = none := by decide +kernel
        rw [this d] at h; cases h
      ended := by decide +kernel }
  starting h := absurd h (by decide)

theorem witness_orders_held :
    ({ library with env := { library.env with hold := true } }).ordersHeld := by
  intro _ k
  revert k
  decide +kernel

theorem witness_closed_book :
    ({ shelf with books := put shelf.books 0 { shelf.book 0 with state := .closed } }.book 0).state = .closed
      ∧ ∃ t, exec .responseSent { library with
          lib := { shelf with books := put shelf.books 0 { shelf.book 0 with state := .closed } } } = .next t :=
  ⟨rfl, _, rfl⟩

theorem witness_first_fault :
    State.reset.lib.log.first = some ⟨.recordMemoryBlank, none, none, none, none, none, none, 1⟩
      ∧ ∃ t, exec .holdEnd State.reset = .next t :=
  ⟨rfl, _, rfl⟩

end Sys2Proof.Tests
end

section
/-! The family of requests and responses on the front link (chapter 2): a record whose tag is LIVE. -/

namespace Sys2Proof.Machine

theorem exec_fetchRequest (r : RequestRecord) (s : State) :
    exec (.fetchRequest r) s = s.event fun s => s.takeRecord r (s.lib.fetchCheck r) fun s => s.acceptFetch r := rfl

theorem exec_fileRequest (r : RequestRecord) (s : State) :
    exec (.fileRequest r) s = s.event fun s => s.takeRecord r (s.lib.fileArrival s.env r) fun s => s.acceptFile r := rfl

/-- R31: neither HOLD nor the arrival checks are looked at for a record whose tag is LIVE. -/
theorem State.takeRecord_live {s : State} {r : RequestRecord} {x : Entry} (h : s.lib.entry r.tag = some x)
    (check : Option Outcome) (proceed : State → State) :
    s.takeRecord r check proceed = { s with lib := (s.lib.emit (.accept r.tag)).answerDuplicate x } := by
  have hx : (s.lib.emit (.accept r.tag)).entry r.tag = some x := h
  unfold State.takeRecord
  dsimp only
  rw [hx]

/-- R25, R31: at the beginning of an event the links are quiet, so the accept and the answer are all that they carry. -/
theorem State.begin_answerDuplicate (s : State) (t : Tag) (x : Entry) :
    (s.begin.lib.emit (.accept t)).answerDuplicate x
      = { s.lib with out := [.accept t, .response (x.response .inProgress)] } := rfl

/-- R31: the event of a record whose tag is LIVE, whatever its checks and its acceptance would do. -/
theorem State.event_takeRecord_live {s : State} {r : RequestRecord} {x : Entry} (hs : s.env.startUp = none)
    (h : s.lib.entry r.tag = some x) (check : State → Option Outcome) (proceed : State → State) :
    (s.event fun s => s.takeRecord r (check s) proceed)
      = .next { s with lib := { s.lib with out := [.accept r.tag, .response (x.response .inProgress)] } } := by
  have hb : s.begin.lib.entry r.tag = some x := by rw [State.begin_entry, h]
  rw [State.event_next _ hs, State.takeRecord_live hb, State.begin_answerDuplicate]
  rfl

/-- Settles O4: both commands that carry a record take it by `State.takeRecord`, which answers a LIVE tag before any check. -/
theorem duplicateTagAnsweredInProgress : Obligations.DuplicateTagAnsweredInProgress := by
  unfold Obligations.DuplicateTagAnsweredInProgress
  rintro s r x hs h c (rfl | rfl)
  · rw [exec_fetchRequest]
    exact State.event_takeRecord_live hs h _ _
  · rw [exec_fileRequest]
    exact State.event_takeRecord_live hs h (fun s => s.lib.fileArrival s.env r) _

end Sys2Proof.Machine
end

section
/-! The family of copy fees (chapter 8): the charge of a page, the page that is not charged, and the write to an order block, with what every service write that
ends without reactions leaves. -/

namespace Sys2Proof.Machine

/-! ## The charge of a page -/

theorem FeeLine.base_full {p : FeeLine} {n : Nat} (h : p.threshold = 0 ∨ n < p.threshold) : p.base n = p.fee := if_pos h

theorem FeeLine.base_reduced {p : FeeLine} {n : Nat} (h0 : p.threshold ≠ 0) (hn : p.threshold ≤ n) :
    p.base n = (p.fee * p.rate + 50) / 100 := if_neg (by omega)

theorem FeeLine.charge_uncapped {p : FeeLine} (h : p.cap = 0) (o : Order) : p.charge o = p.base (o.pages + 1) := if_pos h

theorem FeeLine.charge_capped {p : FeeLine} (h : p.cap ≠ 0) (o : Order) :
    p.charge o = min (p.base (o.pages + 1)) (p.cap - o.amount) := if_neg h

/-- R142: what the cap leaves bounds the charge, so the amount does not pass the cap. -/
theorem FeeLine.amount_add_charge_le {p : FeeLine} {o : Order} (h : p.cap ≠ 0) (ho : o.amount ≤ p.cap) :
    o.amount + p.charge o ≤ p.cap := by
  have hc : p.charge o ≤ p.cap - o.amount := FeeLine.charge_capped h o ▸ Nat.min_le_right _ _
  omega

/-- Settles O47: the reduced fee adds 50 before its division by 100, which rounds a half cent up; the
other clauses are the cases of the base fee and of the cap. -/
theorem pageChargeFollowsSchedule : Obligations.PageChargeFollowsSchedule := by
  unfold Obligations.PageChargeFollowsSchedule
  intro p o
  refine ⟨FeeLine.base_full, fun h0 hn => ?_, fun h => FeeLine.charge_uncapped h o,
    fun h ho => ⟨FeeLine.charge_capped h o, FeeLine.amount_add_charge_le h ho⟩⟩
  rw [FeeLine.base_reduced h0 hn]
  omega

/-! ## A page that is not charged -/

/-- A table is unchanged by writing back what stands there. -/
theorem put_look_self {α : Type} {n : Nat} (t : Vector α n) (i : Fin n) : put t i (look t i) = t := by
  simp [put, look]

theorem Library.setEntry_self {l : Library} {t : Tag} {y : Option Entry} (h : l.entry t = y) : l.setEntry t y = l := by
  subst h
  simp only [Library.setEntry, Library.entry, put_look_self]

theorem Order.serves_iff {o : Order} {x : Offer} : o.serves x = true ↔ o.book = x.book ∧ o.head = x.head := by
  simp [Order.serves]

/-- R144: an open order for the offer's instrument is settled as it stands. -/
theorem Fee.settleOrder_serves {f : Fee} {x : Offer} {o : Order} (ho : look f.orders x.station = some o) (hs : o.serves x = true)
    (now : Nat) : f.settleOrder now x = f := by
  have h : f.hasOrder x = true := by simp [Fee.hasOrder, ho, hs]
  exact if_pos h

/-- R145: a frame in the station's recent-page list is not charged. -/
theorem Fee.chargePage_recent {f : Fee} {x : Offer} (h : x.frame ∈ look f.recent x.station) (now : Nat) :
    f.chargePage now x = (f, ⟨false, 0⟩) := by
  unfold Fee.chargePage
  cases look f.orders x.station with
  | none => rfl
  | some o => exact if_pos h

/-- R144, R145: outside HOLD the offer of a recent page leaves the accounts as they are. -/
theorem Fee.take_recent {f : Fee} {x : Offer} {o : Order} (ho : look f.orders x.station = some o) (hs : o.serves x = true)
    (hx : x.frame ∈ look f.recent x.station) (now : Nat) : f.take now false x = (f, ⟨false, 0⟩) := by
  unfold Fee.take
  rw [Fee.settleOrder_serves ho hs, Fee.chargePage_recent hx]
  rfl

theorem Entry.charge_uncharged (y : Entry) (n : Nat) : y.charge ⟨false, n⟩ = y := rfl

/-- R148: an offer that is not charged and leaves the accounts as they are touches neither its request nor the log. -/
theorem takeOffer_uncharged {e : Env} {f : Fee} {x : Offer} {n : Nat} (h : f.take e.now e.hold x = (f, ⟨false, n⟩)) (l : Library) :
    takeOffer e f l x = (f, l) := by
  unfold takeOffer
  rw [h]
  cases hl : l.entry x.tag with
  | none => simp
  | some y => simp [Entry.charge_uncharged, Library.setEntry_self hl]

/-- Settles O48: the order is found and the frame is recent, so the offer charges nothing. -/
theorem recentPageIsFree : Obligations.RecentPageIsFree := by
  unfold Obligations.RecentPageIsFree
  intro e f l x o hh ho hb hd hx
  have ht : f.take e.now false x = (f, ⟨false, 0⟩) := Fee.take_recent ho (Order.serves_iff.mpr ⟨hb, hd⟩) hx e.now
  exact ⟨takeOffer_uncharged (by rw [hh, ht]) l, by rw [ht]⟩

/-! ## A service write that ends without reactions -/

section Awaited

variable {s t : State} {tag : Tag} {x : Entry} {k : Block} {w : ServiceWrite} {key : KeyPosition} {o : Outcome}

/-- R28: the link is free for the awaited sector. -/
theorem AwaitsWrite.linkOpen (h : AwaitsWrite s tag x k) : s.lib.linkOpen tag = true := by
  unfold Library.linkOpen
  rcases h.link with hl | hl <;> simp [hl]

/-- R186: the awaited sector is taken, as what its block reads in it. -/
theorem AwaitsWrite.arrival (h : AwaitsWrite s tag x k) {read : Block → Option ServiceWrite} (hr : read k = some w) :
    s.serviceArrival tag key read = s.begin.endWrite tag w key := by
  have hs : s.begin.starting = false := by simp [State.starting, h.started]
  have hl : s.begin.lib.linkOpen tag = true := h.linkOpen
  have hx : x.awaitsWrite = true := by simp [Entry.awaitsWrite, h.job]
  have hv : x.live = true := by simp [Entry.live, h.live]
  have hk : x.block = k := h.block
  unfold State.serviceArrival
  simp [hs, hl, h.entry, hx, hk, hr, hv]

/-- R186, R44: a write that is refused, or whose kind calls for no reactions, ends its request and its event. -/
theorem State.endWrite_quiet (hc : s.checkWrite w key = (o, t)) (hq : o = .done → w.reacts = false) :
    s.endWrite tag w key = State.finish { t with lib := t.lib.endRequest tag o (if o = .done then 1 else 0) 0 } := by
  unfold State.endWrite
  rw [hc]
  by_cases ho : o = .done
  · simp [ho, hq ho]
  · simp [ho]

/-- An entry that awaits its service write has no windows to release. -/
theorem AwaitsWrite.windows (h : AwaitsWrite s tag x k) : x.windows = [] := by
  simp [Entry.windows, h.job]

/-- R186: everything that the arrival of an awaited sector does when its event ends without reactions; `t` is what the owner's check and effect leave, which
touch no request. -/
theorem AwaitsWrite.ends (h : AwaitsWrite s tag x k) {read : Block → Option ServiceWrite} (hr : read k = some w)
    (hc : s.begin.checkWrite w key = (o, t)) (hq : o = .done → w.reacts = false) (hp : t.pending = s.pending)
    (hf : t.lib.front = s.lib.front) (ho : t.lib.out = []) :
    ∃ u, s.serviceArrival tag key read = u ∧ WriteEnds s u tag x o (if o = .done then 1 else 0) ∧ u.env = t.env ∧ u.fee = t.fee
      ∧ SameBlocks t.lib u.lib := by
  have he : ∀ v, t.lib.entry v = s.lib.entry v := fun v => by rw [Library.entry, hf]; rfl
  have hend := endRequest_ends ((he tag).trans h.entry) o (if o = .done then 1 else 0) 0
  have hfin := finish_finished (t.lib.endRequest tag o (if o = .done then 1 else 0) 0)
  refine ⟨_, rfl, ?_⟩
  rw [h.arrival hr, State.endWrite_quiet hc hq]
  exact
    ⟨{ pending := hp
       request := hend.finished hfin
       others := fun v hv => by rw [State.finish, hfin.entry, hend.others v hv, he v]
       link := by rw [State.finish, hfin.link, hend.link, hf]
       out := by rw [State.finish, hfin.out, hend.out, ho] },
      rfl, rfl, (hend.sameBlocks h.windows).trans hfin.sameBlocks⟩

end Awaited

theorem State.begin_sameBlocks (s : State) : SameBlocks s.lib s.begin.lib := ⟨rfl, rfl, rfl, rfl, rfl, rfl, rfl, rfl, rfl⟩

/-- R151, R186: the write to an order block needs no key and is never refused. -/
theorem State.checkWrite_orderClose (s : State) (k : Station) (key : KeyPosition) :
    s.checkWrite (.orderClose k) key = (.done, { s with fee := s.fee.closeOrder k }) := by
  simp [State.checkWrite, ServiceWrite.refusal, ServiceWrite.keyed, State.applyWrite]

/-- R151: what the row of a write to an order block says to each block. -/
def orderCloseRow : Block → Option ServiceWrite
  | .order k => some (.orderClose k)
  | _ => none

theorem exec_orderClose (tag : Tag) (s : State) :
    exec (.orderClose tag) s = .next (s.serviceArrival tag .locked orderCloseRow) := rfl

/-- Settles O36: the write is applied by `Fee.closeOrder` and ends its event without reactions. -/
theorem orderBlockWriteClosesOrder : Obligations.OrderBlockWriteClosesOrder := by
  unfold Obligations.OrderBlockWriteClosesOrder
  intro s tag x k h
  obtain ⟨u, hu, hends, henv, hfee, hlib⟩ :=
    h.ends (read := orderCloseRow) rfl (s.begin.checkWrite_orderClose k .locked) (fun _ => rfl) rfl rfl rfl
  exact ⟨u, by rw [exec_orderClose, hu], hends, henv, s.begin_sameBlocks.trans hlib, hfee⟩

end Sys2Proof.Machine
end

section
-- One declaration after the other: the stacks of the threads that wait for each other count against the check's memory limit.
set_option Elab.async false
/-! What one command does to the environment and to the Fee Unit's accounts: the frame that the invariants of the accounts, of the
settings and of the directories share. -/

namespace Sys2Proof.Machine

/-! ## The events, taken apart -/

theorem State.event_eq {s t : State} {f : State → State} (h : s.event f = .next t) :
    t = s.begin ∨ s.env.startUp = none ∧ t = f s.begin := by
  unfold State.event at h
  cases hs : s.env.startUp <;> simp [State.starting, hs] at h <;> simp [h]

theorem Library.activeService_eq_some {l : Library} {d : Drive} {v : InService} :
    l.activeService d = some v ↔ (l.drive d).state = .active ∧ (l.drive d).service = some v := by
  unfold Library.activeService
  split <;> simp [*]

/-- R112: an event at the command in progress finds one, or is none. -/
theorem State.atCommand_eq {s t : State} {d : Drive} {f : State → InService → State} (h : s.atCommand d f = .next t) :
    t = s.begin ∨ ∃ v, Running s d v ∧ t = f s.begin v := by
  rcases State.event_eq h with h | ⟨hs, h⟩
  · exact .inl h
  · cases hv : s.begin.lib.activeService d with
    | none => rw [hv] at h; exact .inl h
    | some v =>
      rw [hv] at h
      obtain ⟨ha, hv⟩ := Library.activeService_eq_some.mp hv
      exact .inr ⟨v, ⟨hs, ha, hv⟩, h⟩

/-- R109: an outcome is discarded, or late, or that of the command in progress. -/
theorem State.outcome_eq {s t : State} {d : Drive} {f : State → InService → State} (h : s.outcome d f = .next t) :
    t = s.begin ∨ t = { s.begin with lib := s.begin.lib.dropLate d } ∨ ∃ v, Answered s d v ∧ t = f s.begin v := by
  rcases State.event_eq h with h | ⟨hs, h⟩
  · exact .inl h
  · by_cases hl : s.begin.lib.lateOutcome s.begin.env d = true
    · rw [if_pos hl] at h; exact .inr (.inl h)
    · rw [if_neg hl] at h
      cases hv : s.begin.lib.activeService d with
      | none => rw [hv] at h; exact .inl h
      | some v =>
        rw [hv] at h
        obtain ⟨ha, hv⟩ := Library.activeService_eq_some.mp hv
        refine .inr (.inr ⟨v, ⟨⟨hs, ha, hv⟩, fun hx => hl ?_⟩, h⟩)
        simp only [Library.lateOutcome, State.begin_env, State.begin_drive, hx, beq_self_eq_true]

/-! ## Commands that change the time alone -/

/-- The environment but for the time, and the accounts, are as they were. -/
structure State.OnlyTime (s t : State) : Prop where
  env : t.env = { s.env with now := t.env.now }
  fee : t.fee = s.fee

theorem State.OnlyTime.of_eq {s t : State} (he : t.env = s.env) (hf : t.fee = s.fee) : s.OnlyTime t := ⟨by rw [he], hf⟩

theorem State.OnlyTime.begin (s : State) : s.OnlyTime s.begin := .of_eq rfl rfl

theorem State.OnlyTime.refl (s : State) : s.OnlyTime s := .of_eq rfl rfl

theorem State.OnlyTime.event {s t : State} {f : State → State} (h : s.event f = .next t) (hf : ∀ u : State, u.OnlyTime (f u)) : s.OnlyTime t := by
  rcases State.event_eq h with rfl | ⟨-, rfl⟩
  · exact .begin s
  · exact ⟨(hf s.begin).env, (hf s.begin).fee⟩

theorem State.OnlyTime.outcome {s t : State} {d : Drive} {f : State → InService → State} (h : s.outcome d f = .next t)
    (hf : ∀ (u : State) v, u.OnlyTime (f u v)) : s.OnlyTime t := by
  rcases State.outcome_eq h with rfl | rfl | ⟨v, -, rfl⟩
  · exact .begin s
  · exact .of_eq rfl rfl
  · exact ⟨(hf s.begin v).env, (hf s.begin v).fee⟩

/-- R25: taking a record changes neither, if its acceptance does not. -/
theorem State.takeRecord_onlyTime (s : State) (r : RequestRecord) (check : Option Outcome) {proceed : State → State}
    (hp : ∀ u : State, u.OnlyTime (proceed u)) : s.OnlyTime (s.takeRecord r check proceed) := by
  unfold State.takeRecord
  dsimp only
  split
  · exact .of_eq rfl rfl
  · split
    · exact .of_eq rfl rfl
    · split
      · exact .of_eq rfl rfl
      · obtain ⟨he, hf⟩ := hp { s with lib := s.lib.emit (.accept r.tag) }
        exact ⟨he, hf⟩

theorem State.acceptFetch_onlyTime (s : State) (r : RequestRecord) : s.OnlyTime (s.acceptFetch r) := by
  unfold State.acceptFetch
  split <;> exact .of_eq rfl rfl

theorem State.acceptFile_onlyTime (s : State) (r : RequestRecord) : s.OnlyTime (s.acceptFile r) := by
  unfold State.acceptFile
  split <;> exact .of_eq rfl rfl

/-- The commands that change neither the directories nor the settings, and make no offer and close no order: requests, pulls, responses, outcomes that file
and lose no frame, the reports of drives and picker outside start-up, and the times of drives, picker and scheduler. -/
def quietCommand : Instr → Bool
  | .fetchRequest _ => true
  | .fileRequest _ => true
  | .pull => true
  | .responseSent => true
  | .fetchReadOutcome _ _ => true
  | .twinWriteVerified _ => true
  | .twinWriteFail _ => true
  | .rereadOutcome _ _ => true
  | .rescueWriteVerified _ => true
  | .rescueWriteFail _ => true
  | .patrolVerifyOutcome _ _ => true
  | .readyReport _ => true
  | .stoppedReport _ => true
  | .idleSpinDown _ => true
  | .moveCompletion => true
  | .moveLimitExpiry _ _ => true
  | .pickerFaultReport _ _ => true
  | .presenceChange _ _ => true
  | .dwellExpiry _ => true
  | .demandAgeLimit _ _ => true
  | .patrolIdleTime => true
  | _ => false

/-- The environment but for the time, and the accounts, stay at a quiet command. -/
theorem exec_quietCommand {c : Instr} {s t : State} (hc : quietCommand c = true) (h : exec c s = .next t) : s.OnlyTime t := by
  cases c <;> cases hc
  case fetchRequest.refl r =>
    exact State.OnlyTime.event (show execFetchRequest r s = _ from h) fun u => u.takeRecord_onlyTime r _ fun u => u.acceptFetch_onlyTime r
  case fileRequest.refl r =>
    exact State.OnlyTime.event (show execFileRequest r s = _ from h) fun u => u.takeRecord_onlyTime r _ fun u => u.acceptFile_onlyTime r
  case pull.refl => exact State.OnlyTime.event (show execPull s = _ from h) fun u => by (repeat' split) <;> exact .of_eq rfl rfl
  case presenceChange.refl k b =>
    cases (show execPresenceChange k b s = _ from h)
    (repeat' split) <;> exact .of_eq rfl rfl
  case responseSent.refl  => exact State.OnlyTime.event (show execResponseSent  s = _ from h) fun u => by (repeat' split) <;> exact ⟨rfl, rfl⟩
  case twinWriteVerified.refl d => exact State.OnlyTime.outcome (show execTwinWriteVerified d s = _ from h) fun u v => by (repeat' split) <;> exact ⟨rfl, rfl⟩
  case twinWriteFail.refl d => exact State.OnlyTime.outcome (show execTwinWriteFail d s = _ from h) fun u v => by (repeat' split) <;> exact ⟨rfl, rfl⟩
  case fetchReadOutcome.refl d rs => exact State.OnlyTime.outcome (show execFetchReadOutcome d rs s = _ from h) fun u v => by (repeat' split) <;> exact ⟨rfl, rfl⟩
  case rereadOutcome.refl d rs => exact State.OnlyTime.outcome (show execRereadOutcome d rs s = _ from h) fun u v => by (repeat' split) <;> exact ⟨rfl, rfl⟩
  case rescueWriteVerified.refl d => exact State.OnlyTime.outcome (show execRescueWriteVerified d s = _ from h) fun u v => by (repeat' split) <;> exact ⟨rfl, rfl⟩
  case rescueWriteFail.refl d => exact State.OnlyTime.outcome (show execRescueWriteFail d s = _ from h) fun u v => by (repeat' split) <;> exact ⟨rfl, rfl⟩
  case patrolVerifyOutcome.refl d rs => exact State.OnlyTime.outcome (show execPatrolVerifyOutcome d rs s = _ from h) fun u v => by (repeat' split) <;> exact ⟨rfl, rfl⟩
  case readyReport.refl d => exact State.OnlyTime.event (show execReadyReport d s = _ from h) fun u => by (repeat' split) <;> exact ⟨rfl, rfl⟩
  case stoppedReport.refl d => exact State.OnlyTime.event (show execStoppedReport d s = _ from h) fun u => by (repeat' split) <;> exact ⟨rfl, rfl⟩
  case idleSpinDown.refl d => exact State.OnlyTime.event (show execIdleSpinDown d s = _ from h) fun u => by (repeat' split) <;> exact ⟨rfl, rfl⟩
  case moveCompletion.refl  => exact State.OnlyTime.event (show execMoveCompletion  s = _ from h) fun u => by (repeat' split) <;> exact ⟨rfl, rfl⟩
  case moveLimitExpiry.refl g c => exact State.OnlyTime.event (show execMoveLimitExpiry g c s = _ from h) fun u => by (repeat' split) <;> exact ⟨rfl, rfl⟩
  case pickerFaultReport.refl g c => exact State.OnlyTime.event (show execPickerFaultReport g c s = _ from h) fun u => by (repeat' split) <;> exact ⟨rfl, rfl⟩
  case dwellExpiry.refl d => exact State.OnlyTime.event (show execDwellExpiry d s = _ from h) fun u => by (repeat' split) <;> exact ⟨rfl, rfl⟩
  case demandAgeLimit.refl i n => exact State.OnlyTime.event (show execDemandAgeLimit i n s = _ from h) fun u => by (repeat' split) <;> exact ⟨rfl, rfl⟩
  case patrolIdleTime.refl  => exact State.OnlyTime.event (show execPatrolIdleTime  s = _ from h) fun u => by (repeat' split) <;> exact ⟨rfl, rfl⟩
end Sys2Proof.Machine
end

section
-- One declaration after the other: the stacks of the threads that wait for each other count against the check's memory limit.
set_option Elab.async false
namespace Sys2Proof.Machine

/-! ## Commands that file, spend or lose a frame -/

/-- R86, R112: the owner of a failed command changes the directory only for a primary write of a live FILE, whose frame becomes VOID. -/
theorem State.commandReturned_accounts (s : State) (d : Drive) (v : InService) :
    (s.commandReturned d v).fee = s.fee ∧ ((s.commandReturned d v).env = s.env
      ∨ ∃ tag b f, v.command = .primaryWrite tag b f ∧ s.lib.fileOf tag ≠ none
        ∧ (s.commandReturned d v).env = s.env.setFrame b f .void) := by
  unfold State.commandReturned
  split
  case h_2 t b f hc =>
    split
    next x g hg => exact ⟨rfl, .inr ⟨t, b, f, hc, by rw [hg]; simp, rfl⟩⟩
    next => exact ⟨rfl, .inl rfl⟩
  case h_1 => split <;> exact ⟨rfl, .inl rfl⟩
  case h_5 => split <;> exact ⟨rfl, .inl rfl⟩
  case h_6 => split <;> exact ⟨rfl, .inl rfl⟩
  all_goals exact ⟨rfl, .inl rfl⟩

theorem Library.drive_setDrive (l : Library) (d d' : Drive) (r : DriveRecord) :
    (l.setDrive d r).drive d' = if d = d' then r else l.drive d' := look_put ..

/-- R112: a failure at a drive changes the directory only where a primary write of a live FILE is in progress. -/
theorem State.driveFailure_accounts (s : State) (d : Drive) :
    (s.driveFailure d).fee = s.fee ∧ ((s.driveFailure d).env = s.env
      ∨ ∃ v tag b f, (s.lib.drive d).state = .active ∧ (s.lib.drive d).service = some v ∧ v.command = .primaryWrite tag b f
        ∧ s.lib.fileOf tag ≠ none ∧ (s.driveFailure d).env = s.env.setFrame b f .void) := by
  unfold State.driveFailure State.failCommand
  simp only [State.react_fee, State.react_env]
  split
  next v hv =>
    obtain ⟨ha, hv⟩ := Library.activeService_eq_some.mp hv
    rw [Library.drive_setDrive, if_pos rfl] at ha hv
    obtain ⟨hf, he⟩ := State.commandReturned_accounts _ d v
    refine ⟨hf, he.imp id ?_⟩
    rintro ⟨tag, b, f, hc, hg, he⟩
    refine ⟨v, tag, b, f, ha, hv, hc, fun h => hg ?_, he⟩
    split <;> exact h
  next => exact ⟨rfl, .inl rfl⟩


theorem Env.filedEntry_filed (e : Env) (g : Filing) : (e.filedEntry g).filed = true := by
  unfold Env.filedEntry
  (repeat' split) <;> rfl

/-- At a drive whose command is `v`, for which `R` holds, a primary write of a live FILE was in progress, and its frame's entry has become `x`. -/
def State.Writes (s t : State) (R : InService → Prop) (x : Frame → Prop) : Prop :=
  ∃ v tag b f y, R v ∧ v.command = .primaryWrite tag b f ∧ s.lib.fileOf tag ≠ none ∧ x y
    ∧ t.env = { s.env with now := t.env.now, directory := dirPut s.env.directory (frameKey b f) y } ∧ t.fee = s.fee

theorem exec_primaryWriteOk_accounts {s t : State} {d : Drive} (h : exec (.primaryWriteOk d) s = .next t) :
    s.OnlyTime t ∨ s.Writes t (Answered s d) fun y => y.filed = true := by
  rcases State.outcome_eq (show execPrimaryWriteOk d s = _ from h) with rfl | rfl | ⟨v, hv, rfl⟩
  · exact .inl (.begin s)
  · exact .inl (.of_eq rfl rfl)
  · split
    next tag b f hc =>
      split
      next x g hg =>
        exact .inr ⟨v, tag, b, f, s.env.filedEntry g, hv, hc, (by rw [show s.lib.fileOf tag = _ from hg]; simp),
          Env.filedEntry_filed _ g, rfl, rfl⟩
      next => exact .inl (.of_eq rfl rfl)
    next => exact .inl (.begin s)

theorem exec_primaryWriteFail_accounts {s t : State} {d : Drive} (h : exec (.primaryWriteFail d) s = .next t) :
    s.OnlyTime t ∨ s.Writes t (Answered s d) fun y => y = .void := by
  rcases State.outcome_eq (show execPrimaryWriteFail d s = _ from h) with rfl | rfl | ⟨v, hv, rfl⟩
  · exact .inl (.begin s)
  · exact .inl (.of_eq rfl rfl)
  · split
    next tag b f hc =>
      split
      next x g hg =>
        exact .inr ⟨v, tag, b, f, .void, hv, hc, (by rw [show s.lib.fileOf tag = _ from hg]; simp), rfl, rfl, rfl⟩
      next => exact .inl (.of_eq rfl rfl)
    next => exact .inl (.begin s)

/-- R112: a failure at a drive, taken at any time, as a statement about the state that its event found. -/
theorem State.driveFailure_writes {s u : State} {d : Drive} (hs : s.env.startUp = none) (hu : s.OnlyTime u)
    (hf : u.lib.front = s.lib.front) (hd : (u.lib.drive d).state = (s.lib.drive d).state)
    (hv : (u.lib.drive d).service = (s.lib.drive d).service) :
    s.OnlyTime (u.driveFailure d) ∨ s.Writes (u.driveFailure d) (Running s d) fun y => y = .void := by
  obtain ⟨hfee, he⟩ := u.driveFailure_accounts d
  rcases he with he | ⟨v, tag, b, f, ha, hw, hc, hg, he⟩
  · exact .inl ⟨by rw [he, hu.env], hfee.trans hu.fee⟩
  · refine .inr ⟨v, tag, b, f, .void, ⟨hs, hd ▸ ha, hv ▸ hw⟩, hc, fun h => hg ?_, rfl, ?_, hfee.trans hu.fee⟩
    · simpa only [Library.fileOf, Library.entry, hf] using h
    · rw [he, hu.env]; rfl

theorem exec_commandLimitExpiry_accounts {s t : State} {d : Drive} (h : exec (.commandLimitExpiry d) s = .next t) :
    s.OnlyTime t ∨ s.Writes t (Running s d) fun y => y = .void := by
  rcases State.atCommand_eq (show execCommandLimitExpiry d s = _ from h) with rfl | ⟨v, hv, rfl⟩
  · exact .inl (.begin s)
  · refine State.driveFailure_writes hv.started ⟨rfl, rfl⟩ rfl ?_ ?_ <;> simp [State.noteExpiry]

theorem exec_hardwareFaultReport_accounts {s t : State} {d : Drive} (h : exec (.hardwareFaultReport d) s = .next t) :
    s.OnlyTime t ∨ s.Writes t (Running s d) fun y => y = .void := by
  rcases State.event_eq (show execHardwareFaultReport d s = _ from h) with rfl | ⟨hs, rfl⟩
  · exact .inl (.begin s)
  · split
    · exact State.driveFailure_writes hs (.begin s) rfl rfl rfl
    · exact .inl (.begin s)

/-- A drive that spins up or down runs no sector command, so its failure spends no frame. -/
theorem State.driveFailure_spin {s : State} {d : Drive} (hs : s.env.startUp = none) (n : Nat) (hd : (s.lib.drive d).state ≠ .active) :
    s.OnlyTime ((s.begin.reach n).driveFailure d) := by
  rcases State.driveFailure_writes (u := s.begin.reach n) hs ⟨rfl, rfl⟩ rfl rfl rfl with h | ⟨v, _, _, _, _, hv, _⟩
  · exact h
  · exact absurd hv.state hd

theorem exec_spinUpLimitExpiry_onlyTime {s t : State} {d : Drive} (h : exec (.spinUpLimitExpiry d) s = .next t) : s.OnlyTime t := by
  rcases State.event_eq (show execSpinUpLimitExpiry d s = _ from h) with rfl | ⟨hs, rfl⟩
  · exact .begin s
  · split
    next ha => exact State.driveFailure_spin hs _ (by rw [State.begin_drive] at ha; simp [ha])
    next => exact .begin s

theorem exec_spinDownLimitExpiry_onlyTime {s t : State} {d : Drive} (h : exec (.spinDownLimitExpiry d) s = .next t) : s.OnlyTime t := by
  rcases State.event_eq (show execSpinDownLimitExpiry d s = _ from h) with rfl | ⟨hs, rfl⟩
  · exact .begin s
  · split
    next ha => exact State.driveFailure_spin hs _ (by rw [State.begin_drive] at ha; simp [ha])
    next => exact .begin s

/-- R172: a rescue read outcome loses its frame, or changes neither environment nor accounts. -/
theorem exec_rescueReadOutcome_accounts {s t : State} {d : Drive} {rs : List ReadResult} (h : exec (.rescueReadOutcome d rs) s = .next t) :
    s.OnlyTime t ∨ ∃ v b f ss r, Answered s d v ∧ v.command = .rescueRead b f ss true ∧ rs.length = ss.length
      ∧ s.lib.care.rescue = some r ∧ t.env = s.env.lose r.book f ∧ t.fee = s.fee := by
  rcases State.outcome_eq (show execRescueReadOutcome d rs s = _ from h) with rfl | rfl | ⟨v, hv, rfl⟩
  · exact .inl (.begin s)
  · exact .inl (.of_eq rfl rfl)
  · split
    next b f ss live hc =>
      split
      next hn =>
        cases live with
        | false => exact .inl (.of_eq rfl rfl)
        | true =>
          simp only [if_true, State.rescueOutcome]
          split
          next r xs hr hxs =>
            split
            next x hx =>
              split
              · refine .inr ⟨v, b, f, ss, r, hv, hc, hn, ?_, rfl, rfl⟩
                have hk := (finishCommand_ends s.begin.env s.begin.lib d false).1.trans
                  (countRead_counts s.begin.env _ d v.side b f none rs).1
                exact hk.rescue.symm.trans hr
              · exact .inl (.of_eq rfl rfl)
            next => exact .inl (.of_eq rfl rfl)
          next => exact .inl (.of_eq rfl rfl)
      next => exact .inl (.begin s)
    next => exact .inl (.begin s)

end Sys2Proof.Machine
end

section
-- One declaration after the other: the stacks of the threads that wait for each other count against the check's memory limit.
set_option Elab.async false
namespace Sys2Proof.Machine

/-! ## Offers, orders and the power warning -/

/-- The accounts are as they were, or as one offer leaves them. -/
def Fee.Offered (f g : Fee) (now : Nat) (hold : Bool) : Prop := g = f ∨ ∃ o, g = (f.take now hold o).1

theorem State.offer_accounts (s : State) (o : Option Offer) :
    (s.offer o).env = s.env ∧ s.fee.Offered (s.offer o).fee s.env.now s.env.hold := by
  cases o with
  | none => exact ⟨rfl, .inl rfl⟩
  | some o => exact ⟨rfl, .inr ⟨o, rfl⟩⟩

/-- R77: a burst of a FETCH makes at most one offer. -/
theorem State.deliver_accounts (s : State) (t : Tag) (x : Entry) (w : Window) (xs : List SectorState) :
    (s.deliver t x w xs).env = s.env ∧ s.fee.Offered (s.deliver t x w xs).fee s.env.now s.env.hold := by
  unfold State.deliver
  dsimp only
  split
  · exact ⟨rfl, .inl rfl⟩
  · exact State.offer_accounts _ _

theorem State.deliverPages_accounts (s now : State) (t : Tag) (x : Entry) (n : Nat) :
    (s.deliverPages now t x n).env = s.env ∧ (s.deliverPages now t x n).fee = s.fee := by
  unfold State.deliverPages
  dsimp only
  split <;> exact ⟨rfl, rfl⟩

/-- R77: a burst leaves the accounts or has an offer taken, and is sent only when start-up is over. -/
theorem exec_burstSent_accounts {s t : State} {n : Nat} (h : exec (.burstSent n) s = .next t) :
    s.OnlyTime t ∨ s.env.startUp = none ∧ t.env = s.env ∧ ∃ o, t.fee = (s.fee.take s.env.now s.env.hold o).1 := by
  rcases State.event_eq (show execBurstSent n s = _ from h) with rfl | ⟨hs, rfl⟩
  · exact .inl (.begin s)
  · split
    next tag _ =>
      split
      next x _ =>
        split
        · split
          next g _ =>
            split
            next w ws _ =>
              obtain ⟨he, hf⟩ := State.deliver_accounts s.begin tag x w (w.burst (sectorOf (x.record.addr.val + x.moved)) n)
              exact hf.imp (fun hf => .of_eq he hf) fun hf => ⟨hs, he, hf⟩
            next => exact .inl (.begin s)
          next =>
            obtain ⟨he, hf⟩ := State.deliverPages_accounts s.begin s.begin tag x (min n Config.sectorsPerFrame)
            exact .inl (.of_eq he hf)
          next => exact .inl (.begin s)
        · exact .inl (.begin s)
      next => exact .inl (.begin s)
    next => exact .inl (.begin s)

theorem exec_orderTimerExpiry_accounts {s t : State} {k : Station} (h : exec (.orderTimerExpiry k) s = .next t) :
    t.env = { s.env with now := t.env.now } ∧ (t.fee = s.fee ∨ t.fee = s.fee.closeOrder k) := by
  rcases State.event_eq (show execOrderTimerExpiry k s = _ from h) with rfl | ⟨-, rfl⟩
  · exact ⟨rfl, .inl rfl⟩
  · split
    · exact ⟨rfl, .inr rfl⟩
    · exact ⟨rfl, .inl rfl⟩

theorem State.finishTransfer_accounts (s now : State) (t : Tag) (x : Entry) (n : Nat) :
    (s.finishTransfer now t x n).env = s.env ∧ s.fee.Offered (s.finishTransfer now t x n).fee s.env.now s.env.hold := by
  unfold State.finishTransfer
  split
  · split
    next w ws _ => exact State.deliver_accounts s t x w _
    next => exact ⟨rfl, .inl rfl⟩
  · obtain ⟨he, hf⟩ := State.deliverPages_accounts s now t x n
    exact ⟨he, .inl hf⟩
  · exact ⟨rfl, .inl rfl⟩

/-- R181: `Env` in HOLD. -/
def Env.inHold (e : Env) : Env := { e with hold := true, holdMarker := true }

/-- R152: every order has closed, before the offer of the burst in transfer or after it. -/
def Fee.Held (f g : Fee) (now : Nat) (hold : Bool) : Prop :=
  (∃ f', f.Offered f' now hold ∧ g = f'.closeAll) ∨ f.closeAll.Offered g now true

theorem State.assertWarning_accounts (s : State) (i : Option InTransfer) :
    (s.assertWarning i).env = s.env.inHold ∧ s.fee.Held (s.assertWarning i).fee s.env.now s.env.hold := by
  unfold State.assertWarning
  cases i with
  | none => exact ⟨rfl, .inl ⟨s.fee, .inl rfl, rfl⟩⟩
  | some i =>
    simp only [State.react_env, State.react_fee]
    rcases holdOver_cases s i with ⟨-, h⟩ | ⟨t, x, -, ⟨-, h⟩ | ⟨-, h⟩⟩ <;> rw [h]
    · exact ⟨rfl, .inl ⟨s.fee, .inl rfl, rfl⟩⟩
    · obtain ⟨he, hf⟩ := s.finishTransfer_accounts s t x (i.sent + 1)
      exact ⟨by rw [State.beginHold_env, he]; rfl, .inl ⟨_, hf, rfl⟩⟩
    · obtain ⟨he, hf⟩ := s.beginHold.finishTransfer_accounts s t x (i.sent + 1)
      exact ⟨he, .inr hf⟩

theorem exec_powerWarning_accounts {s t : State} {i : Option InTransfer} (h : exec (.powerWarning i) s = .next t) :
    (t.env = { s.env with startUp := t.env.startUp } ∧ (t.env.startUp = none ↔ s.env.startUp = none) ∧ t.fee = s.fee)
      ∨ s.env.startUp = none ∧ t.env = s.env.inHold ∧ s.fee.Held t.fee s.env.now s.env.hold := by
  cases (show execPowerWarning i s = _ from h)
  dsimp only
  split
  next w hw => exact .inl ⟨rfl, by rw [show s.env.startUp = _ from hw]; simp [State.noteWarning], rfl⟩
  next hw =>
    split
    · exact .inl ⟨rfl, .rfl, rfl⟩
    · exact .inr ⟨hw, s.begin.assertWarning_accounts i⟩

theorem exec_holdEnd_accounts {s t : State} (h : exec .holdEnd s = .next t) :
    t.fee = s.fee ∧ ((t.env = { s.env with startUp := t.env.startUp } ∧ (t.env.startUp = none ↔ s.env.startUp = none))
      ∨ s.env.startUp = none ∧ t.env = { s.env with hold := false, holdMarker := false }) := by
  cases (show execHoldEnd s = _ from h)
  dsimp only
  split
  next w hw => exact ⟨rfl, .inl ⟨rfl, by rw [show s.env.startUp = _ from hw]; simp [State.noteWarning]⟩⟩
  next hw =>
    split
    · exact ⟨rfl, .inr ⟨hw, rfl⟩⟩
    · exact ⟨rfl, .inl ⟨rfl, .rfl⟩⟩

/-! ## Service writes -/

/-- R186: what the arrival of a service write's sector can be: no event, a sector to be discarded, or the sector that is awaited. -/
theorem State.serviceArrival_eq (s : State) (tag : Tag) (key : KeyPosition) (read : Block → Option ServiceWrite) :
    s.serviceArrival tag key read = s.begin
      ∨ (∃ x, s.lib.entry tag = some x ∧ x.live = false ∧ 0 < x.discard ∧ s.env.startUp = none ∧ s.lib.linkOpen tag = true
        ∧ s.serviceArrival tag key read = State.finish { s.begin with lib := s.begin.lib.discardSector tag x })
      ∨ ∃ x w, AwaitsWrite s tag x x.block ∧ read x.block = some w ∧ s.serviceArrival tag key read = s.begin.endWrite tag w key := by
  unfold State.serviceArrival
  dsimp only
  split
  next => exact .inl rfl
  next hs =>
    simp only [Bool.or_eq_true, not_or, State.starting, State.begin_env, Bool.not_eq_true, Option.isSome_eq_false_iff, Option.isNone_iff_eq_none,
      Bool.not_eq_false'] at hs
    obtain ⟨hs, hl⟩ := hs
    split
    next x hx =>
      split
      next ha =>
        split
        next w hw =>
          split
          next hv =>
            refine .inr (.inr ⟨x, w, ⟨hs, ?_, hx, ?_, ?_, rfl⟩, hw, rfl⟩)
            · unfold Library.linkOpen at hl
              split at hl
              next u hu => exact .inr (by rw [← beq_iff_eq.mp hl]; exact hu)
              next hu => exact .inl hu
            · simpa [Entry.live] using hv
            · unfold Entry.awaitsWrite at ha
              split at ha
              next p hp => rw [hp, ha]
              next => cases ha
          next hv =>
            split
            next hd => exact .inr (.inl ⟨x, hx, by simpa using hv, hd, hs, hl, rfl⟩)
            next => exact .inl rfl
        next => exact .inl rfl
      next => exact .inl rfl
    next => exact .inl rfl

theorem ServiceWrite.refusal_ne_done (w : ServiceWrite) (key : KeyPosition) : w.refusal key ≠ some .done := by
  unfold ServiceWrite.refusal
  (repeat' split) <;> simp

theorem ServiceWrite.ownerRefusal_ne_done (w : ServiceWrite) : w.ownerRefusal ≠ .done := by
  unfold ServiceWrite.ownerRefusal
  split <;> simp

/-- R186: a write that has been checked is refused and leaves the state, or is applied. -/
theorem State.checkWrite_eq (s : State) (w : ServiceWrite) (key : KeyPosition) :
    (∃ o, o ≠ .done ∧ s.checkWrite w key = (o, s))
      ∨ ∃ u, w.refusal key = none ∧ s.applyWrite w = some u ∧ s.checkWrite w key = (.done, u) := by
  unfold State.checkWrite
  split
  next o ho => exact .inl ⟨o, fun h => w.refusal_ne_done key (h ▸ ho), rfl⟩
  next hr =>
    split
    next u hu => exact .inr ⟨u, hr, hu, rfl⟩
    next => exact .inl ⟨_, w.ownerRefusal_ne_done, rfl⟩

/-- R44: the end of a service write's request, in the state that its check left. -/
def State.endDone (s : State) (tag : Tag) (o : Outcome) : State :=
  { s with lib := s.lib.endRequest tag o (if o = .done then 1 else 0) 0 }

/-- R186: a service write is refused, or applied with the reactions that its kind calls for. -/
theorem State.endWrite_eq (s : State) (tag : Tag) (w : ServiceWrite) (key : KeyPosition) :
    (∃ o, o ≠ .done ∧ s.endWrite tag w key = (s.endDone tag o).finish)
      ∨ ∃ u, w.refusal key = none ∧ s.applyWrite w = some u
        ∧ s.endWrite tag w key = if w.reacts then (u.endDone tag .done).react s.lib else (u.endDone tag .done).finish := by
  rcases s.checkWrite_eq w key with ⟨o, ho, hc⟩ | ⟨u, hr, hu, hc⟩
  · refine .inl ⟨o, ho, ?_⟩
    rw [State.endWrite_quiet hc fun h => absurd h ho]; rfl
  · refine .inr ⟨u, hr, hu, ?_⟩
    cases hw : w.reacts
    · rw [State.endWrite_quiet hc fun _ => hw]; rfl
    · unfold State.endWrite
      rw [hc, hw]; rfl

/-- The commands that are service writes, with the tag, the key position and what their row reads in the sector for each block. -/
def serviceRow : Instr → Option (Tag × KeyPosition × (Block → Option ServiceWrite))
  | .dayClose tag day => some (tag, .locked, fun k => match k with
    | .day => some (.dayClose day)
    | _ => none)
  | .clearFaults tag => some (tag, .locked, fun k => match k with
    | .fault => some .clearFaults
    | _ => none)
  | .setMask tag m => some (tag, .locked, fun k => match k with
    | .fault => some (.setMask m)
    | _ => none)
  | .clearCauses tag => some (tag, .locked, fun k => match k with
    | .fault => some .clearCauses
    | _ => none)
  | .pickerClear tag => some (tag, .locked, fun k => match k with
    | .picker => some .pickerClear
    | _ => none)
  | .orderClose tag => some (tag, .locked, orderCloseRow)
  | .scheduleWrite tag key data => some (tag, key, fun k => match k with
    | .schedule => some (.schedule data)
    | _ => none)
  | .poolAddition tag key n xs => some (tag, key, fun k => match k with
    | .pool => some (poolWrite true n xs)
    | _ => none)
  | .poolRemoval tag key n xs => some (tag, key, fun k => match k with
    | .pool => some (poolWrite false n xs)
    | _ => none)
  | .thresholdWrite tag key v => some (tag, key, fun k => match k with
    | .rescue => some (.threshold v)
    | _ => none)
  | .assignment tag key p q => some (tag, key, fun k => match k with
    | .book b => some (.assign b p q)
    | _ => none)
  | .twinAddition tag key q => some (tag, key, fun k => match k with
    | .book b => some (.addTwin b q)
    | _ => none)
  | .twinRemoval tag key => some (tag, key, fun k => match k with
    | .book b => some (.removeTwin b)
    | _ => none)
  | .closeBook tag key => some (tag, key, fun k => match k with
    | .book b => some (.close b)
    | _ => none)
  | .serviceWriteRefused tag key data => some (tag, key, fun k => refusedWrite k data)
  | _ => none

/-- Every service write command is the arrival of its request's sector, read as its row says. -/
theorem exec_serviceRow {c : Instr} {tag : Tag} {key : KeyPosition} {read : Block → Option ServiceWrite}
    (h : serviceRow c = some (tag, key, read)) (s : State) : exec c s = .next (s.serviceArrival tag key read) := by
  cases c <;> cases h <;> rfl

end Sys2Proof.Machine
end

section
-- One declaration after the other: the stacks of the threads that wait for each other count against the check's memory limit.
set_option Elab.async false
namespace Sys2Proof.Machine

/-! ## Start-up -/

/-- What the changes of steps 5 to 11 leave of the environment and the accounts: all but HOLD and its marker. -/
structure State.OnlyHold (s t : State) : Prop where
  env : t.env = { s.env with hold := t.env.hold, holdMarker := t.env.holdMarker, startUp := t.env.startUp }
  fee : t.fee = s.fee

theorem State.OnlyHold.refl (s : State) : s.OnlyHold s := ⟨rfl, rfl⟩

theorem State.OnlyHold.trans {s t u : State} (h : s.OnlyHold t) (k : t.OnlyHold u) : s.OnlyHold u :=
  ⟨by rw [k.env, h.env], k.fee.trans h.fee⟩

theorem State.onLib_onlyHold (f : Env → Library → Library) (s : State) : s.OnlyHold (s.onLib f) := ⟨rfl, rfl⟩

theorem State.react_onlyHold (s : State) (was : Library) : s.OnlyHold (s.react was) := ⟨rfl, rfl⟩

/-- Each change of steps 5 to 11 is one of the blocks, or the entry into HOLD. -/
theorem lastChanges_cases {warning : Bool} {c : State → State} (h : c ∈ lastChanges warning) :
    (∃ f, c = State.onLib f) ∨ c = fun s => if warning then s.enterHold else s := by
  simp only [lastChanges, List.cons_append, List.append_assoc, List.mem_append, List.mem_cons, List.mem_map, List.not_mem_nil, or_false] at h
  rcases h with ⟨_, -, rfl⟩ | rfl | ⟨_, -, rfl⟩ | ⟨_, -, rfl⟩ | rfl | ⟨_, -, rfl⟩ | rfl | rfl
  all_goals first
    | exact .inr rfl
    | exact .inl ⟨_, rfl⟩

theorem State.take_lastChanges_onlyHold {warning : Bool} {cs : List (State → State)} (h : ∀ c ∈ cs, c ∈ lastChanges warning) (s : State) :
    s.OnlyHold (s.take cs) := by
  refine State.take_keeps (P := fun u => s.OnlyHold u) (fun c hc u hu => hu.trans ?_) (.refl s)
  rcases lastChanges_cases (h c hc) with ⟨f, rfl⟩ | rfl
  · exact u.onLib_onlyHold f
  · dsimp only; split <;> exact ⟨rfl, rfl⟩

theorem State.endStart_onlyHold (s : State) (warning : Bool) (cut : Option Nat) : s.OnlyHold (s.endStart warning cut) := by
  have hr : s.OnlyHold s.resume := ⟨rfl, rfl⟩
  cases cut with
  | none =>
    have hk := State.take_lastChanges_onlyHold (warning := warning) (fun _ h => h) s.resume
    exact hr.trans (hk.trans (State.react_onlyHold _ _))
  | some n =>
    have hk := State.take_lastChanges_onlyHold (fun c h => List.mem_of_mem_take h) (cs := (lastChanges warning).take (n - 4)) s.resume
    exact hr.trans (hk.trans ⟨rfl, rfl⟩)

theorem State.settleStart_onlyHold (s : State) (i : ResetInputs) : s.OnlyHold (s.settleStart i) := by
  unfold State.settleStart
  split
  · exact s.endStart_onlyHold _ _
  · dsimp only
    split
    · exact ⟨rfl, rfl⟩
    · have h := State.endStart_onlyHold { s with lib := (s.lib.askReports ‹Move›).settleRecord ‹Move› i.grip false } i.warning i.cut
      exact ⟨h.env, h.fee⟩

theorem State.resumeStart_onlyHold (s : State) (w : StartUp) (seated : Bool) : s.OnlyHold (s.resumeStart w seated) := by
  unfold State.resumeStart
  split
  next m _ =>
    have h := State.endStart_onlyHold { s with lib := s.lib.settleRecord m false seated } w.warning w.cut
    exact ⟨h.env, h.fee⟩
  next => exact s.endStart_onlyHold _ _

/-- R120, R123: a caddy report changes the accounts and the environment only by what start-up does with HOLD. -/
theorem exec_caddyReport_accounts {s t : State} {d : Drive} {b : Bool} (h : exec (.caddyReport d b) s = .next t) :
    (s.env.startUp ≠ none ∧ s.OnlyHold t) ∨ s.OnlyTime t := by
  cases (show execCaddyReport d b s = _ from h)
  split
  next w hw =>
    split
    · exact .inl ⟨by rw [show s.env.startUp = _ from hw]; simp, (s.begin.resumeStart_onlyHold w b).env, (s.begin.resumeStart_onlyHold w b).fee⟩
    · exact .inr (.begin s)
  next =>
    split
    · exact .inr (.of_eq rfl rfl)
    · exact .inr (.begin s)

/-- The environment and the accounts of a reset, but for HOLD, the causes and the markers: kept where the marker is found or a further reset comes before it is
written, and at their defaults otherwise. -/
structure State.Restarts (s t : State) (found : Prop) : Prop where
  kept : found → t.env.directory = s.env.directory ∧ t.env.day = s.env.day ∧ t.env.threshold = s.env.threshold ∧ t.env.mask = s.env.mask
    ∧ t.fee = s.fee.closeAll
  lost : ¬ found → t.env.directory = [] ∧ t.env.day = 1 ∧ t.env.threshold = 200 ∧ t.env.mask = 0 ∧ t.fee = Fee.blank

theorem State.Restarts.onlyHold {s t u : State} {p : Prop} (h : s.Restarts t p) (k : t.OnlyHold u) : s.Restarts u p := by
  obtain ⟨he, hf⟩ := k
  constructor
  · intro hp
    obtain ⟨h1, h2, h3, h4, h5⟩ := h.kept hp
    rw [he, hf]; exact ⟨h1, h2, h3, h4, h5⟩
  · intro hp
    obtain ⟨h1, h2, h3, h4, h5⟩ := h.lost hp
    rw [he, hf]; exact ⟨h1, h2, h3, h4, h5⟩

/-- R22: the settings after the first `n` of the changes of steps 2 and 3. -/
theorem State.take_firstChanges_restarts (s : State) (cause : ResetCause) (i : ResetInputs) (n : Nat) :
    s.Restarts ((s.beginStart i).take ((firstChanges (s.markerFound i) cause i.presence).take n)) (s.markerFound i = true ∨ n = 0) := by
  cases hm : s.markerFound i
  · match n with
    | 0 => exact ⟨fun _ => ⟨rfl, rfl, rfl, rfl, rfl⟩, fun h => absurd (.inr rfl) h⟩
    | 1 => exact ⟨by simp, fun _ => ⟨rfl, rfl, rfl, rfl, rfl⟩⟩
    | 2 => exact ⟨by simp, fun _ => ⟨rfl, rfl, rfl, rfl, rfl⟩⟩
    | n + 3 => exact ⟨by simp, fun _ => by simp [firstChanges, State.readMarker, State.addCause, State.noteBlank, Env.defaults]⟩
  · refine ⟨fun _ => ?_, by simp⟩
    match n with
    | 0 => exact ⟨rfl, rfl, rfl, rfl, rfl⟩
    | 1 => exact ⟨rfl, rfl, rfl, rfl, rfl⟩
    | 2 => exact ⟨rfl, rfl, rfl, rfl, rfl⟩
    | n + 3 => simp [firstChanges, State.readMarker, State.addCause, State.noteBlank, State.beginStart, Env.restart]

/-- R22, R183, R184: the settings after a reset. -/
theorem State.startUp_restarts (s : State) (cause : ResetCause) (i : ResetInputs) :
    s.Restarts (s.startUp cause i) (s.markerFound i = true ∨ i.cut = some 0) := by
  have hall : ∀ cs, (s.beginStart i).take (firstChanges (s.markerFound i) cause i.presence) = cs →
      s.Restarts cs (s.markerFound i = true ∨ 3 = 0) := by
    rintro _ rfl; exact s.take_firstChanges_restarts cause i 3
  unfold State.startUp
  dsimp only
  split
  next hc =>
    have h := (hall _ rfl).onlyHold (State.settleStart_onlyHold _ i)
    simpa [hc] using h
  next n hc =>
    split
    · have h := (s.take_firstChanges_restarts cause i n).onlyHold (u := State.awaitReset _ i.warning n) ⟨rfl, rfl⟩
      simpa [hc] using h
    next hn =>
      have h := (hall _ rfl).onlyHold (State.settleStart_onlyHold _ i)
      have h0 : n ≠ 0 := by omega
      simpa [hc, h0] using h

theorem exec_reset_restarts {s t : State} {cause : ResetCause} {i : ResetInputs} (h : exec (.reset cause i) s = .next t) :
    s.Restarts t ((s.env.formatMarker = true ∧ i.memoryKept = true) ∨ i.cut = some 0) := by
  cases (show execReset cause i s = _ from h)
  have h := s.begin.startUp_restarts cause i
  simp only [State.markerFound, Bool.and_eq_true, State.begin_env] at h
  exact ⟨h.kept, h.lost⟩

end Sys2Proof.Machine
end

section
-- One declaration after the other: the stacks of the threads that wait for each other count against the check's memory limit.
set_option Elab.async false
namespace Sys2Proof.Machine

/-! ## Every command -/

/-- What an applied service write does to the environment and to the accounts. -/
inductive State.WriteAccounts (s u : State) : ServiceWrite → Prop
  | same (w : ServiceWrite) (env : u.env = s.env) (fee : u.fee = s.fee) : WriteAccounts s u w
  | dayClose (env : u.env = { s.env with day := nextDay s.env.day }) (fee : u.fee = s.fee.closeDay s.env.day) :
      WriteAccounts s u (.dayClose s.env.day)
  | setMask (m : BitVec 16) (env : u.env = { s.env with mask := m.setWidth 11 }) (fee : u.fee = s.fee) : WriteAccounts s u (.setMask m)
  | clearCauses (env : u.env = { s.env with causes := u.env.causes }) (fee : u.fee = s.fee) : WriteAccounts s u .clearCauses
  | orderClose (k : Station) (env : u.env = s.env) (fee : u.fee = s.fee.closeOrder k) : WriteAccounts s u (.orderClose k)
  | schedule (d : ScheduleData) (env : u.env = s.env) (fee : u.fee = s.fee.writeSchedule s.env.now d) : WriteAccounts s u (.schedule d)
  | threshold (v : Nat) (env : u.env = { s.env with threshold := max 1 v }) (fee : u.fee = s.fee) : WriteAccounts s u (.threshold v)
  | assign (b : Book) (p q : Nat) (state : (s.lib.book b).state = .unassigned)
      (env : u.env = { s.env with directory := dirClear s.env.directory b }) (fee : u.fee = s.fee) : WriteAccounts s u (.assign b p q)

theorem State.withLib_eq_some {s u : State} {l : Option Library} (h : s.withLib l = some u) : ∃ m, l = some m ∧ u = { s with lib := m } := by
  cases l with
  | none => cases h
  | some m => cases h; exact ⟨m, rfl, rfl⟩

theorem Library.assignable_unassigned {l : Library} {b : Book} {p : Side} {q : Option Side} (h : l.assignable b p q = true) :
    (l.book b).state = .unassigned := by
  unfold Library.assignable at h
  simp only [Bool.and_eq_true, beq_iff_eq] at h
  exact h.1.1.1.1

theorem State.assignBook_eq_some {s u : State} {b : Book} {p q : Nat} (h : s.assignBook b p q = some u) :
    ∃ x y, sideField p = some x ∧ twinField q = some y ∧ s.lib.assignable b x y = true
      ∧ u = { s with
          env := { s.env with directory := dirClear s.env.directory b }
          lib := s.lib.assignSides { s.env with directory := dirClear s.env.directory b } b x y } := by
  unfold State.assignBook at h
  split at h
  next x y hx hy =>
    split at h
    next ha => cases h; exact ⟨x, y, hx, hy, ha, rfl⟩
    next => cases h
  next => cases h

theorem State.applyWrite_accounts {s u : State} {w : ServiceWrite} (h : s.applyWrite w = some u) : s.WriteAccounts u w := by
  have lib {o : Option Library} (h : s.withLib o = some u) : s.WriteAccounts u w := by
    obtain ⟨m, -, rfl⟩ := State.withLib_eq_some h
    exact .same w rfl rfl
  cases w with
  | readOnly => cases h
  | unknown keyed => cases h
  | dayClose day =>
    simp only [State.applyWrite] at h
    split at h
    next hd => cases h; cases hd; exact .dayClose rfl rfl
    next => cases h
  | clearFaults => cases h; exact .same _ rfl rfl
  | setMask m => cases h; exact .setMask m rfl rfl
  | clearCauses => cases h; exact .clearCauses rfl rfl
  | pickerClear => cases h; exact .same _ rfl rfl
  | orderClose st => cases h; exact .orderClose st rfl rfl
  | schedule d =>
    obtain rfl := Option.some.inj h
    exact .schedule d (by with_reducible rfl) (by with_reducible rfl)
  | poolAdd xs => exact lib h
  | poolRemove xs => exact lib h
  | threshold v => cases h; exact .threshold v rfl rfl
  | assign b p q =>
    obtain ⟨x, y, -, -, ha, rfl⟩ := State.assignBook_eq_some h
    exact .assign b p q (Library.assignable_unassigned ha) rfl rfl
  | addTwin b t => exact lib h
  | removeTwin b => exact lib h
  | close b => exact lib h

/-- The write that a command's sector is to the block of its request. -/
def spells (c : Instr) (tag : Tag) (key : KeyPosition) (k : Block) (w : ServiceWrite) : Prop :=
  (∃ read, serviceRow c = some (tag, key, read) ∧ read k = some w) ∨ ∃ data, c = .fileBurstArrival tag data key ∧ w = readWrite k data

/-- What one command does to the environment and to the accounts. -/
inductive State.Accounts (s t : State) : Instr → Prop
  | onlyTime (c : Instr) (h : s.OnlyTime t) : Accounts s t c
  | files (d : Drive) (h : s.Writes t (Answered s d) fun y => y.filed = true) : Accounts s t (.primaryWriteOk d)
  | spends (c : Instr) (d : Drive) (hc : c = .primaryWriteFail d ∨ c = .commandLimitExpiry d ∨ c = .hardwareFaultReport d)
      (h : s.Writes t (fun v => Running s d v ∧ (c = .primaryWriteFail d → Answered s d v)) fun y => y = .void) : Accounts s t c
  | loses (d : Drive) (rs : List ReadResult) (h : ∃ v b f ss r, Answered s d v ∧ v.command = .rescueRead b f ss true ∧ rs.length = ss.length
      ∧ s.lib.care.rescue = some r ∧ t.env = s.env.lose r.book f ∧ t.fee = s.fee) : Accounts s t (.rescueReadOutcome d rs)
  | offers (n : Nat) (started : s.env.startUp = none) (env : t.env = s.env) (o : Offer)
      (fee : t.fee = (s.fee.take s.env.now s.env.hold o).1) : Accounts s t (.burstSent n)
  | closes (k : Station) (env : t.env = { s.env with now := t.env.now }) (fee : t.fee = s.fee.closeOrder k) :
      Accounts s t (.orderTimerExpiry k)
  | notes (c : Instr) (hc : c = .holdEnd ∨ ∃ i, c = .powerWarning i) (env : t.env = { s.env with startUp := t.env.startUp })
      (start : t.env.startUp = none ↔ s.env.startUp = none) (fee : t.fee = s.fee) : Accounts s t c
  | holds (i : Option InTransfer) (started : s.env.startUp = none) (env : t.env = s.env.inHold)
      (fee : s.fee.Held t.fee s.env.now s.env.hold) : Accounts s t (.powerWarning i)
  | resumes (started : s.env.startUp = none) (env : t.env = { s.env with hold := false, holdMarker := false }) (fee : t.fee = s.fee) :
      Accounts s t .holdEnd
  | starts (d : Drive) (b : Bool) (start : s.env.startUp ≠ none) (h : s.OnlyHold t) : Accounts s t (.caddyReport d b)
  | resets (cause : ResetCause) (i : ResetInputs)
      (h : s.Restarts t ((s.env.formatMarker = true ∧ i.memoryKept = true) ∨ i.cut = some 0)) : Accounts s t (.reset cause i)
  | writes (c : Instr) (tag : Tag) (key : KeyPosition) (x : Entry) (w : ServiceWrite) (u : State) (spelt : spells c tag key x.block w)
      (awaits : AwaitsWrite s tag x x.block) (allowed : w.refusal key = none) (h : s.begin.WriteAccounts u w) (env : t.env = u.env)
      (fee : t.fee = u.fee) : Accounts s t c

/-- R186: a service write leaves environment and accounts, or does to them what its kind does. -/
theorem State.endWrite_accounts {s : State} {c : Instr} {tag : Tag} {key : KeyPosition} {x : Entry} {w : ServiceWrite}
    (hc : spells c tag key x.block w) (hx : AwaitsWrite s tag x x.block) : s.Accounts (s.begin.endWrite tag w key) c := by
  rcases s.begin.endWrite_eq tag w key with ⟨o, -, h⟩ | ⟨u, hr, hu, h⟩ <;> rw [h]
  · exact .onlyTime c (.of_eq rfl rfl)
  · refine .writes c tag key x w u hc hx hr (State.applyWrite_accounts hu) ?_ ?_ <;> split <;> rfl

theorem exec_serviceRow_accounts {c : Instr} {s t : State} {tag : Tag} {key : KeyPosition} {read : Block → Option ServiceWrite}
    (hc : serviceRow c = some (tag, key, read)) (h : exec c s = .next t) : s.Accounts t c := by
  rw [exec_serviceRow hc] at h
  cases h
  rcases s.serviceArrival_eq tag key read with h | ⟨x, -, -, -, -, -, h⟩ | ⟨x, w, hx, hw, h⟩ <;> rw [h]
  · exact .onlyTime c (.begin s)
  · exact .onlyTime c (.of_eq rfl rfl)
  · exact State.endWrite_accounts (.inl ⟨read, hc, hw⟩) hx

/-- R81, R186, R50: what the sector of a FILE burst can be. -/
theorem exec_fileBurstArrival_eq {s t : State} {tag : Tag} {data : Sector} {key : KeyPosition}
    (h : exec (.fileBurstArrival tag data key) s = .next t) :
    t = s.begin
      ∨ ∃ x, s.env.startUp = none ∧ s.lib.linkOpen tag = true ∧ s.lib.entry tag = some x
        ∧ ((∃ g, x.live = true ∧ x.job = .file g ∧ g.phase = .intake ∧ g.pulled = true
            ∧ t = State.react { s.begin with lib := s.begin.lib.takeSector s.env tag x g data } s.begin.lib)
          ∨ (x.live = false ∧ 0 < x.discard ∧ t = State.finish { s.begin with lib := s.begin.lib.discardSector tag x })
          ∨ (AwaitsWrite s tag x x.block ∧ t = s.begin.endWrite tag (readWrite x.block data) key)) := by
  rcases State.event_eq (show execFileBurstArrival tag data key s = _ from h) with rfl | ⟨hs, rfl⟩
  · exact .inl rfl
  · split
    next hl =>
      split
      next x hx =>
        unfold State.arrive
        split
        next hv =>
          split
          next g hg =>
            split
            next hp => exact .inr ⟨x, hs, hl, hx, .inl ⟨g, hv, hg, hp.1, hp.2, rfl⟩⟩
            next => exact .inl rfl
          next hj =>
            refine .inr ⟨x, hs, hl, hx, .inr (.inr ⟨⟨hs, ?_, hx, by simpa [Entry.live] using hv, hj, rfl⟩, rfl⟩)⟩
            unfold Library.linkOpen at hl
            split at hl
            next u hu => exact .inr (by rw [← beq_iff_eq.mp hl]; exact hu)
            next hu => exact .inl hu
          next => exact .inl rfl
        next hv =>
          split
          next hd => exact .inr ⟨x, hs, hl, hx, .inr (.inl ⟨by simpa using hv, hd, rfl⟩)⟩
          next => exact .inl rfl
      next => exact .inl rfl
    next => exact .inl rfl

theorem exec_fileBurstArrival_accounts {s t : State} {tag : Tag} {data : Sector} {key : KeyPosition}
    (h : exec (.fileBurstArrival tag data key) s = .next t) : s.Accounts t (.fileBurstArrival tag data key) := by
  rcases exec_fileBurstArrival_eq h with h | ⟨x, -, -, -, ⟨g, -, -, -, -, h⟩ | ⟨-, -, h⟩ | ⟨hx, h⟩⟩ <;> rw [h]
  · exact .onlyTime _ (.begin s)
  · exact .onlyTime _ (.of_eq rfl rfl)
  · exact .onlyTime _ (.of_eq rfl rfl)
  · exact State.endWrite_accounts (.inr ⟨data, rfl, rfl⟩) hx

/-- Every command is quiet, a service write, or one of the events that touch the directories, the orders, HOLD or start-up. -/
theorem exec_accounts {c : Instr} {s t : State} (h : exec c s = .next t) : s.Accounts t c := by
  by_cases hq : quietCommand c = true
  · exact .onlyTime c (exec_quietCommand hq h)
  · cases hr : serviceRow c with
    | some r => exact exec_serviceRow_accounts (tag := r.1) (key := r.2.1) (read := r.2.2) hr h
    | none =>
      cases c with
      | primaryWriteOk d => exact (exec_primaryWriteOk_accounts h).elim (.onlyTime _) (.files d)
      | primaryWriteFail d =>
        refine (exec_primaryWriteFail_accounts h).elim (.onlyTime _) fun ⟨v, tag, b, f, y, hv, hw⟩ => .spends _ d (.inl rfl) ?_
        exact ⟨v, tag, b, f, y, ⟨hv.toRunning, fun _ => hv⟩, hw⟩
      | commandLimitExpiry d =>
        refine (exec_commandLimitExpiry_accounts h).elim (.onlyTime _) fun ⟨v, tag, b, f, y, hv, hw⟩ => .spends _ d (.inr (.inl rfl)) ?_
        exact ⟨v, tag, b, f, y, ⟨hv, by simp⟩, hw⟩
      | hardwareFaultReport d =>
        refine (exec_hardwareFaultReport_accounts h).elim (.onlyTime _) fun ⟨v, tag, b, f, y, hv, hw⟩ => .spends _ d (.inr (.inr rfl)) ?_
        exact ⟨v, tag, b, f, y, ⟨hv, by simp⟩, hw⟩
      | spinUpLimitExpiry d => exact .onlyTime _ (exec_spinUpLimitExpiry_onlyTime h)
      | spinDownLimitExpiry d => exact .onlyTime _ (exec_spinDownLimitExpiry_onlyTime h)
      | rescueReadOutcome d rs => exact (exec_rescueReadOutcome_accounts h).elim (.onlyTime _) (.loses d rs)
      | burstSent n => exact (exec_burstSent_accounts h).elim (.onlyTime _) fun ⟨hs, he, o, hf⟩ => .offers n hs he o hf
      | orderTimerExpiry k =>
        obtain ⟨he, hf⟩ := exec_orderTimerExpiry_accounts h
        exact hf.elim (fun hf => .onlyTime _ ⟨he, hf⟩) (.closes k he)
      | powerWarning i =>
        exact (exec_powerWarning_accounts h).elim (fun ⟨he, hs, hf⟩ => .notes _ (.inr ⟨i, rfl⟩) he hs hf) fun ⟨hs, he, hf⟩ => .holds i hs he hf
      | holdEnd =>
        obtain ⟨hf, he⟩ := exec_holdEnd_accounts h
        exact he.elim (fun ⟨he, hs⟩ => .notes _ (.inl rfl) he hs hf) fun ⟨hs, he⟩ => .resumes hs he hf
      | caddyReport d b => exact (exec_caddyReport_accounts h).elim (fun ⟨hs, h⟩ => .starts d b hs h) (.onlyTime _)
      | reset cause i => exact .resets cause i (exec_reset_restarts h)
      | fileBurstArrival tag data key => exact exec_fileBurstArrival_accounts h
      | _ => first | exact absurd rfl hq | cases hr

end Sys2Proof.Machine
end

section
-- One declaration after the other: the stacks of the threads that wait for each other count against the check's memory limit.
set_option Elab.async false
namespace Sys2Proof.Machine

/-! ## A step is one command, or the passing of a second -/

/-- A step takes the command at the front of the queue, or one second passes. -/
theorem step_cases {s t : State} (h : step s = .next t) :
    t = s.tick ∨ ∃ c rest, exec c { s with pending := rest } = .next t := by
  unfold step at h
  split at h
  · cases h; exact .inl rfl
  · exact .inr ⟨_, _, h⟩

/-! ## No order is open in HOLD -/

/-- R152: no station has an order. -/
def Fee.noOrders (f : Fee) : Prop := ∀ k, look f.orders k = none

theorem Fee.noOrders_closeAll (f : Fee) : f.closeAll.noOrders := fun _ => look_replicate ..

theorem Fee.noOrders_closeOrder {f : Fee} (h : f.noOrders) (k : Station) : (f.closeOrder k).noOrders := fun j => by
  rw [Fee.closeOrder, look_put]
  split
  · rfl
  · exact h j

theorem Fee.settleOrder_others (f : Fee) (now : Nat) (x : Offer) {k : Station} (h : k ≠ x.station) :
    look (f.settleOrder now x).orders k = look f.orders k := by
  unfold Fee.settleOrder
  split
  · rfl
  · exact look_put_ne _ _ (Ne.symm h)

theorem Fee.chargePage_others (f : Fee) (now : Nat) (x : Offer) {k : Station} (h : k ≠ x.station) :
    look (f.chargePage now x).1.orders k = look f.orders k := by
  unfold Fee.chargePage
  (repeat' split) <;> first
    | rfl
    | exact look_put_ne _ _ (Ne.symm h)

/-- R152: an offer taken in HOLD leaves no order open that was not open. -/
theorem Fee.noOrders_take {f : Fee} (h : f.noOrders) (now : Nat) (x : Offer) : (f.take now true x).1.noOrders := fun k => by
  show look (put ((f.settleOrder now x).chargePage now x).1.orders x.station none) k = none
  rw [look_put]
  split
  · rfl
  next hk => rw [Fee.chargePage_others _ _ _ (Ne.symm hk), Fee.settleOrder_others _ _ _ (Ne.symm hk), h k]

theorem Fee.noOrders_held {f g : Fee} {now : Nat} {hold : Bool} (h : f.Held g now hold) : g.noOrders := by
  rcases h with ⟨f', -, rfl⟩ | rfl | ⟨o, rfl⟩
  · exact f'.noOrders_closeAll
  · exact f.noOrders_closeAll
  · exact Fee.noOrders_take f.noOrders_closeAll now o

/-- R141: a schedule write opens no order. -/
theorem Fee.noOrders_writeSchedule {f : Fee} (h : f.noOrders) (now : Nat) (d : ScheduleData) : (f.writeSchedule now d).noOrders := by
  unfold Fee.writeSchedule
  dsimp only
  refine List.foldlRecOn (motive := Fee.noOrders) allStations _ (show Fee.noOrders { f with schedule := clampSchedule d } from h) ?_
  intro g hg k _
  rw [hg k]
  exact hg

theorem State.ordersHeld_of_noOrders {s : State} (h : s.fee.noOrders) : s.ordersHeld := fun _ => h

theorem State.ordersHeld.onlyTime {s t : State} (h : s.ordersHeld) (k : s.OnlyTime t) : t.ordersHeld := by
  unfold State.ordersHeld
  rw [k.env, k.fee]
  exact h

theorem exec_keeps_ordersHeld {c : Instr} {s t : State} (h : s.ordersHeld) (hx : exec c s = .next t) : t.ordersHeld := by
  have same (ht : t.env.hold = s.env.hold) (hs : t.env.startUp = s.env.startUp) (hf : s.fee.noOrders → t.fee.noOrders) : t.ordersHeld := by
    intro hh
    rw [ht, hs] at hh
    exact hf (h hh)
  have writes {x : Frame → Prop} {R : InService → Prop} (hw : s.Writes t R x) : t.ordersHeld := by
    obtain ⟨v, tag, b, f, y, -, -, -, -, he, hf⟩ := hw
    exact same (by rw [he]) (by rw [he]) (by rw [hf]; exact id)
  cases exec_accounts hx with
  | onlyTime _ k => exact h.onlyTime k
  | files _ hw => exact writes hw
  | spends _ _ _ hw => exact writes hw
  | loses _ _ hl =>
    obtain ⟨v, b, f, ss, r, -, -, -, -, he, hf⟩ := hl
    exact same (by rw [he]; rfl) (by rw [he]; rfl) (by rw [hf]; exact id)
  | offers _ hs he o hf =>
    intro hh k
    rw [he, hs] at hh
    have hh : s.env.hold = true := by simpa using hh
    rw [hf, hh]
    exact Fee.noOrders_take (h (.inl hh)) _ o k
  | closes k he hf => exact same (by rw [he]) (by rw [he]) (by rw [hf]; exact fun h => Fee.noOrders_closeOrder h k)
  | notes _ _ he hs hf =>
    intro hh
    rw [hf]
    refine h (hh.imp (by rw [he]; exact id) fun hh => ?_)
    rw [Option.isSome_iff_ne_none] at hh ⊢
    exact fun hn => hh (hs.mpr hn)
  | holds _ _ _ hf => exact State.ordersHeld_of_noOrders (Fee.noOrders_held hf)
  | resumes hs he _ =>
    intro hh
    rw [he, hs] at hh
    simp at hh
  | starts _ _ hs k =>
    refine State.ordersHeld_of_noOrders ?_
    rw [k.fee]
    exact h (.inr (Option.isSome_iff_ne_none.mpr hs))
  | resets _ i hr =>
    refine State.ordersHeld_of_noOrders ?_
    by_cases hp : (s.env.formatMarker = true ∧ i.memoryKept = true) ∨ i.cut = some 0
    · rw [(hr.kept hp).2.2.2.2]; exact s.fee.noOrders_closeAll
    · rw [(hr.lost hp).2.2.2.2]; exact s.fee.noOrders_closeAll
  | writes _ tag key x w u _ _ _ hw he hf =>
    cases hw with
    | same _ env fee => exact same (by rw [he, env]; rfl) (by rw [he, env]; rfl) (by rw [hf, fee]; exact id)
    | dayClose env fee => exact same (by rw [he, env]; rfl) (by rw [he, env]; rfl) (by rw [hf, fee]; exact fun _ => s.fee.noOrders_closeAll)
    | setMask _ env fee => exact same (by rw [he, env]; rfl) (by rw [he, env]; rfl) (by rw [hf, fee]; exact id)
    | clearCauses env fee => exact same (by rw [he, env]; rfl) (by rw [he, env]; rfl) (by rw [hf, fee]; exact id)
    | orderClose k env fee => exact same (by rw [he, env]; rfl) (by rw [he, env]; rfl) (by rw [hf, fee]; exact fun h => Fee.noOrders_closeOrder h k)
    | schedule d env fee => exact same (by rw [he, env]; rfl) (by rw [he, env]; rfl) (by rw [hf, fee]; exact fun h => Fee.noOrders_writeSchedule h _ d)
    | threshold v env fee => exact same (by rw [he, env]; rfl) (by rw [he, env]; rfl) (by rw [hf, fee]; exact id)
    | assign b p q _ env fee => exact same (by rw [he, env]; rfl) (by rw [he, env]; rfl) (by rw [hf, fee]; exact id)

/-- Settles O57: every command but an offer, a reset and the two that turn HOLD leaves HOLD and start-up as they are and opens no order; an offer in HOLD closes
the order it opens. -/
theorem stepKeepsOrdersClosedInHold : Obligations.StepKeepsOrdersClosedInHold := by
  unfold Obligations.StepKeepsOrdersClosedInHold
  intro s t h hs
  rcases step_cases hs with rfl | ⟨c, rest, hx⟩
  · exact h
  · exact exec_keeps_ordersHeld (s := { s with pending := rest }) h hx

end Sys2Proof.Machine
end

section
-- One declaration after the other: the stacks of the threads that wait for each other count against the check's memory limit.
set_option Elab.async false
namespace Sys2Proof.Machine

/-! ## Which commands and which blocks a write belongs to -/

/-- The block that takes a service write. -/
def ServiceWrite.ofBlock (k : Block) : ServiceWrite → Prop
  | .dayClose _ => k = .day
  | .clearFaults => k = .fault
  | .setMask _ => k = .fault
  | .clearCauses => k = .fault
  | .pickerClear => k = .picker
  | .orderClose st => k = .order st
  | .schedule _ => k = .schedule
  | .poolAdd _ => k = .pool
  | .poolRemove _ => k = .pool
  | .threshold _ => k = .rescue
  | .assign b _ _ => k = .book b
  | .addTwin b _ => k = .book b
  | .removeTwin b => k = .book b
  | .close b => k = .book b
  | .readOnly => True
  | .unknown _ => True

/-- The command whose row a service write is, where it is not the sector of a FILE burst. -/
def ServiceWrite.ofCommand (tag : Tag) (key : KeyPosition) (c : Instr) : ServiceWrite → Prop
  | .dayClose day => c = .dayClose tag day
  | .clearFaults => c = .clearFaults tag
  | .setMask m => c = .setMask tag m
  | .schedule d => c = .scheduleWrite tag key d
  | .threshold v => c = .thresholdWrite tag key v
  | .assign _ p q => c = .assignment tag key p q
  | .addTwin _ q => c = .twinAddition tag key q
  | .removeTwin _ => c = .twinRemoval tag key
  | .close _ => c = .closeBook tag key
  | _ => True

theorem poolWrite_cases (add : Bool) (n : Nat) (xs : List Nat) :
    (∃ ys, poolWrite add n xs = .poolAdd ys) ∨ (∃ ys, poolWrite add n xs = .poolRemove ys) ∨ poolWrite add n xs = .unknown true := by
  unfold poolWrite
  (repeat' split) <;> simp

theorem poolWrite_ofCommand (add : Bool) (n : Nat) (xs : List Nat) (tag : Tag) (key : KeyPosition) (c : Instr) :
    (poolWrite add n xs).ofCommand tag key c := by
  rcases poolWrite_cases add n xs with ⟨ys, h⟩ | ⟨ys, h⟩ | h <;> rw [h] <;> trivial

theorem poolWrite_ofBlock (add : Bool) (n : Nat) (xs : List Nat) : (poolWrite add n xs).ofBlock .pool := by
  rcases poolWrite_cases add n xs with ⟨ys, h⟩ | ⟨ys, h⟩ | h <;> rw [h] <;> trivial

theorem readWrite_ofBlock (k : Block) (data : Sector) : (readWrite k data).ofBlock k := by
  cases k with
  | fault => simp only [readWrite, readFaultCommand]; split <;> trivial
  | pool => simp only [readWrite, readPoolWrite]; split <;> first | exact poolWrite_ofBlock .. | trivial
  | book b => simp only [readWrite, readBookChange]; split <;> trivial
  | _ => trivial

theorem refusedWrite_eq_some {k : Block} {data : Sector} {w : ServiceWrite} (h : refusedWrite k data = some w) :
    readWrite k data = w ∧ (w = .readOnly ∨ ∃ keyed, w = .unknown keyed) := by
  unfold refusedWrite at h
  split at h <;> cases h
  · exact ⟨‹_›, .inl rfl⟩
  · exact ⟨‹_›, .inr ⟨_, rfl⟩⟩

theorem serviceRow_ofBlock {c : Instr} {tag : Tag} {key : KeyPosition} {read : Block → Option ServiceWrite} {k : Block} {w : ServiceWrite}
    (h : serviceRow c = some (tag, key, read)) (hk : read k = some w) : w.ofBlock k ∧ w.ofCommand tag key c := by
  cases c <;> cases h
  case serviceWriteRefused =>
    obtain ⟨-, rfl | ⟨_, rfl⟩⟩ := refusedWrite_eq_some hk <;> exact ⟨trivial, trivial⟩
  case poolAddition => cases k <;> cases hk; exact ⟨poolWrite_ofBlock .., poolWrite_ofCommand ..⟩
  case poolRemoval => cases k <;> cases hk; exact ⟨poolWrite_ofBlock .., poolWrite_ofCommand ..⟩
  all_goals (cases k <;> cases hk; exact ⟨rfl, by trivial⟩)

theorem spells.ofBlock {c : Instr} {tag : Tag} {key : KeyPosition} {k : Block} {w : ServiceWrite} (h : spells c tag key k w) : w.ofBlock k := by
  rcases h with ⟨read, hr, hk⟩ | ⟨data, -, rfl⟩
  · exact (serviceRow_ofBlock hr hk).1
  · exact readWrite_ofBlock k data

theorem spells.ofCommand {c : Instr} {tag : Tag} {key : KeyPosition} {k : Block} {w : ServiceWrite} (h : spells c tag key k w) :
    w.ofCommand tag key c ∨ ∃ data, c = .fileBurstArrival tag data key ∧ w = readWrite k data := by
  rcases h with ⟨read, hr, hk⟩ | h
  · exact .inl (serviceRow_ofBlock hr hk).2
  · exact .inr h

/-- R188: an assignment is spelt by a first byte of 1 in a sector of its book's block. -/
theorem readWrite_eq_assign {k : Block} {data : Sector} {b : Book} {p q : Nat} (h : readWrite k data = .assign b p q) :
    k = .book b ∧ bytesAt data 0 1 = 1 := by
  have hk := readWrite_ofBlock k data
  rw [h] at hk
  cases hk
  refine ⟨rfl, ?_⟩
  simp only [readWrite, readBookChange] at h
  split at h <;> first | assumption | cases h

/-- R187: a keyed write that is not refused finds the key open. -/
theorem ServiceWrite.refusal_eq_none {w : ServiceWrite} {key : KeyPosition} (h : w.refusal key = none) (hw : w.keyed = true) : key = .opened := by
  cases key with
  | opened => rfl
  | locked =>
    unfold ServiceWrite.refusal at h
    split at h
    · cases h
    · simp [hw] at h

/-! ## The directories -/

theorem State.OnlyTime.directory {s t : State} (h : s.OnlyTime t) : t.env.directory = s.env.directory := by rw [h.env]

/-- R6: a write that is applied clears the directory of an UNASSIGNED book at its assignment, and changes no directory otherwise. -/
theorem State.WriteAccounts.directory {s u : State} {w : ServiceWrite} (h : s.WriteAccounts u w) :
    u.env.directory = s.env.directory
      ∨ ∃ b p q, w = .assign b p q ∧ (s.lib.book b).state = .unassigned ∧ u.env.directory = dirClear s.env.directory b := by
  cases h with
  | assign b p q state env fee => exact .inr ⟨b, p, q, rfl, state, by rw [env]⟩
  | same _ env fee => exact .inl (by rw [env])
  | dayClose env fee => exact .inl (by rw [env])
  | setMask _ env fee => exact .inl (by rw [env])
  | clearCauses env fee => exact .inl (by rw [env])
  | orderClose _ env fee => exact .inl (by rw [env])
  | schedule _ env fee => exact .inl (by rw [env])
  | threshold _ env fee => exact .inl (by rw [env])

/-- R6: the assignment of an awaited write has cleared its book's directory. -/
def State.Assigns (s t : State) (tag : Tag) : Prop :=
  ∃ x b, AwaitsWrite s tag x (.book b) ∧ (s.lib.book b).state = .unassigned ∧ t.env.directory = dirClear s.env.directory b

theorem exec_directory_write {c : Instr} {s t u : State} {tag : Tag} {key : KeyPosition} {x : Entry} {w : ServiceWrite}
    (spelt : spells c tag key x.block w) (awaits : AwaitsWrite s tag x x.block) (allowed : w.refusal key = none)
    (h : s.begin.WriteAccounts u w) (env : t.env = u.env) :
    t.env.directory = s.env.directory ∨ key = .opened ∧ s.Assigns t tag
      ∧ ((∃ p q, c = .assignment tag key p q) ∨ ∃ data, c = .fileBurstArrival tag data key ∧ bytesAt data 0 1 = 1) := by
  rcases h.directory with hd | ⟨b, p, q, rfl, hb, hd⟩
  · exact .inl (by rw [env]; exact hd)
  · refine .inr ⟨ServiceWrite.refusal_eq_none allowed rfl, ⟨x, b, ?_, hb, by rw [env]; exact hd⟩, ?_⟩
    · have hk : x.block = .book b := spelt.ofBlock
      rw [← hk]; exact awaits
    · rcases spelt.ofCommand with hc | ⟨data, hc, hw⟩
      · exact .inl ⟨p, q, hc⟩
      · exact .inr ⟨data, hc, (readWrite_eq_assign hw.symm).2⟩

/-- Settles O59: each class of commands, as `exec_accounts` names them, changes the directories as Table 1-4 says or leaves them. -/
theorem directoryChangesOnlyAtItsEvents : Obligations.DirectoryChangesOnlyAtItsEvents := by
  unfold Obligations.DirectoryChangesOnlyAtItsEvents
  intro c s t hx
  have writes {x : Frame → Prop} {R : InService → Prop} (hw : s.Writes t R x) :
      ∃ v tag b f y, R v ∧ v.command = .primaryWrite tag b f ∧ s.lib.fileOf tag ≠ none ∧ x y
        ∧ t.env.directory = dirPut s.env.directory (frameKey b f) y := by
    obtain ⟨v, tag, b, f, y, hv, hc, hf, hy, he, -⟩ := hw
    exact ⟨v, tag, b, f, y, hv, hc, hf, hy, by rw [he]⟩
  refine ⟨fun hd hr ha hb hs => ?_, fun d hc => ?_, ?_, ?_, ?_, ?_⟩
  · cases exec_accounts hx with
    | onlyTime _ h => exact h.directory
    | files d _ => exact absurd rfl (hd d).1
    | spends _ d hc _ => obtain ⟨-, h1, h2, h3⟩ := hd d; rcases hc with hc | hc | hc <;> contradiction
    | loses d rs _ => exact absurd rfl (hr d rs)
    | offers _ _ he _ _ => rw [he]
    | closes _ he _ => rw [he]
    | notes _ _ he _ _ => rw [he]
    | holds _ _ he _ => rw [he]; rfl
    | resumes _ he _ => rw [he]
    | starts _ _ _ h => rw [h.env]
    | resets cause i _ => exact absurd rfl (hs cause i)
    | writes _ tag key x w u spelt awaits allowed h he _ =>
      rcases exec_directory_write spelt awaits allowed h he with h | ⟨-, -, ⟨p, q, hc⟩ | ⟨data, hc, -⟩⟩
      · exact h
      · exact (ha _ _ _ _ hc).elim
      · exact (hb _ _ _ hc).elim
  · cases exec_accounts hx with
    | onlyTime _ h => exact .inl h.directory
    | files d' hw =>
      have hd : d' = d := by rcases hc with hc | hc | hc | hc <;> cases hc; rfl
      subst hd
      obtain ⟨v, tag, b, f, y, hv, hcm, hf, hy, he⟩ := writes hw
      exact .inr ⟨v, tag, b, f, y, hv.toRunning, fun _ => hv, hcm, hf, he, fun _ => hy, fun h => absurd rfl h⟩
    | spends _ d' hc' hw =>
      have hd : d' = d ∧ c ≠ .primaryWriteOk d := by
        rcases hc' with rfl | rfl | rfl <;> rcases hc with hc | hc | hc | hc <;> cases hc <;> simp
      obtain ⟨rfl, hne⟩ := hd
      obtain ⟨v, tag, b, f, y, ⟨hv, ha⟩, hcm, hf, hy, he⟩ := writes hw
      exact .inr ⟨v, tag, b, f, y, hv, fun h => ha (h.resolve_left hne), hcm, hf, he, fun h => absurd h hne, fun _ => hy⟩
    | writes _ tag key x w u spelt awaits allowed h he _ =>
      rcases exec_directory_write spelt awaits allowed h he with h | ⟨-, -, ⟨p, q, rfl⟩ | ⟨data, rfl, -⟩⟩
      · exact .inl h
      · simp at hc
      · simp at hc
    | notes _ _ he _ _ => exact .inl (by rw [he])
    | _ => simp at hc
  · rintro d rs rfl
    cases exec_accounts hx with
    | onlyTime _ h => exact .inl h.directory
    | spends _ _ hc _ => simp at hc
    | loses _ _ h =>
      obtain ⟨v, b, f, ss, r, hv, hc, hn, hr, he, -⟩ := h
      exact .inr ⟨v, b, f, ss, r, hv, hc, hn, hr, by rw [he]; rfl⟩
    | notes _ hc => simp at hc
    | writes _ tag key x w u spelt awaits allowed h he _ =>
      rcases exec_directory_write spelt awaits allowed h he with h | ⟨-, -, ⟨p, q, hc⟩ | ⟨data, hc, -⟩⟩
      · exact .inl h
      · cases hc
      · cases hc
  · rintro tag key p q rfl
    cases exec_accounts hx with
    | onlyTime _ h => exact .inl h.directory
    | spends _ _ hc _ => simp at hc
    | notes _ hc => simp at hc
    | writes _ tag' key' x w u spelt awaits allowed h he _ =>
      rcases exec_directory_write spelt awaits allowed h he with h | ⟨hk, ha, ⟨p, q, hc⟩ | ⟨data, hc, -⟩⟩
      · exact .inl h
      · cases hc; exact .inr ⟨hk, ha⟩
      · cases hc
  · rintro tag data key rfl
    cases exec_accounts hx with
    | onlyTime _ h => exact .inl h.directory
    | spends _ _ hc _ => simp at hc
    | notes _ hc => simp at hc
    | writes _ tag' key' x w u spelt awaits allowed h he _ =>
      rcases exec_directory_write spelt awaits allowed h he with h | ⟨hk, ha, ⟨p, q, hc⟩ | ⟨data, hc, hb⟩⟩
      · exact .inl h
      · cases hc
      · cases hc; exact .inr ⟨hk, hb, ha⟩
  · rintro cause i rfl
    have h := exec_reset_restarts hx
    split
    next hp => exact (h.kept hp).1
    next hp => exact (h.lost hp).1

end Sys2Proof.Machine
end

section
-- One declaration after the other: the stacks of the threads that wait for each other count against the check's memory limit.
set_option Elab.async false
namespace Sys2Proof.Machine

/-! ## The environment stays sound -/

theorem Env.sound_dirPut {e : Env} (h : e.sound) (n : Nat) (x : Frame) : Env.sound { e with directory := dirPut e.directory n x } :=
  ⟨dirWf_dirPut n x h.1, h.2⟩

theorem Env.sound_nextDay {e : Env} (h : e.sound) : Env.sound { e with day := nextDay e.day } := by
  obtain ⟨hd, h1, h2, ht⟩ := h
  refine ⟨hd, ?_, ?_, ht⟩ <;> simp only [nextDay] <;> split <;> simp only [Config.max16] at * <;> omega

theorem exec_keeps_env_sound {c : Instr} {s t : State} (h : s.env.sound) (hx : exec c s = .next t) : t.env.sound := by
  have writes {x : Frame → Prop} {R : InService → Prop} (hw : s.Writes t R x) : t.env.sound := by
    obtain ⟨v, tag, b, f, y, -, -, -, -, he, -⟩ := hw
    rw [he]
    exact Env.sound_dirPut h _ y
  cases exec_accounts hx with
  | onlyTime _ k => rw [k.env]; exact h
  | files _ hw => exact writes hw
  | spends _ _ _ hw => exact writes hw
  | loses _ _ hl =>
    obtain ⟨v, b, f, ss, r, -, -, -, -, he, -⟩ := hl
    rw [he]
    exact Env.sound_dirPut h _ _
  | offers _ _ he _ _ => rw [he]; exact h
  | closes _ he _ => rw [he]; exact h
  | notes _ _ he _ _ => rw [he]; exact h
  | holds _ _ he _ => rw [he]; exact h
  | resumes _ he _ => rw [he]; exact h
  | starts _ _ _ k => rw [k.env]; exact h
  | resets _ i hr =>
    obtain ⟨hd, h1, h2, ht⟩ := h
    by_cases hp : (s.env.formatMarker = true ∧ i.memoryKept = true) ∨ i.cut = some 0
    · obtain ⟨k1, k2, k3, -, -⟩ := hr.kept hp
      exact ⟨k1 ▸ hd, k2 ▸ h1, k2 ▸ h2, k3 ▸ ht⟩
    · obtain ⟨k1, k2, k3, -, -⟩ := hr.lost hp
      exact ⟨k1 ▸ dirWf_nil, by omega, by rw [k2]; decide, by omega⟩
  | writes _ tag key x w u _ _ _ hw he _ =>
    rw [he]
    cases hw with
    | same _ env _ => rw [env]; exact h
    | dayClose env _ => rw [env]; exact Env.sound_nextDay h
    | setMask _ env _ => rw [env]; exact h
    | clearCauses env _ => rw [env]; exact h
    | orderClose _ env _ => rw [env]; exact h
    | schedule _ env _ => rw [env]; exact h
    | threshold v env _ =>
      obtain ⟨hd, h1, h2, -⟩ := h
      rw [env]
      exact ⟨hd, h1, h2, Nat.le_max_left 1 v⟩
    | assign b p q _ env _ => rw [env]; exact ⟨dirWf_dirClear b h.1, h.2⟩

end Sys2Proof.Machine
end

section
-- One declaration after the other: the stacks of the threads that wait for each other count against the check's memory limit.
set_option Elab.async false
namespace Sys2Proof.Machine

/-! ## The Fee Unit's operations, case by case -/

/-- R144: without an open order for the instrument a new one is opened. -/
theorem Fee.settleOrder_opens {f : Fee} {x : Offer} (h : f.hasOrder x = false) (now : Nat) :
    f.settleOrder now x = { f with
      orders := put f.orders x.station (some (x.open now)), recent := put f.recent x.station []
      tallies := f.tallies.countOrder x.station } :=
  if_neg (by simp [h])

theorem Fee.hasOrder_eq_true {f : Fee} {x : Offer} (h : f.hasOrder x = true) :
    ∃ o, look f.orders x.station = some o ∧ o.serves x = true := by
  unfold Fee.hasOrder at h
  simpa [Option.any_eq_true] using h

/-- R147: the page total of an order's next page. -/
def Fee.pageTotal (f : Fee) (x : Offer) (o : Order) : Nat :=
  (look f.schedule.lines o.cls).charge o + if o.takesSurcharge x then f.schedule.surcharge else 0

/-- R146 to R148: a page that is not recent is charged to the station's open order. -/
theorem Fee.chargePage_charges {f : Fee} {x : Offer} {o : Order} (ho : look f.orders x.station = some o)
    (hx : x.frame ∉ look f.recent x.station) (now : Nat) :
    f.chargePage now x = ({ f with
      orders := put f.orders x.station (some (o.charged x now ((look f.schedule.lines o.cls).charge o)))
      recent := put f.recent x.station (joinRecent (look f.recent x.station) x.frame)
      tallies := f.tallies.countPage x.station o.cls (f.pageTotal x o) (o.takesSurcharge x) }, ⟨true, f.pageTotal x o⟩) := by
  unfold Fee.chargePage
  rw [ho]
  exact if_neg hx

theorem Fee.chargePage_none {f : Fee} {x : Offer} (ho : look f.orders x.station = none) (now : Nat) : f.chargePage now x = (f, ⟨false, 0⟩) := by
  unfold Fee.chargePage
  rw [ho]

/-! ## The schedule write -/

/-- R141, R150: what a schedule write does to one station. -/
def Fee.retime (c : Schedule) (now : Nat) (f : Fee) (s : Station) : Fee :=
  match look f.orders s with
  | some o => if o.overdue c now then f.closeOrder s else { f with orders := put f.orders s (some (o.capTo c)) }
  | none => f

theorem Fee.writeSchedule_eq (f : Fee) (now : Nat) (d : ScheduleData) :
    f.writeSchedule now d = allStations.foldl (Fee.retime (clampSchedule d) now) { f with schedule := clampSchedule d } := rfl

/-- R141, R150: an order after a schedule write. -/
def Order.retimed (c : Schedule) (now : Nat) (o : Order) : Option Order := if o.overdue c now then none else some (o.capTo c)

theorem Fee.retime_same (c : Schedule) (now : Nat) (f : Fee) (s : Station) :
    look (f.retime c now s).orders s = (look f.orders s).bind (Order.retimed c now)
      ∧ look (f.retime c now s).recent s = if (look f.orders s).any (Order.overdue c now) then [] else look f.recent s := by
  unfold Fee.retime
  cases ho : look f.orders s with
  | none => simp [ho]
  | some o => by_cases h : o.overdue c now = true <;> simp [h, Fee.closeOrder, Order.retimed]

theorem Fee.retime_others (c : Schedule) (now : Nat) (f : Fee) {s k : Station} (h : k ≠ s) :
    look (f.retime c now s).orders k = look f.orders k ∧ look (f.retime c now s).recent k = look f.recent k := by
  unfold Fee.retime
  cases ho : look f.orders s with
  | none => simp
  | some o => by_cases hd : o.overdue c now = true <;> simp [hd, Fee.closeOrder, look_put, Ne.symm h]

theorem Fee.retime_rest (c : Schedule) (now : Nat) (f : Fee) (s : Station) :
    (f.retime c now s).schedule = f.schedule ∧ (f.retime c now s).tallies = f.tallies ∧ (f.retime c now s).closedTallies = f.closedTallies
      ∧ (f.retime c now s).closedDay = f.closedDay := by
  unfold Fee.retime
  (repeat' split) <;> exact ⟨rfl, rfl, rfl, rfl⟩

theorem Fee.retimes_rest (c : Schedule) (now : Nat) (ks : List Station) : ∀ f : Fee,
    let g := ks.foldl (Fee.retime c now) f
    g.schedule = f.schedule ∧ g.tallies = f.tallies ∧ g.closedTallies = f.closedTallies ∧ g.closedDay = f.closedDay := by
  induction ks with
  | nil => exact fun f => ⟨rfl, rfl, rfl, rfl⟩
  | cons s ks ih =>
    intro f
    obtain ⟨h1, h2, h3, h4⟩ := ih (f.retime c now s)
    obtain ⟨k1, k2, k3, k4⟩ := f.retime_rest c now s
    exact ⟨h1.trans k1, h2.trans k2, h3.trans k3, h4.trans k4⟩

theorem Fee.retimes_others (c : Schedule) (now : Nat) {k : Station} : ∀ (ks : List Station) (f : Fee), k ∉ ks →
    look (ks.foldl (Fee.retime c now) f).orders k = look f.orders k ∧ look (ks.foldl (Fee.retime c now) f).recent k = look f.recent k
  | [], _, _ => ⟨rfl, rfl⟩
  | s :: ks, f, h => by
    obtain ⟨h1, h2⟩ := Fee.retimes_others c now ks (f.retime c now s) fun hk => h (.tail _ hk)
    obtain ⟨k1, k2⟩ := f.retime_others c now (s := s) (k := k) fun hk => h (hk ▸ .head _)
    exact ⟨h1.trans k1, h2.trans k2⟩

/-- R141, R150: each station is taken once. -/
theorem Fee.retimes_mem (c : Schedule) (now : Nat) {k : Station} : ∀ (ks : List Station) (f : Fee), ks.Nodup → k ∈ ks →
    look (ks.foldl (Fee.retime c now) f).orders k = (look f.orders k).bind (Order.retimed c now)
      ∧ look (ks.foldl (Fee.retime c now) f).recent k = if (look f.orders k).any (Order.overdue c now) then [] else look f.recent k
  | s :: ks, f, hn, hk => by
    rw [List.nodup_cons] at hn
    rcases List.mem_cons.mp hk with rfl | hk
    · obtain ⟨h1, h2⟩ := Fee.retimes_others c now ks (f.retime c now k) hn.1
      obtain ⟨k1, k2⟩ := f.retime_same c now k
      exact ⟨h1.trans k1, h2.trans k2⟩
    · obtain ⟨h1, h2⟩ := Fee.retimes_mem c now ks (f.retime c now s) hn.2 hk
      obtain ⟨k1, k2⟩ := f.retime_others c now (s := s) (k := k) fun h => hn.1 (h ▸ hk)
      rw [k1] at h1 h2
      rw [k2] at h2
      exact ⟨h1, h2⟩

theorem mem_allStations (k : Station) : k ∈ allStations := List.mem_finRange k

theorem nodup_allStations : allStations.Nodup := List.nodup_finRange 16

/-- R141, R150: what a schedule write leaves of each station's order and recent-page list. -/
theorem Fee.writeSchedule_station (f : Fee) (now : Nat) (d : ScheduleData) (k : Station) :
    look (f.writeSchedule now d).orders k = (look f.orders k).bind (Order.retimed (clampSchedule d) now)
      ∧ look (f.writeSchedule now d).recent k = if (look f.orders k).any (Order.overdue (clampSchedule d) now) then [] else look f.recent k :=
  Fee.retimes_mem (clampSchedule d) now allStations { f with schedule := clampSchedule d } nodup_allStations (mem_allStations k)

theorem Fee.writeSchedule_rest (f : Fee) (now : Nat) (d : ScheduleData) :
    (f.writeSchedule now d).schedule = clampSchedule d ∧ (f.writeSchedule now d).tallies = f.tallies
      ∧ (f.writeSchedule now d).closedTallies = f.closedTallies ∧ (f.writeSchedule now d).closedDay = f.closedDay :=
  Fee.retimes_rest (clampSchedule d) now allStations { f with schedule := clampSchedule d }

/-! ## Sums of the tallies -/

/-- A sum over a table with one entry replaced. -/
theorem sum_put {α : Type} {n : Nat} (g : α → Nat) (t : Vector α n) (i : Fin n) (a : α) :
    ((List.finRange n).map fun j => g (look (put t i a) j)).sum + g (look t i) = ((List.finRange n).map fun j => g (look t j)).sum + g a := by
  rw [← Fin.sum_univ_def, ← Fin.sum_univ_def, ← Finset.add_sum_erase _ _ (Finset.mem_univ i), ← Finset.add_sum_erase _ _ (Finset.mem_univ i)]
  have h : ∑ j ∈ Finset.univ.erase i, g (look (put t i a) j) = ∑ j ∈ Finset.univ.erase i, g (look t j) :=
    Finset.sum_congr rfl fun j hj => by rw [look_put_ne _ _ (Finset.ne_of_mem_erase hj).symm]
  rw [look_put_same, h]
  omega

/-- A table's sum rises with the entry that is replaced. -/
theorem sum_put_add {α : Type} {n : Nat} (g : α → Nat) (t : Vector α n) (i : Fin n) {a : α} {k : Nat} (h : g a = g (look t i) + k) :
    ((List.finRange n).map fun j => g (look (put t i a) j)).sum = ((List.finRange n).map fun j => g (look t j)).sum + k := by
  have := sum_put g t i a
  omega

theorem sum_put_eq {α : Type} {n : Nat} (g : α → Nat) (t : Vector α n) (i : Fin n) {a : α} (h : g a = g (look t i)) :
    ((List.finRange n).map fun j => g (look (put t i a) j)).sum = ((List.finRange n).map fun j => g (look t j)).sum :=
  sum_put_add g t i (k := 0) h

theorem satAdd_eq {max a k : Nat} (h : saturates max a k = false) : satAdd max a k = a + k := by
  simp only [saturates, decide_eq_false_iff_not] at h
  simp only [satAdd]
  omega

theorem satAdd_le (max a k : Nat) : satAdd max a k ≤ max := Nat.min_le_left ..

theorem Tallies.balanced_zero : Tallies.zero.balanced := fun _ => by
  refine ⟨?_, ?_, ?_, ?_, ?_⟩ <;> simp [Tallies.zero, allStations]

/-- R153: counting an order keeps the sums while no count saturates. -/
theorem Tallies.balanced_countOrder {t : Tallies} (h : t.balanced) (s : Station) : (t.countOrder s).balanced := by
  intro hs
  simp only [Tallies.countOrder, Bool.or_eq_false_iff] at hs
  obtain ⟨⟨hs, h1⟩, h2⟩ := hs
  obtain ⟨k1, k2, k3, k4, k5⟩ := h hs
  simp only [Tallies.countOrder, allStations, satAdd_eq h1, satAdd_eq h2] at *
  refine ⟨?_, ?_, ?_, k4, k5⟩
  · exact k1.trans (sum_put_eq StationTally.amount t.stations s (by rfl)).symm
  · exact k2.trans (sum_put_eq StationTally.pages t.stations s (by rfl)).symm
  · rw [sum_put_add StationTally.orders t.stations s (k := 1) rfl, k3]

/-- R153: counting a page keeps the sums while no accumulator saturates. -/
theorem Tallies.balanced_countPage {t : Tallies} (h : t.balanced) (s : Station) (c : FeeClass) (total : Nat) (certify : Bool) :
    (t.countPage s c total certify).balanced := by
  intro hs
  simp only [Tallies.countPage, Bool.or_eq_false_iff] at hs
  obtain ⟨⟨⟨⟨⟨⟨⟨hs, h1⟩, h2⟩, h3⟩, h4⟩, h5⟩, h6⟩, h7⟩ := hs
  obtain ⟨k1, k2, k3, k4, k5⟩ := h hs
  simp only [Tallies.countPage, allStations, satAdd_eq h1, satAdd_eq h2, satAdd_eq h3, satAdd_eq h4, satAdd_eq h5, satAdd_eq h6] at *
  refine ⟨?_, ?_, ?_, ?_, ?_⟩
  · rw [sum_put_add StationTally.amount t.stations s (k := total) rfl, k1]
  · rw [sum_put_add StationTally.pages t.stations s (k := 1) rfl, k2]
  · exact k3.trans (sum_put_eq StationTally.orders t.stations s (by rfl)).symm
  · rw [sum_put_add ClassTally.amount t.classes c (k := total) rfl, k4]
  · rw [sum_put_add ClassTally.pages t.classes c (k := 1) rfl, k5]

/-! ## The accounts stay sound -/

theorem Fee.sound.closeAll {f : Fee} (h : f.sound) : f.closeAll.sound where
  schedule := h.schedule
  order s o ho := by simp [Fee.closeAll] at ho
  recent s := by simp [Fee.closeAll, recentSound]
  tallies := h.tallies
  closed := h.closed

theorem recentSound_closed : recentSound none [] := ⟨Nat.zero_le _, List.nodup_nil, fun _ => rfl⟩

/-- The accounts stay sound where one station's order and list are replaced by sound ones. -/
theorem Fee.sound.station {f : Fee} (h : f.sound) (k : Station) {o : Option Order} {frames : List Nat} {t : Tallies}
    (ho : ∀ x, o = some x → x.sound ∧ x.withinCap f.schedule) (hr : recentSound o frames) (ht : t.balanced) :
    Fee.sound { f with orders := put f.orders k o, recent := put f.recent k frames, tallies := t } where
  schedule := h.schedule
  order s x hx := by
    rw [look_put] at hx
    split at hx
    · exact ho x hx
    · exact h.order s x hx
  recent s := by
    rw [look_put, look_put]
    split
    · exact hr
    · exact h.recent s
  tallies := ht
  closed := h.closed

theorem Fee.sound.closeOrder {f : Fee} (h : f.sound) (k : Station) : (f.closeOrder k).sound :=
  h.station k (fun _ hx => nomatch hx) recentSound_closed h.tallies

theorem Fee.sound_blank : Fee.blank.sound where
  schedule := by refine ⟨fun k => ?_, ?_, ?_, ?_⟩ <;> simp [Fee.blank, Schedule.blank, FeeLine.sound]
  order s o ho := by simp [Fee.blank] at ho
  recent s := by simp [Fee.blank, recentSound]
  tallies := Tallies.balanced_zero
  closed := Tallies.balanced_zero

theorem Schedule.sound_clamp (d : ScheduleData) : (clampSchedule d).sound := by
  refine ⟨fun k => ?_, ?_, ?_, ?_⟩ <;> simp only [clampSchedule, look_map, FeeLine.sound, clampLine] <;> omega

theorem Order.sound_capTo {o : Order} (h : o.sound) (c : Schedule) : (o.capTo c).sound ∧ (o.capTo c).withinCap c := by
  have hle : (o.capTo c).amount ≤ o.amount := by simp only [Order.capTo]; split <;> omega
  refine ⟨⟨h.pages, h.mode, hle.trans h.amountTop, h.pagesTop⟩, fun hc => ?_⟩
  simp only [Order.capTo] at hc ⊢
  rw [if_pos hc]
  exact Nat.min_le_right ..

theorem Fee.sound.writeSchedule {f : Fee} (h : f.sound) (now : Nat) (d : ScheduleData) : (f.writeSchedule now d).sound := by
  obtain ⟨hc, ht, hct, -⟩ := f.writeSchedule_rest now d
  refine ⟨by rw [hc]; exact Schedule.sound_clamp d, fun k o ho => ?_, fun k => ?_, by rw [ht]; exact h.tallies, by rw [hct]; exact h.closed⟩
  · rw [(f.writeSchedule_station now d k).1] at ho
    obtain ⟨o', ho', hr⟩ := Option.bind_eq_some_iff.mp ho
    unfold Order.retimed at hr
    split at hr <;> cases hr
    rw [hc]
    exact Order.sound_capTo (h.order k o' ho').1 _
  · obtain ⟨h1, h2⟩ := f.writeSchedule_station now d k
    obtain ⟨hl, hn, he⟩ := h.recent k
    rw [h1, h2]
    cases ho : look f.orders k with
    | none => exact ⟨hl, hn, fun _ => he ho⟩
    | some o =>
      by_cases hd : o.overdue (clampSchedule d) now = true
      · simp [hd, Order.retimed, recentSound]
      · simp only [hd, Order.retimed, Option.bind_some, Option.any_some]
        exact ⟨hl, hn, nofun⟩

theorem Fee.sound.closeDay {f : Fee} (h : f.sound) (day : Nat) : (f.closeDay day).sound where
  schedule := h.schedule
  order := h.closeAll.order
  recent := h.closeAll.recent
  tallies := Tallies.balanced_zero
  closed := h.tallies

/-! ### An offer -/

/-- R143: a recent-page list that a charged frame joins. -/
theorem recentSound_join {frames : List Nat} {f : Nat} (hl : frames.length ≤ Config.recentPages) (hn : frames.Nodup) (hf : f ∉ frames)
    (o : Order) : recentSound (some o) (joinRecent frames f) := by
  refine ⟨?_, ?_, nofun⟩
  · unfold joinRecent
    simp only [Config.recentPages] at *
    by_cases hc : 32 ≤ frames.length <;> simp [hc] <;> omega
  · unfold joinRecent
    refine List.nodup_append.mpr ⟨?_, List.nodup_singleton f, ?_⟩
    · split
      · exact hn.sublist (List.drop_sublist ..)
      · exact hn
    · rintro a ha b hb rfl
      rw [List.mem_singleton] at hb
      subst hb
      split at ha
      · exact hf (List.mem_of_mem_drop ha)
      · exact hf ha

/-- R144, R147: what an order that the next page is charged to needs: a sound one has it, and a new one. -/
structure Order.ready (c : Schedule) (x : Offer) (o : Order) : Prop where
  mode : o.certified = o.surcharged ∨ o.certified = x.certified ∧ o.surcharged = false
  cap : o.withinCap c

theorem Order.sound_charged {o : Order} {c : Schedule} {x : Offer} (h : o.ready c x) (now : Nat) :
    (o.charged x now ((look c.lines o.cls).charge o)).sound ∧ (o.charged x now ((look c.lines o.cls).charge o)).withinCap c := by
  refine ⟨⟨?_, ?_, satAdd_le .., satAdd_le ..⟩, fun hc => ?_⟩
  · simp [Order.charged, satAdd, Config.max16]
  · simp only [Order.charged, Order.takesSurcharge]
    rcases h.mode with hm | ⟨hm, hs⟩
    · rw [hm]; cases o.surcharged <;> cases x.certified <;> rfl
    · rw [hm, hs]; cases x.certified <;> rfl
  · have hle := FeeLine.amount_add_charge_le hc (h.cap hc)
    simp only [Order.charged, satAdd] at *
    omega

/-- R145 to R148: charging a page keeps the accounts sound. -/
theorem Fee.sound.charged {f : Fee} {x : Offer} {o : Order} (h : f.sound) (ho : o.ready f.schedule x) {frames : List Nat} {t : Tallies}
    (hl : frames.length ≤ Config.recentPages) (hn : frames.Nodup) (hx : x.frame ∉ frames) (ht : t.balanced) (now total : Nat) (certify : Bool) :
    Fee.sound { f with
      orders := put f.orders x.station (some (o.charged x now ((look f.schedule.lines o.cls).charge o)))
      recent := put f.recent x.station (joinRecent frames x.frame)
      tallies := t.countPage x.station o.cls total certify } := by
  refine h.station x.station ?_ (recentSound_join hl hn hx _) (Tallies.balanced_countPage ht _ _ _ _)
  rintro _ ⟨⟩
  exact Order.sound_charged ho now

theorem put_put {α : Type} {n : Nat} (t : Vector α n) (i : Fin n) (a b : α) : put (put t i a) i b = put t i b := by
  simp [put]

theorem Fee.sound.chargePage_settleOrder {f : Fee} (h : f.sound) (now : Nat) (x : Offer) : ((f.settleOrder now x).chargePage now x).1.sound := by
  cases hx : f.hasOrder x with
  | true =>
    obtain ⟨o, ho, hs⟩ := Fee.hasOrder_eq_true hx
    rw [Fee.settleOrder_serves ho hs]
    by_cases hr : x.frame ∈ look f.recent x.station
    · rw [Fee.chargePage_recent hr]; exact h
    · rw [Fee.chargePage_charges ho hr]
      obtain ⟨hso, hc⟩ := h.order x.station o ho
      exact h.charged ⟨.inl hso.mode, hc⟩ (h.recent _).1 (h.recent _).2.1 hr h.tallies ..
  | false =>
    rw [Fee.settleOrder_opens hx, Fee.chargePage_charges (look_put_same ..) (by simp)]
    simp only [put_put, look_put_same]
    exact h.charged (o := x.open now) ⟨.inr ⟨rfl, rfl⟩, fun _ => Nat.zero_le _⟩ (Nat.zero_le _) List.nodup_nil List.not_mem_nil
      (Tallies.balanced_countOrder h.tallies _) _ _ _

theorem Fee.sound.take {f : Fee} (h : f.sound) (now : Nat) (hold : Bool) (x : Offer) : (f.take now hold x).1.sound := by
  have hk := h.chargePage_settleOrder now x
  cases hold
  · exact hk
  · exact hk.closeOrder x.station

theorem Fee.sound.offered {f g : Fee} {now : Nat} {hold : Bool} (h : f.sound) (k : f.Offered g now hold) : g.sound := by
  rcases k with rfl | ⟨o, rfl⟩
  · exact h
  · exact h.take now hold o

theorem exec_keeps_fee_sound {c : Instr} {s t : State} (h : s.fee.sound) (hx : exec c s = .next t) : t.fee.sound := by
  have writes {x : Frame → Prop} {R : InService → Prop} (hw : s.Writes t R x) : t.fee.sound := by
    obtain ⟨_, _, _, _, _, -, -, -, -, -, hf⟩ := hw
    rw [hf]; exact h
  cases exec_accounts hx with
  | onlyTime _ k => rw [k.fee]; exact h
  | files _ hw => exact writes hw
  | spends _ _ _ hw => exact writes hw
  | loses _ _ hl =>
    obtain ⟨_, _, _, _, _, -, -, -, -, -, hf⟩ := hl
    rw [hf]; exact h
  | offers _ _ _ o hf => rw [hf]; exact h.take _ _ o
  | closes k _ hf => rw [hf]; exact h.closeOrder k
  | notes _ _ _ _ hf => rw [hf]; exact h
  | holds _ _ _ hf =>
    rcases hf with ⟨g, hg, hf⟩ | hf
    · rw [hf]; exact (h.offered hg).closeAll
    · exact h.closeAll.offered hf
  | resumes _ _ hf => rw [hf]; exact h
  | starts _ _ _ k => rw [k.fee]; exact h
  | resets _ i hr =>
    by_cases hp : (s.env.formatMarker = true ∧ i.memoryKept = true) ∨ i.cut = some 0
    · rw [(hr.kept hp).2.2.2.2]; exact h.closeAll
    · rw [(hr.lost hp).2.2.2.2]; exact Fee.sound_blank
  | writes _ tag key x w u _ _ _ hw _ hf =>
    rw [hf]
    cases hw with
    | same _ _ fee => rw [fee]; exact h
    | dayClose _ fee => rw [fee]; exact h.closeDay _
    | setMask _ _ fee => rw [fee]; exact h
    | clearCauses _ fee => rw [fee]; exact h
    | orderClose k _ fee => rw [fee]; exact h.closeOrder k
    | schedule d _ fee => rw [fee]; exact h.writeSchedule _ d
    | threshold v _ fee => rw [fee]; exact h
    | assign b p q _ _ fee => rw [fee]; exact h

/-- Settles O56: the accounts change only by offers, closings, schedule writes, day closes and the defaults, each of which keeps them sound. -/
theorem stepKeepsAccountsSound : Obligations.StepKeepsAccountsSound := by
  unfold Obligations.StepKeepsAccountsSound
  intro s t h hs
  rcases step_cases hs with rfl | ⟨c, rest, hx⟩
  · exact h
  · exact exec_keeps_fee_sound (s := { s with pending := rest }) h hx

end Sys2Proof.Machine
end

section
-- One declaration after the other: the stacks of the threads that wait for each other count against the check's memory limit.
set_option Elab.async false
namespace Sys2Proof.Machine

/-! # What the parts of an event keep

`Library.Calm a b` says what nearly every part of an event, a reaction or an own effect, keeps of the library: the bounds of the queue and the log (`Bounds`), CLOSED
books and the first fault (`Steady`), the roles (`RolesCalm`), and the FILEs with their marks (`FilesCalm`). The parts that do more are taken one by one. -/

/-- R167, R178, R128: the rescue queue within its size and without duplicates, the later count within its field, and the copy of the escalation flag. -/
structure Library.Bounds (a b : Library) : Prop where
  queue : a.care.queue.length ≤ Config.queueSlots ∧ a.care.queue.Nodup → b.care.queue.length ≤ Config.queueSlots ∧ b.care.queue.Nodup
  later : a.log.laterCount ≤ Config.max8 → b.log.laterCount ≤ Config.max8
  copy : a.scheduler.escalation = a.buffer.escalation → b.scheduler.escalation = b.buffer.escalation

/-- R5, R178: CLOSED books and a first-fault record are kept as well. -/
structure Library.Steady (a b : Library) : Prop extends Library.Bounds a b where
  closed : ∀ k, (a.book k).state = .closed → (b.book k).state = .closed
  first : ∀ r, a.log.first = some r → b.log.first = some r

/-- What a rescue record says of the sides: its course is left out. -/
def RescueRecord.sides (r : RescueRecord) : RescueRecord := { r with copyMark := 0, stopped := false }

/-- The roles, the sides and the states of the books, and the sides of the rescue are kept. -/
structure Library.RolesCalm (a b : Library) : Prop where
  roles : b.roles = a.roles
  primary : ∀ k, (b.book k).primary = (a.book k).primary
  twin : ∀ k, (b.book k).twin = (a.book k).twin
  state : ∀ k, (b.book k).state = (a.book k).state
  rescue : b.care.rescue.map RescueRecord.sides = a.care.rescue.map RescueRecord.sides

/-- What the invariant of the FILEs looks at in a FILE: its book, its frame, and whether it is being written. -/
def Library.fileKey (l : Library) (t : Tag) : Option (Book × Nat × Bool) :=
  (l.fileOf t).map fun p => (p.2.book, p.2.frame, p.2.phase == .writing)

/-- An entry holds the record of its own tag. -/
def Library.TagsSound (l : Library) : Prop := ∀ t x, l.entry t = some x → x.record.tag = t

/-- R28: the responses that wait are those of requests that have ended, one for each. -/
def Library.EndedSound (l : Library) : Prop :=
  ((l.front.responses ++ l.front.ending).map Response.tag).Nodup
    ∧ ∀ r ∈ l.front.responses ++ l.front.ending, ∃ x, l.entry r.tag = some x ∧ x.ended ≠ none

/-- The FILEs, the marks that count them, the primary writes in progress and the responses of ended requests stay in agreement, because nothing of them changes but
twin marks below filing marks and requests without FILEs. -/
structure Library.FilesCalm (a b : Library) : Prop where
  intake : ∀ k, (b.book k).intake = (a.book k).intake
  filing : ∀ k, (b.book k).filing = (a.book k).filing
  state : ∀ k, (b.book k).state = (a.book k).state
  twinTop : ∀ k, (a.book k).twinMark ≤ (a.book k).filing → (b.book k).twinMark ≤ (b.book k).filing
  alone : ∀ k, (b.book k).twin = none → (a.book k).twin = none ∧ (b.book k).twinMark = (a.book k).twinMark
  files : ∀ t, b.fileKey t = a.fileKey t
  write : ∀ d v t k f, (b.drive d).service = some v → v.command = .primaryWrite t k f →
    ∃ v', (a.drive d).service = some v' ∧ v'.command = .primaryWrite t k f
  tags : a.TagsSound → b.TagsSound
  ended : a.TagsSound → a.EndedSound → b.EndedSound

structure Library.Calm (a b : Library) : Prop extends Library.Steady a b, Library.RolesCalm a b, Library.FilesCalm a b

theorem Library.Bounds.trans {a b c : Library} (h : a.Bounds b) (k : b.Bounds c) : a.Bounds c :=
  ⟨k.queue ∘ h.queue, k.later ∘ h.later, k.copy ∘ h.copy⟩

theorem Library.Steady.trans {a b c : Library} (h : a.Steady b) (k : b.Steady c) : a.Steady c :=
  ⟨h.toBounds.trans k.toBounds, fun i => k.closed i ∘ h.closed i, fun r => k.first r ∘ h.first r⟩

theorem Library.RolesCalm.trans {a b c : Library} (h : a.RolesCalm b) (k : b.RolesCalm c) : a.RolesCalm c :=
  ⟨k.roles.trans h.roles, fun i => (k.primary i).trans (h.primary i), fun i => (k.twin i).trans (h.twin i),
    fun i => (k.state i).trans (h.state i), k.rescue.trans h.rescue⟩

theorem Library.FilesCalm.trans {a b c : Library} (h : a.FilesCalm b) (k : b.FilesCalm c) : a.FilesCalm c where
  intake i := (k.intake i).trans (h.intake i)
  filing i := (k.filing i).trans (h.filing i)
  state i := (k.state i).trans (h.state i)
  twinTop i := k.twinTop i ∘ h.twinTop i
  alone i hi := ⟨(h.alone i (k.alone i hi).1).1, (k.alone i hi).2.trans (h.alone i (k.alone i hi).1).2⟩
  files t := (k.files t).trans (h.files t)
  write d v t b f hv hc := by
    obtain ⟨v', hv', hc'⟩ := k.write d v t b f hv hc
    exact h.write d v' t b f hv' hc'
  tags := k.tags ∘ h.tags
  ended ht he := k.ended (h.tags ht) (h.ended ht he)

theorem Library.Calm.trans {a b c : Library} (h : a.Calm b) (k : b.Calm c) : a.Calm c :=
  { h.toSteady.trans k.toSteady, h.toRolesCalm.trans k.toRolesCalm, h.toFilesCalm.trans k.toFilesCalm with }

theorem Library.fileKey_congr {a b : Library} {t : Tag} (h : b.entry t = a.entry t) : b.fileKey t = a.fileKey t := by
  simp only [Library.fileKey, Library.fileOf, h]

/-- An update of blocks that hold neither books, requests nor drives. -/
theorem Library.FilesCalm.of_same {a b : Library} (books : b.books = a.books := by rfl) (table : b.front.table = a.front.table := by rfl)
    (responses : b.front.responses = a.front.responses := by rfl) (ending : b.front.ending = a.front.ending := by rfl)
    (drives : b.drives = a.drives := by rfl) : a.FilesCalm b := by
  have hbook : ∀ k, b.book k = a.book k := fun k => by unfold Library.book; rw [books]
  have hentry : ∀ t, b.entry t = a.entry t := fun t => by unfold Library.entry; rw [table]
  have hdrive : ∀ d, b.drive d = a.drive d := fun d => by unfold Library.drive; rw [drives]
  exact
    { intake := fun k => by rw [hbook]
      filing := fun k => by rw [hbook]
      state := fun k => by rw [hbook]
      twinTop := fun k => by rw [hbook]; exact id
      alone := fun k => by rw [hbook]; exact fun h => ⟨h, rfl⟩
      files := fun t => Library.fileKey_congr (hentry t)
      write := fun d v t k f => by rw [hdrive]; exact fun h h' => ⟨v, h, h'⟩
      tags := fun h t x => by rw [hentry]; exact h t x
      ended := fun _ h => by
        unfold Library.EndedSound at *
        simp only [hentry, responses, ending]
        exact h }

/-- An update of blocks, or of parts of them, that none of the relations looks at. -/
theorem Library.Calm.of_same {a b : Library} (books : b.books = a.books := by rfl) (roles : b.roles = a.roles := by rfl)
    (rescue : b.care.rescue = a.care.rescue := by rfl) (queue : b.care.queue = a.care.queue := by rfl) (log : b.log = a.log := by rfl)
    (esc : b.buffer.escalation = a.buffer.escalation := by rfl) (copy : b.scheduler.escalation = a.scheduler.escalation := by rfl)
    (table : b.front.table = a.front.table := by rfl) (responses : b.front.responses = a.front.responses := by rfl)
    (ending : b.front.ending = a.front.ending := by rfl) (drives : b.drives = a.drives := by rfl) : a.Calm b := by
  have hbook : ∀ k, b.book k = a.book k := fun k => by unfold Library.book; rw [books]
  exact
    { Library.FilesCalm.of_same books table responses ending drives with
      queue := by rw [queue]; exact id
      later := by rw [log]; exact id
      copy := by rw [esc, copy]; exact id
      closed := fun k => by rw [hbook]; exact id
      first := fun r => by rw [log]; exact id
      roles := roles
      primary := fun k => by rw [hbook]
      twin := fun k => by rw [hbook]
      rescue := by rw [rescue] }

theorem Library.Calm.refl (a : Library) : a.Calm a := .of_same

theorem Library.Calm.foldl {α : Type} {f : Library → α → Library} (h : ∀ (l : Library) x, l.Calm (f l x)) (xs : List α) (l : Library) :
    l.Calm (xs.foldl f l) :=
  List.foldlRecOn (motive := fun m => l.Calm m) xs f (.refl l) fun m hm x _ => hm.trans (h m x)

theorem KeptMost.steady {e : Env} {a b : Library} (h : KeptMost a b) (k : KeptCare e a b) : a.Steady b where
  queue hq := ⟨k.queue.length_le.trans hq.1, hq.2.sublist k.queue⟩
  later hl := (h.laterCount hl).2
  copy hc := by rw [h.escalationCopy, h.escalation, hc]
  closed i hi := (h.state i).trans hi
  first := h.first

theorem Kept.steady {e : Env} {a b : Library} (h : Kept e a b) : a.Steady b := h.toKeptMost.steady h.toKeptCare

theorem KeptBut.steady {e : Env} {a b : Library} (h : KeptBut e a b) : a.Steady b := h.toKeptMost.steady h.toKeptCare

theorem Settled.steady {e : Env} {a b : Library} (h : Settled e a b) : a.Steady b := h.toKeptMost.steady h.toKeptCare

/-! ## The updates of one entry, one drive, one book -/

variable (e : Env) (l : Library)

theorem calm_setItems (s : Side) (x : List Item) : l.Calm (l.setItems s x) := .of_same
theorem calm_place (s : Side) (k : ItemKind) : l.Calm (l.place e s k) := .of_same
theorem calm_giveBack (s : Side) (i : Item) : l.Calm (l.giveBack s i) := .of_same
theorem calm_withdraw (s : Side) (k : ItemKind) : l.Calm (l.withdraw s k) := .of_same
theorem calm_withdrawAll (p : ItemKind → Bool) : l.Calm (l.withdrawAll p) := .of_same
theorem calm_callDecision : l.Calm l.callDecision := .of_same
theorem calm_callPatrol : l.Calm l.callPatrol := .of_same
theorem calm_callRescue : l.Calm l.callRescue := .of_same
theorem calm_setTwin (b : Book) (x : TwinRecord) : l.Calm (l.setTwin b x) := .of_same
theorem calm_setHealth (s : Side) (x : Health) : l.Calm (l.setHealth s x) := .of_same
theorem calm_setLocation (s : Slot) (x : Location) : l.Calm (l.setLocation s x) := .of_same
theorem calm_setSeated (s : Slot) (x : Bool) : l.Calm (l.setSeated s x) := .of_same
theorem calm_mapBatch (f : BatchFrame → BatchFrame) : l.Calm (l.mapBatch f) := .of_same
theorem calm_emit (o : Output) : l.Calm (l.emit o) := .of_same
theorem calm_picker (p : Picker) : l.Calm { l with picker := p } := .of_same

theorem calm_fault (r : FaultRecord) : l.Calm (l.fault e r) :=
  { Library.Calm.refl l with
    later := (kept_fault e l r).steady.later
    first := (kept_fault e l r).steady.first }

/-- Of a drive only a primary write in progress is looked at. -/
theorem calm_setDrive {d : Drive} {y : DriveRecord}
    (h : ∀ v t k f, y.service = some v → v.command = .primaryWrite t k f →
      ∃ v', (l.drive d).service = some v' ∧ v'.command = .primaryWrite t k f) : l.Calm (l.setDrive d y) :=
  { Library.Calm.refl l with
    write := fun d' v t k f => by
      rw [Library.drive_setDrive]
      split
      next hd => subst hd; exact h v t k f
      next => exact fun hv hc => ⟨v, hv, hc⟩ }

theorem calm_setDrive_same {d : Drive} {y : DriveRecord} (h : y.service = (l.drive d).service) : l.Calm (l.setDrive d y) :=
  calm_setDrive l fun v _ _ _ hv hc => ⟨v, h ▸ hv, hc⟩

theorem calm_setDrive_none {d : Drive} {y : DriveRecord} (h : y.service = none) : l.Calm (l.setDrive d y) :=
  calm_setDrive l fun v _ _ _ hv _ => by rw [h] at hv; cases hv

/-- Commands changed in place stay what they are where they are primary writes. -/
theorem calm_mapCommands {f : Command → Command} (h : ∀ c t k n, f c = .primaryWrite t k n → c = .primaryWrite t k n) :
    l.Calm (l.mapCommands f) :=
  { Library.Calm.refl l with
    write := fun d v t k n => by
      simp only [Library.drive, Library.mapCommands, look_map]
      intro hv hc
      obtain ⟨v', hv', rfl⟩ := Option.map_eq_some_iff.mp hv
      exact ⟨v', hv', h _ t k n hc⟩ }

theorem Library.entry_setEntry (t u : Tag) (x : Option Entry) : (l.setEntry t x).entry u = if t = u then x else l.entry u := look_put ..

/-- What the invariant of the FILEs looks at in an entry. -/
def Entry.fileKey (x : Entry) : Option (Book × Nat × Bool) :=
  if x.live then
    match x.job with
    | .file g => some (g.book, g.frame, g.phase == .writing)
    | _ => none
  else none

theorem Library.fileKey_eq (t : Tag) : l.fileKey t = (l.entry t).bind Entry.fileKey := by
  unfold Library.fileKey Library.fileOf
  cases l.entry t with
  | none => rfl
  | some x =>
    simp only [Option.bind_some, Entry.fileKey]
    split
    · cases x.job <;> rfl
    · rfl

/-- Of an entry its record, its FILE and its end are looked at. -/
theorem calm_setEntry {t : Tag} {x y : Entry} (h : l.entry t = some x) (hr : y.record = x.record) (hk : y.fileKey = x.fileKey)
    (he : y.ended = none → x.ended = none) : l.Calm (l.setEntry t (some y)) :=
  { Library.Calm.refl l with
    files := fun u => by
      rw [Library.fileKey_eq, Library.fileKey_eq, Library.entry_setEntry]
      split
      next hu => subst hu; rw [h]; exact hk
      next => rfl
    tags := fun ht u z => by
      rw [Library.entry_setEntry]
      split
      next hu => subst hu; rintro ⟨⟩; rw [hr]; exact ht _ _ h
      next => exact ht u z
    ended := fun _ ⟨hn, hl⟩ => by
      refine ⟨hn, fun r hr => ?_⟩
      obtain ⟨z, hz, hz'⟩ := hl r hr
      rw [Library.entry_setEntry]
      split
      next hu =>
        rw [← hu, h] at hz
        cases hz
        exact ⟨y, rfl, fun hy => hz' (he hy)⟩
      next => exact ⟨z, hz, hz'⟩ }

theorem Entry.setWindows_record (x : Entry) (ws : List Window) : (x.setWindows ws).record = x.record ∧ (x.setWindows ws).ended = x.ended
    ∧ (x.setWindows ws).fileKey = x.fileKey := by
  unfold Entry.setWindows
  split
  next hl =>
    split
    next g hg => exact ⟨rfl, rfl, by simp [Entry.fileKey, hg]⟩
    next => exact ⟨rfl, rfl, rfl⟩
  next => exact ⟨rfl, rfl, rfl⟩

theorem calm_setWindows (t : Tag) (ws : List Window) : l.Calm (l.setWindows t ws) := by
  unfold Library.setWindows
  split
  next x hx =>
    obtain ⟨hr, he, hk⟩ := x.setWindows_record ws
    exact calm_setEntry l hx hr hk (by rw [he]; exact id)
  next => exact .refl l

theorem calm_setWindow (t : Tag) (w : Window) : l.Calm (l.setWindow t w) := calm_setWindows l t _

theorem Command.orphanFetch_primaryWrite (t : Tag) (w : Window) (n : Option Nat) (c : Command) (u : Tag) (k : Book) (f : Nat)
    (h : Command.orphanFetch t w n c = .primaryWrite u k f) : c = .primaryWrite u k f := by
  unfold Command.orphanFetch at h
  split at h
  · split at h <;> cases h
  · exact h

theorem calm_release (t : Tag) (w : Window) (n : Option Nat) : l.Calm (l.release t w n) := by
  unfold Library.release
  have h1 : l.Calm (match w.item with
    | some s => l.withdraw s (.fetch t w.book w.frame)
    | none => l) := by
    split
    · exact calm_withdraw l _ _
    · exact .refl l
  dsimp only
  split
  · exact h1.trans (calm_mapCommands _ fun c u k f => Command.orphanFetch_primaryWrite t w n c u k f)
  · exact h1

/-- A book entry that is replaced: its sides, its state and the marks that count its FILEs stay. -/
theorem calm_setBook {b : Book} {k : BookEntry} (hp : k.primary = (l.book b).primary) (ht : k.twin = (l.book b).twin)
    (hs : k.state = (l.book b).state) (hf : k.filing = (l.book b).filing) (hi : k.intake = (l.book b).intake)
    (htop : (l.book b).twinMark ≤ (l.book b).filing → k.twinMark ≤ k.filing) (ha : k.twin = none → k.twinMark = (l.book b).twinMark) :
    l.Calm (l.setBook b k) := by
  have hb : ∀ c, (l.setBook b k).book c = if b = c then k else l.book c := fun c => look_put ..
  have each {P : Book → BookEntry → Prop} (h0 : P b k) (h : ∀ c, P c (l.book c)) : ∀ c, P c ((l.setBook b k).book c) := fun c => by
    rw [hb c]
    split
    next hc => subst hc; exact h0
    next => exact h c
  exact
    { Library.Calm.refl l with
      closed := each (P := fun c x => (l.book c).state = .closed → x.state = .closed) (by rw [hs]; exact id) fun _ => id
      primary := each (P := fun c x => x.primary = (l.book c).primary) hp fun _ => rfl
      twin := each (P := fun c x => x.twin = (l.book c).twin) ht fun _ => rfl
      state := each (P := fun c x => x.state = (l.book c).state) hs fun _ => rfl
      intake := each (P := fun c x => x.intake = (l.book c).intake) hi fun _ => rfl
      filing := each (P := fun c x => x.filing = (l.book c).filing) hf fun _ => rfl
      twinTop := each (P := fun c x => (l.book c).twinMark ≤ (l.book c).filing → x.twinMark ≤ x.filing) htop fun _ => id
      alone := each (P := fun c x => x.twin = none → (l.book c).twin = none ∧ x.twinMark = (l.book c).twinMark)
        (fun h => ⟨ht ▸ h, ha h⟩) fun _ h => ⟨h, rfl⟩ }

/-! ## The end of a request -/

/-- R44: what the end of a request leaves to a table whose demand has been withdrawn. -/
def Library.closeEntry (l : Library) (t : Tag) (y : Entry) (o : Outcome) : Library :=
  { l with
    front := { l.front with
      table := put l.front.table t (some y)
      ready := l.front.ready.filter fun j => j.tag != t
      ending := l.front.ending ++ [y.response o] }
    buffer := { l.buffer with
      lookWait := l.buffer.lookWait.filter fun u => u != t
      deliveryWait := l.buffer.deliveryWait.filter fun u => u.tag != t } }

theorem Library.endRequest_eq {t : Tag} {x : Entry} (h : l.entry t = some x) (o : Outcome) (moved discard : Nat) :
    ∃ m, l.Calm m ∧ m.entry = l.entry ∧ l.endRequest t o moved discard = m.closeEntry t (x.end_ o moved discard) o := by
  unfold Library.endRequest
  rw [h]
  refine ⟨_, ?_, ?_, rfl⟩
  · exact (Library.Calm.foldl (fun l w => calm_release l t w none) x.windows l).trans (calm_withdrawAll _ _)
  · funext u
    exact ((onlyDemand_releases t none x.windows l).trans (onlyDemand_withdrawAll _ _)).entry u

theorem Library.entry_closeEntry (t u : Tag) (y : Entry) (o : Outcome) :
    (l.closeEntry t y o).entry u = if t = u then some y else l.entry u := look_put ..

theorem Entry.end_fileKey (x : Entry) (o : Outcome) (moved discard : Nat) : (x.end_ o moved discard).fileKey = none := by
  simp [Entry.fileKey, Entry.end_, Entry.live]

theorem tagsSound_closeEntry {t : Tag} {x : Entry} (h : l.entry t = some x) (o : Outcome) (moved discard : Nat) (ht : l.TagsSound) :
    (l.closeEntry t (x.end_ o moved discard) o).TagsSound := fun u z => by
  rw [Library.entry_closeEntry]
  split
  next hu => rintro ⟨⟩; exact hu ▸ ht t x h
  next => exact ht u z

/-- R44: the response of a request that ends is a new one, of a request that has ended. -/
theorem endedSound_closeEntry {t : Tag} {x : Entry} (h : l.entry t = some x) (hl : x.ended = none) (o : Outcome) (moved discard : Nat)
    (ht : l.TagsSound) (he : l.EndedSound) : (l.closeEntry t (x.end_ o moved discard) o).EndedSound := by
  obtain ⟨hn, hr⟩ := he
  have htag : ((x.end_ o moved discard).response o).tag = t := ht t x h
  have hnot : ∀ r ∈ l.front.responses ++ l.front.ending, r.tag ≠ t := by
    rintro r hm rfl
    obtain ⟨z, hz, hz'⟩ := hr r hm
    rw [h] at hz
    cases hz
    exact hz' hl
  have hlist : (l.closeEntry t (x.end_ o moved discard) o).front.responses ++ (l.closeEntry t (x.end_ o moved discard) o).front.ending
      = (l.front.responses ++ l.front.ending) ++ [(x.end_ o moved discard).response o] := (List.append_assoc ..).symm
  unfold Library.EndedSound
  rw [hlist]
  refine ⟨?_, fun r hm => ?_⟩
  · rw [List.map_append, List.nodup_append]
    refine ⟨hn, List.nodup_singleton _, ?_⟩
    rintro a ha b hb rfl
    obtain ⟨r, hm, rfl⟩ := List.mem_map.mp ha
    rw [List.map_singleton, List.mem_singleton, htag] at hb
    exact hnot r hm hb
  · rw [Library.entry_closeEntry]
    rcases List.mem_append.mp hm with hm | hm
    · rw [if_neg (hnot r hm).symm]
      exact hr r hm
    · rw [List.mem_singleton] at hm
      subst hm
      rw [htag, if_pos rfl]
      exact ⟨_, rfl, by simp [Entry.end_]⟩

/-- R44: the end of a request that is no FILE. -/
theorem calm_closeEntry {t : Tag} {x : Entry} (h : l.entry t = some x) (hl : x.ended = none) (hk : x.fileKey = none) (o : Outcome) (moved discard : Nat) :
    l.Calm (l.closeEntry t (x.end_ o moved discard) o) :=
  { Library.Calm.refl l with
    files := fun u => by
      rw [Library.fileKey_eq, Library.fileKey_eq, Library.entry_closeEntry]
      split
      next hu => subst hu; rw [h, Option.bind_some, Option.bind_some, hk, Entry.end_fileKey]
      next => rfl
    tags := tagsSound_closeEntry l h o moved discard
    ended := endedSound_closeEntry l h hl o moved discard }

theorem calm_endRequest {t : Tag} {x : Entry} (h : l.entry t = some x) (hl : x.ended = none) (hk : x.fileKey = none) (o : Outcome)
    (moved discard : Nat) : l.Calm (l.endRequest t o moved discard) := by
  obtain ⟨m, hm, he, hend⟩ := l.endRequest_eq h o moved discard
  rw [hend]
  exact hm.trans (calm_closeEntry m (by rw [he]; exact h) hl hk o moved discard)

/-- R44: the end of any request, a FILE too, keeps all but the FILEs. -/
theorem endRequest_keeps (t : Tag) (o : Outcome) (moved discard : Nat) :
    l.Steady (l.endRequest t o moved discard) ∧ l.RolesCalm (l.endRequest t o moved discard) := by
  cases h : l.entry t with
  | none => rw [endRequest_none h]; exact ⟨(Library.Calm.refl l).toSteady, (Library.Calm.refl l).toRolesCalm⟩
  | some x =>
    obtain ⟨m, hm, -, hend⟩ := l.endRequest_eq h o moved discard
    have hc : m.Calm { m.closeEntry t (x.end_ o moved discard) o with front := m.front } := .of_same
    rw [hend]
    exact ⟨hm.toSteady.trans ⟨⟨hc.queue, hc.later, hc.copy⟩, hc.closed, hc.first⟩,
      hm.toRolesCalm.trans ⟨hc.roles, hc.primary, hc.twin, (hc.toRolesCalm).state, hc.rescue⟩⟩

end Sys2Proof.Machine
end

section
-- One declaration after the other: the stacks of the threads that wait for each other count against the check's memory limit.
set_option Elab.async false
namespace Sys2Proof.Machine

variable (e : Env) (l : Library)

/-- The end of a live FETCH. -/
theorem calm_endFetch {t : Tag} {x : Entry} {g : Fetching} (h : l.entry t = some x) (hl : x.ended = none) (hj : x.job = .fetch g)
    (o : Outcome) : l.Calm (l.endRequest t o x.moved 0) :=
  calm_endRequest l h hl (by simp [Entry.fileKey, hj]) _ _ _

theorem calm_recordStop (t : Tag) (w : Window) (st : Stop) : l.Calm (l.recordStop t w st) := by
  unfold Library.recordStop
  dsimp only
  have h := Library.Calm.foldl (fun l v => calm_release l t v none) (windowsAbove w (l.windows t)) l
  generalize (windowsAbove w (l.windows t)).foldl (fun l v => l.release t v none) l = m at h
  refine h.trans ((calm_setWindows m t
    (windowsUpTo { w.withStop st with state := .stopped, item := none, reading := false } (l.windows t))).trans ?_)
  exact .of_same

/-! ## Sources -/

theorem calm_holdFallback (t : Tag) (w : Window) : l.Calm (l.holdFallback t w) := by
  unfold Library.holdFallback
  dsimp only
  split
  · exact calm_setWindow l t _
  · split
    · exact calm_setWindow l t _
    · exact calm_recordStop l t _ _

theorem calm_twinFallback (t : Tag) (w : Window) : l.Calm (l.twinFallback e t w) := by
  unfold Library.twinFallback
  split
  · exact calm_setWindow l t _
  · split
    · split
      · exact (calm_place e l _ _).trans (calm_setWindow _ t _)
      · exact calm_holdFallback l t w
    · exact calm_holdFallback l t w

theorem calm_source (t : Tag) (w : Window) : l.Calm (l.source e t w) := by
  unfold Library.source
  split
  · exact calm_setWindow l t _
  · split
    · split
      · exact (calm_place e l _ _).trans (calm_setWindow _ t _)
      · exact calm_twinFallback e l t w
    · exact calm_twinFallback e l t w

theorem calm_resolve (t : Tag) (w : Window) : l.Calm (l.resolve e t w) := by
  unfold Library.resolve
  dsimp only
  split
  · split
    · exact calm_setWindow l t _
    · exact calm_setWindow l t _
  · exact calm_setWindow l t _
  · exact calm_recordStop l t _ _
  · exact calm_source e l t _
  · exact calm_source e l t _

/-! ## Staging slots -/

theorem calm_openWindow (t : Tag) (w : Window) : l.Calm (l.openWindow e t w) := by
  unfold Library.openWindow
  dsimp only
  refine Library.Calm.trans (b := { l with buffer := { l.buffer with openings := l.buffer.openings + 1 } }) .of_same ?_
  exact (calm_setWindow _ t _).trans (calm_resolve e _ t _)

theorem calm_displace (t : Tag) (w : Window) : l.Calm (l.displace t w) := by
  unfold Library.displace
  dsimp only
  exact (calm_release l t w _).trans ((calm_setWindow _ t _).trans .of_same)

theorem calm_displaceIdle (need : Nat) (t : Tag) : ∀ (n : Nat) (l : Library), l.Calm (Library.displaceIdle need t n l)
  | 0, l => .refl l
  | n + 1, l => by
    unfold Library.displaceIdle
    split
    · exact .refl l
    · split
      · exact (calm_displace l _ _).trans (calm_displaceIdle need t n _)
      · exact .refl l

theorem calm_displaceReading (need : Nat) (t : Tag) :
    ∀ (n : Nat) (due : List (Drive × Nat)) (l : Library), l.Calm (Library.displaceReading need t n due l).2
  | 0, _, l => .refl l
  | n + 1, due, l => by
    unfold Library.displaceReading
    split
    · exact .refl l
    · split
      · exact (calm_displace l _ _).trans (calm_displaceReading need t n _ _)
      · exact .refl l

theorem calm_openDelivery (t : Tag) (w : Window) : l.Calm (l.openDelivery e t w) := by
  unfold Library.openDelivery
  dsimp only
  refine (calm_displaceIdle w.size t 16 l).trans ?_
  split
  · exact calm_openWindow e _ t w
  · exact (calm_displaceReading _ t 16 [] _).trans .of_same

theorem calm_passSlots : l.Calm l.passSlots := Library.Calm.trans (b := _) .of_same .of_same

theorem calm_openWaitingDelivery (x : DeliveryWait) : l.Calm (l.openWaitingDelivery e x) := by
  unfold Library.openWaitingDelivery
  dsimp only
  split
  · split
    · exact Library.Calm.trans .of_same (calm_openWindow e _ x.tag _)
    · exact .refl l
  · exact .of_same

theorem calm_openLookAhead (t : Tag) : l.Calm (l.openLookAhead e t) := by
  unfold Library.openLookAhead
  dsimp only
  split
  · split
    · exact .of_same
    · split
      · exact Library.Calm.trans .of_same (calm_openWindow e _ t _)
      · exact .refl l
  · exact .of_same

/-! ## The course of a request -/

/-- A FETCH whose work is replaced. -/
theorem calm_setFetch {t : Tag} {x : Entry} {g : Fetching} (h : l.entry t = some x) (hj : x.job = .fetch g) (g' : Fetching) :
    l.Calm (l.setEntry t (some { x with job := .fetch g' })) :=
  calm_setEntry l h rfl (by simp [Entry.fileKey, hj]) id

theorem calm_wantLookAhead {t : Tag} {x : Entry} {g : Fetching} (h : l.entry t = some x)
    (hj : x.job = .fetch g) (v : Window) : l.Calm (l.wantLookAhead t x g v) := by
  unfold Library.wantLookAhead
  dsimp only
  split
  · exact .refl l
  · split
    · exact .of_same
    · split
      · exact calm_setFetch l h hj _
      · exact Library.Calm.trans (b := { l with buffer := { l.buffer with lookWait := l.buffer.lookWait ++ [t] } }) .of_same
          (calm_setFetch { l with buffer := { l.buffer with lookWait := l.buffer.lookWait ++ [t] } } h hj _)

theorem calm_progress (t : Tag) : ∀ (n : Nat) (l : Library), l.Calm (Library.progress e t n l)
  | 0, l => .refl l
  | n + 1, l => by
    unfold Library.progress
    split
    · exact .refl l
    · rename_i x hx
      split
      · rename_i g hl hj
        split
        · exact calm_endFetch l hx hl hj _
        · rename_i w rest hw
          dsimp only
          split
          · exact (calm_setEntry l hx (x.setWindows_record rest).1 (x.setWindows_record rest).2.2 (by rw [(x.setWindows_record rest).2.1]; exact id)).trans (Library.Calm.trans .of_same (calm_progress t n _))
          · split
            · exact calm_endFetch l hx hl hj _
            · split
              · split
                · exact .refl l
                · exact (calm_openDelivery e l t w).trans (calm_progress t n _)
              · split
                · exact calm_wantLookAhead l hx hj _
                · exact .refl l
      · exact .refl l

theorem calm_progressAll : l.Calm (l.progressAll e) := Library.Calm.foldl (fun l t => calm_progress e t 24 l) _ _

theorem calm_stage : l.Calm (l.stage e) := by
  unfold Library.stage
  dsimp only
  have h := ((calm_passSlots l).trans (calm_progressAll e _)).trans (calm_passSlots _)
  generalize (l.passSlots.progressAll e).passSlots = m at h
  refine (h.trans (Library.Calm.foldl (fun l x => calm_openWaitingDelivery e l x) m.buffer.deliveryWait m)).trans ?_
  refine (calm_progressAll e _).trans ?_
  exact Library.Calm.foldl (fun l t => calm_openLookAhead e l t) _ _

/-! ## Events at a window -/

theorem calm_eachWindow (t : Tag) (f : Library → Window → Library) (h : ∀ (l : Library) w, l.Calm (f l w)) :
    l.Calm (l.eachWindow t f) := by
  unfold Library.eachWindow
  refine Library.Calm.foldl (fun l w => ?_) _ _
  split
  · exact h l _
  · exact .refl l

theorem calm_resolvePending (t : Tag) : l.Calm (l.resolvePending e t) := by
  refine calm_eachWindow l t _ fun l w => ?_
  split
  · exact calm_resolve e l t w
  · exact .refl l

theorem calm_turnWindows (t : Tag) : l.Calm (l.turnWindows e t) := by
  refine calm_eachWindow l t _ fun l w => ?_
  split
  · rename_i s _
    split
    · exact .refl l
    · dsimp only
      refine (calm_withdraw l s (.fetch t w.book w.frame)).trans ?_
      split
      · exact calm_holdFallback _ t w
      · exact calm_twinFallback e _ t w
  · exact .refl l

theorem calm_stopLost (t : Tag) (w : Window) : l.Calm (l.stopLost t w) := by
  unfold Library.stopLost
  split
  · exact calm_setWindow l t _
  · exact calm_recordStop l t _ _

theorem calm_windowOutcome (t : Tag) (w : Window) (ss : List Nat) (rs : List ReadResult) :
    l.Calm (l.windowOutcome e t w ss rs) := by
  unfold Library.windowOutcome
  dsimp only
  split
  · exact calm_stopLost l t _
  · split
    · exact calm_holdFallback l t _
    · exact calm_twinFallback e l t _

theorem calm_windowsLost (t : Tag) (b : Book) (f : Nat) : l.Calm (l.windowsLost t b f) := by
  refine calm_eachWindow l t _ fun l w => ?_
  split
  · exact (calm_release l t w none).trans (calm_stopLost _ t w)
  · exact .refl l

theorem calm_windowFailed (t : Tag) (w : Window) (s : Side) (i : Item) : l.Calm (l.windowFailed t w s i) :=
  (calm_giveBack l s i).trans (calm_setWindow _ t _)

theorem calm_fetchOutcome (t : Tag) (b : Book) (f : Nat) (live : Bool) (ss : List Nat) (rs : List ReadResult) :
    l.Calm (l.fetchOutcome e t b f live ss rs) := by
  unfold Library.fetchOutcome
  split
  · split
    · exact calm_windowOutcome e l t _ ss rs
    · exact .refl l
  · exact .refl l

theorem calm_mapRereads (b : Book) (f : List Reread → List Reread) : l.Calm (l.mapRereads b f) := .of_same

theorem calm_syncReread (b : Book) : l.Calm (l.syncReread e b) := by
  unfold Library.syncReread
  split
  · split
    · exact calm_place e l _ _
    · exact calm_withdraw l _ _
  · exact .refl l

theorem calm_grantFrom : ∀ (xs : List (Book × Nat)) (l : Library), l.Calm (Library.grantFrom e xs l)
  | [], l => .of_same
  | (b, f) :: rest, l => by
    unfold Library.grantFrom
    split
    · exact calm_grantFrom rest l
    · split
      · exact (calm_mapRereads l b _).trans ((calm_syncReread e _ b).trans (calm_grantFrom rest _))
      · exact .of_same

theorem calm_grantRereads : l.Calm (l.grantRereads e) := calm_grantFrom e _ l

theorem calm_askReread (b : Book) (f n : Nat) : l.Calm (l.askReread e b f n) := by
  unfold Library.askReread
  split
  · exact (calm_mapRereads l b _).trans (calm_syncReread e _ b)
  · exact .of_same

theorem Command.orphanReread_primaryWrite (b : Book) (gone : Nat → Bool) (c : Command) (t : Tag) (k : Book) (f : Nat)
    (h : Command.orphanReread b gone c = .primaryWrite t k f) : c = .primaryWrite t k f := by
  unfold Command.orphanReread at h
  split at h
  · split at h <;> cases h
  · exact h

theorem calm_dropRereads (b : Book) (gone : Nat → Bool) : l.Calm (l.dropRereads e b gone) := by
  unfold Library.dropRereads
  dsimp only
  have h := (calm_mapRereads l b fun rs => rs.filter fun r => !gone r.frame).trans
    (calm_mapCommands _ (Command.orphanReread_primaryWrite b gone))
  refine h.trans (Library.Calm.trans .of_same ((calm_syncReread e _ b).trans (calm_grantRereads e _)))

theorem calm_stopTwinWork (b : Book) : l.Calm (l.stopTwinWork e b) :=
  (calm_withdrawAll l _).trans (calm_dropRereads e _ b _)

theorem calm_askWindow (b : Book) : l.Calm (l.askWindow e b) := by
  refine Library.Calm.foldl (fun l f => ?_) _ _
  dsimp only
  split
  · exact calm_askReread e l b f _
  · exact .refl l

theorem calm_wantTwinWrite (b : Book) (s : Side) : l.Calm (l.wantTwinWrite e b s) := by
  unfold Library.wantTwinWrite
  dsimp only
  split
  · exact calm_place e l s _
  · exact .refl l


/-- R95: the marks that the Twin Writer passes stay below the filing mark, and belong to a book with a twin. -/
theorem calm_skipFrames (b : Book) : ∀ (n : Nat) (l : Library), (l.book b).twin ≠ none → l.Calm (Library.skipFrames e b n l)
  | 0, l, _ => .refl l
  | n + 1, l, hb => by
    unfold Library.skipFrames
    dsimp only
    split
    next h =>
      refine (calm_setBook l (b := b) (k := { l.book b with twinMark := (l.book b).twinMark + 1 }) rfl rfl rfl rfl rfl (fun _ => h.1) fun hn => absurd hn hb).trans (calm_skipFrames b n _ ?_)
      simpa [Library.book, Library.setBook] using hb
    next => exact .refl l

/-- R94 to R96: an examination changes twin marks alone of what is looked at. -/
theorem calm_examine (b : Book) : l.Calm (l.examine e b) := by
  unfold Library.examine
  split
  · exact (calm_stopTwinWork e l b).trans (calm_setTwin _ b _)
  next s hs =>
    split
    · exact .refl l
    · dsimp only
      have h := calm_skipFrames e b Config.framesPerBook l (by simp [hs])
      generalize Library.skipFrames e b Config.framesPerBook l = m at h
      refine (h.trans (calm_setTwin m b { m.twin b with state := twinStateOf (m.book b) (m.twin b).failed })).trans ?_
      split
      · exact (calm_askWindow e _ b).trans (calm_wantTwinWrite e _ b _)
      · exact calm_stopTwinWork e _ b

theorem calm_examineBooks (p : Book → Bool) : l.Calm (l.examineBooks e p) := by
  have h : ∀ (bs : List Book) (m : Library), m.Calm (bs.foldl (fun l b => l.examine e b) m) := by
    intro bs
    induction bs with
    | nil => exact fun m => (Library.Calm.refl m)
    | cons b bs ih => exact fun m => (calm_examine e m b).trans (ih _)
  exact h _ l

/-! ## The rescue -/

theorem calm_waitRescue (b : Option Book) (s : Side) : l.Calm (l.waitRescue e b s) := by
  unfold Library.waitRescue
  split
  · exact .refl l
  · exact Library.Calm.trans .of_same (calm_fault e _ _)

theorem calm_setBatch (x : Option (List BatchFrame)) : l.Calm { l with care := { l.care with batch := x } } := .of_same

theorem calm_syncReads (r : RescueRecord) (xs : List BatchFrame) : l.Calm (l.syncReads e r xs) := by
  refine Library.Calm.foldl (fun l c => ?_) _ _
  split
  · split
    · exact calm_place e l _ _
    · exact calm_withdraw l _ _
  · exact .refl l

theorem calm_syncWrites (t : Side) (xs : List BatchFrame) : l.Calm (l.syncWrites e t xs) := by
  unfold Library.syncWrites
  split
  · split
    · exact calm_withdraw l _ _
    · split
      · exact .refl l
      · exact calm_place e l _ _
  · exact calm_withdraw l _ _

theorem calm_moveItems (b : Book) (s t : Side) : l.Calm (l.moveItems b s t) := by
  unfold Library.moveItems
  dsimp only
  have h := (calm_setItems l s ((l.items s).filter fun i => !l.movesWith b i.kind)).trans
    (Library.Calm.foldl (fun l i => calm_giveBack l t i) ((l.items s).filter fun i => l.movesWith b i.kind) _)
  refine h.trans ?_
  refine Library.Calm.foldl (fun l u => ?_) _ _
  split
  · exact calm_setWindows l u _
  · exact .refl l


theorem calm_sendSpinUp (d : Drive) : l.Calm (l.sendSpinUp e d) := (calm_setDrive_same l (by rfl)).trans (calm_emit _ _)

theorem calm_sendSpinDown (d : Drive) : l.Calm (l.sendSpinDown e d) := (calm_setDrive_same l (by rfl)).trans (calm_emit _ _)

theorem calm_setMoves (ms : List Move) : l.Calm { l with picker := { l.picker with moves := ms } } := .of_same

theorem calm_askReturn (d : Drive) (r : ReturnReason) : l.Calm (l.askReturn d r) := by
  unfold Library.askReturn
  split
  · dsimp only
    split
    · exact .refl l
    · exact calm_setMoves l _
  · exact .refl l

theorem calm_askUnload (d : Drive) : l.Calm (l.askUnload d) := by
  unfold Library.askUnload
  split
  · exact .refl l
  · exact calm_askReturn l d _

theorem calm_chooseUnload (d : Drive) : l.Calm (l.chooseUnload e d) := by
  unfold Library.chooseUnload
  dsimp only
  refine Library.Calm.trans (b := (l.setDrive d { l.drive d with unload := true }).callPatrol)
    ((calm_setDrive_same l (by rfl)).trans (calm_callPatrol _)) ?_
  split
  · exact calm_sendSpinDown e _ d
  · exact calm_askUnload _ d
  · exact .refl _

theorem calm_dropPatrolMount (s : Side) : l.Calm (l.dropPatrolMount s) := by
  unfold Library.dropPatrolMount
  split
  · exact .of_same
  · exact .refl l

theorem calm_dropPatrolLoad (m : Move) : l.Calm (l.dropPatrolLoad m) := by
  cases m with
  | load s f d => exact calm_dropPatrolMount l _
  | back s d r => exact .refl l

/-! ## Moves -/

theorem calm_faultMove (m : Move) : l.Calm (l.faultMove e m) := calm_fault e l _

theorem calm_faultPicker : l.Calm l.faultPicker :=
  (Library.Calm.foldl (fun l m => calm_dropPatrolLoad l m) l.picker.moves l).trans ((calm_picker _ _).trans (calm_callDecision _))

theorem calm_beginMove (m : Move) : l.Calm (l.beginMove e m) := by
  unfold Library.beginMove
  dsimp only
  refine Library.Calm.trans (b := Library.emit
    { l with picker := { l.picker with state := .moving, record := some m, limitStart := e.now, awaitCaddy := false } } (.move m)) .of_same ?_
  split
  · exact calm_setDrive_same _ rfl
  · split
    · exact .refl _
    · exact calm_setDrive_same _ rfl
  · exact .refl _

theorem calm_dropMove (m : Move) : l.Calm (l.dropMove e m) := by
  unfold Library.dropMove
  split
  · exact (calm_dropPatrolLoad l _).trans (calm_callDecision _)
  next s d r =>
    have h1 : l.Calm (if l.homeSeated (.back s d r) then l.faultMove e (.back s d r) else l) := by
      split
      · exact calm_faultMove e l _
      · exact .refl l
    dsimp only
    generalize (if l.homeSeated (.back s d r) then l.faultMove e (.back s d r) else l) = m at h1
    refine h1.trans ?_
    split
    · exact calm_setDrive_same m rfl
    · split
      · exact calm_faultPicker m
      · exact .refl m

theorem calm_tryMoves : ∀ (n : Nat) (l : Library), l.Calm (Library.tryMoves e n l)
  | 0, l => .refl l
  | n + 1, l => by
    unfold Library.tryMoves
    split
    · exact .refl l
    · split
      · exact .refl l
      next m rest hm =>
        dsimp only
        refine (calm_setMoves l rest).trans ?_
        split
        · exact calm_beginMove e _ m
        · exact (calm_dropMove e _ m).trans (calm_tryMoves n _)

/-! ## Patrol and the drives' items -/

theorem calm_fullPass (s : Side) : l.Calm (l.fullPass e s) :=
  ((calm_setHealth l s _).trans (calm_dropPatrolMount _ s)).trans (calm_callPatrol _)

theorem calm_setCursor (a b : Option Side) : l.Calm { l with care := { l.care with cursor := a, lastCursor := b } } := .of_same

theorem calm_moveCursor : ∀ (n : Nat) (l : Library), l.Calm (Library.moveCursor e n l)
  | 0, l => .of_same
  | n + 1, l => by
    unfold Library.moveCursor
    split
    · exact .of_same
    · rename_i s _
      dsimp only
      refine (calm_setCursor l (some s) (some s)).trans ?_
      split
      · exact calm_place e _ s _
      · exact (calm_fullPass e _ s).trans (calm_moveCursor n _)

theorem calm_examineCursor : l.Calm (l.examineCursor e) := by
  unfold Library.examineCursor
  split
  · dsimp only
    refine Library.Calm.trans (b := { l with care := { l.care with patrolDue := false } }) .of_same ?_
    split
    · split
      · exact .refl _
      · exact (calm_withdraw _ _ _).trans (calm_moveCursor e 8 _)
    · exact calm_moveCursor e 8 _
  · exact .refl l


/-- R109: the issue of a command that is no primary write. -/
theorem calm_startCommand (d : Drive) (s : Side) (i : Item) {c : Command} (o : Output) (h : ∀ t k f, c ≠ .primaryWrite t k f) :
    l.Calm (l.startCommand e d s i c o) :=
  (calm_setDrive l fun v t k f hv hc => by cases hv; exact absurd hc (h t k f)).trans (calm_emit _ o)

/-! ## Decisions -/

theorem calm_takeDrive (d : Drive) : l.Calm (l.takeDrive e d) := by
  unfold Library.takeDrive
  dsimp only
  refine Library.Calm.trans ?_ (calm_chooseUnload e _ d)
  split
  · exact calm_dropPatrolMount l _
  · exact .refl l

theorem calm_askLoad (s : Side) (d : Drive) : l.Calm (l.askLoad s d) := .of_same

theorem calm_give (s : Side) (g : Gift) : l.Calm (l.give e s g) := by
  cases g with
  | empty d =>
    simp only [Library.give]
    split
    · exact calm_askLoad l s d
    · exact .refl l
  | vacating d => exact .refl l
  | idle d => exact calm_takeDrive e l d
  | busy d => exact calm_takeDrive e l d

theorem calm_giveAll : ∀ (cs : List SideRank) (ds : List Drive) (l : Library), l.Calm (Library.giveAll e cs ds l)
  | [], _, l => .refl l
  | c :: rest, ds, l => by
    unfold Library.giveAll
    split
    · exact (calm_give e l _ _).trans (calm_giveAll rest _ _)
    · exact calm_giveAll rest ds l

theorem calm_considerPatrol : l.Calm (l.considerPatrol e) := by
  unfold Library.considerPatrol
  split
  · split
    · exact .refl l
    · dsimp only
      split
      · exact .of_same
      · split
        · exact calm_takeDrive e l _
        · exact .refl l
  · exact .refl l

theorem calm_decide : l.Calm (l.decide e) := by
  unfold Library.decide
  split
  · dsimp only
    refine Library.Calm.trans (b := { l with scheduler := { l.scheduler with decisionDue := false } }) .of_same ?_
    exact (calm_giveAll e _ [] _).trans (calm_considerPatrol e _)
  · exact .refl l

theorem calm_registerEvents (was : Library) : l.Calm (l.registerEvents e was) := by
  unfold Library.registerEvents
  dsimp only
  have h1 : l.Calm (l.checkPatrolMount e) := by
    unfold Library.checkPatrolMount
    split
    · split
      · exact .refl l
      · exact calm_dropPatrolMount l _
    · exact .refl l
  generalize l.checkPatrolMount e = m at h1
  have h2 : m.Calm (if Library.decisionEvent e was m then m.callDecision else m) := by
    split
    · exact calm_callDecision m
    · exact .refl m
  generalize (if Library.decisionEvent e was m then m.callDecision else m) = k at h2
  have h3 : k.Calm (if Library.placedUnmounted was k then k.callPlacement else k) := by
    unfold Library.callPlacement
    split
    · split
      · exact .refl k
      · exact calm_callDecision k
    · exact .refl k
  generalize (if Library.placedUnmounted was k then k.callPlacement else k) = n at h3
  refine ((h1.trans h2).trans h3).trans ?_
  split
  · exact calm_callPatrol n
  · exact .refl n

/-! ## One event -/

theorem calm_orderReservations (was : Library) : l.Calm (Library.orderReservations was l) := .of_same

end Sys2Proof.Machine
end

section
-- One declaration after the other: the stacks of the threads that wait for each other count against the check's memory limit.
set_option Elab.async false
namespace Sys2Proof.Machine

variable (e : Env) (l : Library)

/-! ## Unwinding and the issue of a FILE keep the roles -/

theorem rolesCalm_unwindFile (t : Tag) (o : Outcome) : l.RolesCalm (l.unwindFile t o) := by
  unfold Library.unwindFile
  split
  · split
    · exact (Library.Calm.refl l).toRolesCalm
    · exact (endRequest_keeps l t o _ _).2
  · exact (Library.Calm.refl l).toRolesCalm

theorem rolesCalm_lowerIntake (b : Book) : l.RolesCalm (l.lowerIntake b) := by
  have hb : ∀ c, (l.lowerIntake b).book c = if b = c then { l.book b with intake := (l.book b).filing + l.liveFiles b } else l.book c :=
    fun c => look_put ..
  refine ⟨rfl, fun c => ?_, fun c => ?_, fun c => ?_, rfl⟩ <;> rw [hb c] <;> split <;> first | rfl | next hc => rw [← hc]

theorem Library.RolesCalm.foldl {α : Type} {f : Library → α → Library} (h : ∀ (l : Library) x, l.RolesCalm (f l x)) (xs : List α) (l : Library) :
    l.RolesCalm (xs.foldl f l) :=
  List.foldlRecOn (motive := fun m => l.RolesCalm m) xs f (Library.Calm.refl l).toRolesCalm fun m hm x _ => hm.trans (h m x)

theorem rolesCalm_unwindStranded : l.RolesCalm (l.unwindStranded e) := by
  refine Library.RolesCalm.foldl (fun l t => ?_) allTags l
  split
  · exact (rolesCalm_unwindFile l t _).trans (rolesCalm_lowerIntake _ _)
  · exact (Library.Calm.refl l).toRolesCalm

theorem rolesCalm_unwindAll : l.RolesCalm l.unwindAll := by
  refine Library.RolesCalm.foldl (fun l t => ?_) allTags l
  split
  · exact (rolesCalm_unwindFile l t _).trans (rolesCalm_lowerIntake _ _)
  · exact (Library.Calm.refl l).toRolesCalm

/-- R109, R82: handing out an item is calm but for a FILE, whose filing phase it moves to WRITING with the drive's command its primary write. -/
theorem issue_cases (d : Drive) (s : Side) (i : Item) :
    l.Calm (l.issue e d s i).2
      ∨ ∃ t x g, i.kind = .file t ∧ l.fileOf t = some (x, g) ∧ (l.issue e d s i).1 = true
        ∧ (l.issue e d s i).2 = ((l.withdraw s i.kind).setEntry t (some { x with job := .file { g with phase := .writing } })).startCommand e d s i
            (.primaryWrite t g.book g.frame) (.write d (sideSector g.frame 0) g.received) := by
  have hoff := calm_withdraw l s i.kind
  unfold Library.issue
  dsimp only
  split
  · split
    · exact .inl ((hoff.trans (calm_setWindow _ _ _)).trans (calm_startCommand e _ d s i _ nofun))
    · exact .inl hoff
  next t hk =>
    split
    next x g hg => exact .inr ⟨t, x, g, hk, hg, rfl, rfl⟩
    · exact .inl hoff
  · split
    · exact .inl ((hoff.trans (calm_setTwin _ _ _)).trans (calm_startCommand e _ d s i _ nofun))
    · exact .inl hoff
  next b hk =>
    split
    next r hr =>
      refine .inl (Library.Calm.trans ?_ (calm_startCommand e _ d s i _ nofun))
      have hm := calm_mapRereads l b fun rs => rs.map fun q => if q.frame = r.frame then { q with state := .reading } else q
      split
      · exact hm
      · exact hm.trans (calm_withdraw _ _ _)
    · exact .inl hoff
  · split
    · exact .inl ((calm_mapBatch l _).trans (calm_startCommand e _ d s i _ nofun))
    · exact .inl hoff
  · split
    · exact .inl ((calm_mapBatch l _).trans (calm_startCommand e _ d s i _ nofun))
    · exact .inl hoff
  · split
    · exact .inl (calm_startCommand e l d s i _ nofun)
    · exact .inl (hoff.trans (calm_fullPass e _ s))

theorem rolesCalm_issue (d : Drive) (s : Side) (i : Item) : l.RolesCalm (l.issue e d s i).2 := by
  rcases issue_cases e l d s i with h | ⟨t, x, g, -, -, -, h⟩
  · exact h.toRolesCalm
  · rw [h]; exact ⟨rfl, fun _ => rfl, fun _ => rfl, fun _ => rfl, rfl⟩

theorem rolesCalm_handOut (d : Drive) (s : Side) : ∀ (n : Nat) (l : Library), l.RolesCalm (Library.handOut e d s n l)
  | 0, l => (Library.Calm.refl l).toRolesCalm
  | n + 1, l => by
    unfold Library.handOut
    split
    next i _ =>
      have hi := rolesCalm_issue e l d s i
      split
      next m hm => rw [hm] at hi; exact hi
      next m hm => rw [hm] at hi; exact hi.trans (rolesCalm_handOut d s n m)
    next => exact (Library.Calm.refl l).toRolesCalm

theorem rolesCalm_serveDrive (d : Drive) : l.RolesCalm (l.serveDrive e d) := by
  unfold Library.serveDrive
  dsimp only
  split
  · split
    · split
      · split
        · exact (calm_sendSpinUp e l d).toRolesCalm
        · exact (Library.Calm.refl l).toRolesCalm
      · split
        · exact (Library.Calm.refl l).toRolesCalm
        · exact rolesCalm_handOut e d _ 64 l
      · exact (Library.Calm.refl l).toRolesCalm
    · exact (Library.Calm.refl l).toRolesCalm
  · exact (Library.Calm.refl l).toRolesCalm

theorem rolesCalm_direct : l.RolesCalm (l.direct e) :=
  (((calm_decide e l).trans (calm_tryMoves e 16 _)).trans (calm_examineCursor e _)).toRolesCalm.trans
    (Library.RolesCalm.foldl (fun l d => rolesCalm_serveDrive e l d) allDrives _)

/-! ## The rescue keeps the FILEs -/

theorem filesCalm_seekRescue : l.FilesCalm (l.seekRescue e) := by
  unfold Library.seekRescue
  dsimp only
  have h1 (b : Option Book) (s : Side) (m : Library) : m.FilesCalm (m.waitRescue e b s) := by
    unfold Library.waitRescue
    split <;> exact .of_same
  have h2 : l.FilesCalm { l with care := { l.care with seekDue := false } } := .of_same
  split
  · split
    · exact h2
    · split
      · exact .of_same
      · exact h2.trans (h1 _ _ _)
  · split
    · exact .of_same
    · split
      · exact .of_same
      · exact h2.trans (h1 _ _ _)

theorem filesCalm_switch (r : RescueRecord) (target : Side) : l.FilesCalm (l.switch r target) := by
  unfold Library.switch
  dsimp only
  refine Library.FilesCalm.trans ?_ (calm_setTwin _ _ _).toFilesCalm
  refine Library.FilesCalm.trans ?_ (calm_moveItems _ _ _ _).toFilesCalm
  refine Library.FilesCalm.trans (b := l.setBook r.book
    (if r.ofTwin then { l.book r.book with twin := some target } else { l.book r.book with primary := some target })) ?_ .of_same
  have hb : ∀ c, (l.setBook r.book (if r.ofTwin then { l.book r.book with twin := some target }
      else { l.book r.book with primary := some target })).book c = if r.book = c then
        (if r.ofTwin then { l.book r.book with twin := some target } else { l.book r.book with primary := some target }) else l.book c :=
    fun c => look_put ..
  have each {P : Book → BookEntry → Prop} (h0 : P r.book { l.book r.book with twin := some target })
      (h1 : P r.book { l.book r.book with primary := some target }) (h : ∀ c, P c (l.book c)) :
      ∀ c, P c ((l.setBook r.book (if r.ofTwin then { l.book r.book with twin := some target }
        else { l.book r.book with primary := some target })).book c) := fun c => by
    rw [hb c]
    split
    next hc =>
      subst hc
      split
      · exact h0
      · exact h1
    next => exact h c
  exact
    { Library.Calm.refl l with
      intake := each (P := fun c x => x.intake = (l.book c).intake) rfl rfl fun _ => rfl
      filing := each (P := fun c x => x.filing = (l.book c).filing) rfl rfl fun _ => rfl
      state := each (P := fun c x => x.state = (l.book c).state) rfl rfl fun _ => rfl
      twinTop := each (P := fun c x => (l.book c).twinMark ≤ (l.book c).filing → x.twinMark ≤ x.filing) id id fun _ => id
      alone := each (P := fun c x => x.twin = none → (l.book c).twin = none ∧ x.twinMark = (l.book c).twinMark) nofun
        (fun h => ⟨h, rfl⟩) fun _ h => ⟨h, rfl⟩ }

theorem filesCalm_runRescue : ∀ (n : Nat) (l : Library), l.FilesCalm (Library.runRescue e n l)
  | 0, l => .of_same
  | n + 1, l => by
    unfold Library.runRescue
    have h1 : l.FilesCalm (if l.care.seekDue then l.seekRescue e else l) := by
      split
      · exact filesCalm_seekRescue e l
      · exact .of_same
    dsimp only
    generalize (if l.care.seekDue then l.seekRescue e else l) = m at h1
    refine h1.trans ?_
    split
    next r hr =>
      split
      next target ht =>
        split
        · exact .of_same
        · split
          · split
            · exact (calm_setBatch m _).toFilesCalm.trans (filesCalm_runRescue n _)
            · split
              · exact (filesCalm_switch m r target).trans (filesCalm_runRescue n _)
              · exact .of_same
          · split
            · exact Library.FilesCalm.trans (b := m.completeBatch r _) .of_same (filesCalm_runRescue n _)
            · exact ((calm_syncReads e m r _).trans (calm_syncWrites e _ target _)).toFilesCalm
      next => exact .of_same
    next => exact .of_same

theorem filesCalm_rescueReaction : l.FilesCalm (l.rescueReaction e) :=
  (filesCalm_runRescue e 1100 l).trans (calm_examineBooks e _ _).toFilesCalm

end Sys2Proof.Machine
end

section
-- One declaration after the other: the stacks of the threads that wait for each other count against the check's memory limit.
set_option Elab.async false
namespace Sys2Proof.Machine

variable (e : Env) (l : Library)

/-! ## The outcome of a command -/

theorem calm_toReady (d : Drive) : l.Calm (l.toReady e d) := by
  unfold Library.toReady
  split
  · exact calm_sendSpinDown e l d
  · exact calm_setDrive_same l (by rfl)

theorem calm_quiet (n : Nat) : l.Calm { l with scheduler := { l.scheduler with quiet := n } } := .of_same

theorem calm_finishCommand (d : Drive) (patrol : Bool) : l.Calm (l.finishCommand e d patrol) := by
  unfold Library.finishCommand
  dsimp only
  refine Library.Calm.trans ?_ (calm_toReady e _ d)
  split
  · exact calm_setDrive_none l (by rfl)
  · exact (calm_setDrive_none l (by rfl)).trans (calm_quiet _ _)

/-- R167: a side that is queued was not queued, and found room. -/
theorem calm_trigger (s : Side) : l.Calm (l.trigger e s) := by
  unfold Library.trigger
  dsimp only
  split
  next h =>
    split
    next hn =>
      have hc : l.Calm { l with care := { l.care with seekDue := true } } := .of_same
      exact
        { hc with
          queue := fun hq => by
            refine ⟨?_, ?_⟩
            · simpa using hn
            · exact List.nodup_append.mpr ⟨hq.2, List.nodup_singleton s, by
                rintro a ha b hb rfl
                rw [List.mem_singleton] at hb
                exact h.2.2.1 (hb ▸ ha)⟩ }
    next => exact calm_fault e l _
  next => exact .refl l

theorem calm_countRead (d : Drive) (s : Side) (b : Book) (f : Nat) (t : Option Tag) (rs : List ReadResult) :
    l.Calm (l.countRead e d s b f t rs) := by
  unfold Library.countRead
  dsimp only
  have h0 := (calm_setHealth l s ((l.health s).count (countCorrected rs) (countFailed rs))).trans
    (calm_setDrive_same (d := d) (y := (l.drive d).count (countCorrected rs) (countFailed rs)) _ rfl)
  have h1 := h0.trans (b := _) (c := if 0 < countFailed rs then _ else _)
    (by
      split
      · exact calm_fault e _ { FaultRecord.of e .readUncorrectable with
          book := some b, side := some s, frame := some f, drive := some d, tag := t }
      · exact .refl _)
  split
  · exact h1.trans (calm_trigger e _ s)
  · exact h1

theorem calm_countWriteFail (s : Side) : l.Calm (l.countWriteFail e s) := (calm_setHealth l s _).trans (calm_trigger e _ s)

theorem calm_faultWrite (b : Book) (s : Side) (f : Nat) (d : Drive) (t : Option Tag) : l.Calm (l.faultWrite e b s f d t) := calm_fault e l _

/-! ## The twin hold list and the Twin Writer -/

/-- R56, R128: the copy follows the flag. -/
theorem calm_testEscalation : l.Calm l.testEscalation := by
  unfold Library.testEscalation
  dsimp only
  split
  · exact .refl l
  · exact { Library.Calm.refl l with copy := fun _ => rfl }

theorem calm_joinHold (h : HoldEntry) : l.Calm (l.joinHold h) :=
  Library.Calm.trans (b := { l with buffer := { l.buffer with hold := (l.demotion h).1 ++ [h] } }) .of_same (calm_testEscalation _)

theorem calm_leaveHold (gone : HoldEntry → Bool) : l.Calm (l.leaveHold gone) :=
  Library.Calm.trans (b := { l with buffer := { l.buffer with hold := l.buffer.hold.filter fun h => !gone h } }) .of_same (calm_testEscalation _)

theorem calm_keepFiled (b : Book) (f : Nat) (data : List Sector) : l.Calm (l.keepFiled e b f data) := by
  unfold Library.keepFiled
  split
  · exact (calm_joinHold l _).trans (calm_examineBooks e _ _)
  · exact calm_examine e l b

theorem calm_endTwinWrite (b : Book) : l.Calm (l.endTwinWrite b) := calm_setTwin l b _

theorem calm_passTwinMark {b : Book} (f : Nat) (h : (l.book b).twin ≠ none) : l.Calm (l.passTwinMark b f) := by
  unfold Library.passTwinMark
  dsimp only
  split
  next hf =>
    exact calm_setBook l (b := b) (k := { l.book b with twinMark := f + 1 }) rfl rfl rfl rfl rfl (fun _ => hf.2) fun hn => absurd hn h
  next => exact .refl l

theorem Library.stillTwin_twin {l : Library} {b : Book} {s : Side} (h : l.stillTwin b s = true) : (l.book b).twin ≠ none := by
  unfold Library.stillTwin at h
  rw [beq_iff_eq.mp h]
  simp

theorem calm_twinWritten {b : Book} (f : Nat) (h : (l.book b).twin ≠ none) : l.Calm (l.twinWritten e b f) := by
  unfold Library.twinWritten
  dsimp only
  exact (((calm_endTwinWrite l b).trans (calm_passTwinMark _ f h)).trans (calm_leaveHold _ _)).trans
    ((calm_dropRereads e _ b _).trans (calm_examine e _ b))

theorem calm_twinFailed (b : Book) (f : Nat) (s : Side) (d : Drive) : l.Calm (l.twinFailed e b f s d) :=
  ((calm_faultWrite e l b s f d none).trans (calm_endTwinWrite _ b)).trans ((calm_setTwin _ b _).trans (calm_stopTwinWork e _ b))

theorem calm_rereadOutcome (b : Book) (f : Nat) (rs : List ReadResult) : l.Calm (l.rereadOutcome e b f rs) := by
  unfold Library.rereadOutcome
  split
  · exact (calm_mapRereads l b _).trans (calm_examine e _ b)
  · exact ((calm_setTwin l b _).trans (calm_dropRereads e _ b _)).trans (calm_examine e _ b)

/-- A twin write's outcome, with the twin removed or not. -/
theorem calm_twinOutcome {b : Book} {s : Side} {m : Library} (h : l.stillTwin b s = true → l.Calm m) :
    l.Calm (if l.stillTwin b s then m else l.grantRereads e) := by
  split
  next hs => exact h hs
  next => exact calm_grantRereads e l

/-! ## Rescue and patrol outcomes -/

theorem Command.orphanTwinWrite_primaryWrite (b : Book) (gone : Nat → Bool) (c : Command) (t : Tag) (k : Book) (f : Nat)
    (h : Command.orphanTwinWrite b gone c = .primaryWrite t k f) : c = .primaryWrite t k f := by
  unfold Command.orphanTwinWrite at h
  split at h
  · split at h <;> cases h
  · exact h

theorem Command.orphanRescue_primaryWrite (c : Command) (t : Tag) (k : Book) (f : Nat)
    (h : Command.orphanRescue c = .primaryWrite t k f) : c = .primaryWrite t k f := by
  unfold Command.orphanRescue at h
  split at h
  · cases h
  · cases h
  · exact h

theorem calm_twinFrameLost (b : Book) (f : Nat) : l.Calm (l.twinFrameLost e b f) := by
  unfold Library.twinFrameLost
  dsimp only
  exact ((calm_setTwin l b _).trans (calm_mapCommands _ (Command.orphanTwinWrite_primaryWrite b _))).trans
    ((calm_dropRereads e _ b _).trans (calm_examine e _ b))

theorem calm_frameLost (b : Book) (f : Nat) (s : Side) : l.Calm (l.frameLost e b f s) := by
  unfold Library.frameLost
  dsimp only
  exact ((calm_fault e l _).trans (Library.Calm.foldl (fun l t => calm_windowsLost l t b f) allTags _)).trans (calm_twinFrameLost e _ b f)

theorem calm_rescueOutcome (s : State) (side : Side) (f : Nat) (ss : List Nat) (rs : List ReadResult) :
    s.lib.Calm (s.rescueOutcome side f ss rs).lib := by
  unfold State.rescueOutcome
  split
  · split
    next x _ =>
      generalize s.lib.rescueRead s.env _ side x ss rs = y
      dsimp only
      split
      · dsimp only
        exact (calm_mapBatch s.lib fun z => if z.frame = f then y else z).trans (calm_frameLost _ _ _ _ _)
      · exact calm_mapBatch s.lib _
    · exact .refl _
  · exact .refl _

theorem calm_dropBatch : l.Calm l.dropBatch :=
  ((calm_withdrawAll l _).trans (calm_mapCommands _ Command.orphanRescue_primaryWrite)).trans .of_same

theorem calm_patrolled (s : Side) (f : Nat) : l.Calm (l.patrolled e s f) := by
  unfold Library.patrolled
  dsimp only
  refine (calm_setHealth l s { l.health s with patrolMark := f + 1 }).trans ?_
  split
  · exact calm_callPatrol _
  · exact calm_fullPass e _ s

/-! ## Failures -/

theorem calm_fetchFailed (v : InService) (t : Tag) (b : Book) (f : Nat) : l.Calm (l.fetchFailed v t b f) := by
  unfold Library.fetchFailed
  split
  · exact calm_windowFailed l t _ _ _
  · exact .refl l

theorem calm_twinWriteReturned (v : InService) (b : Book) (live : Bool) : l.Calm (l.twinWriteReturned e v b live) := by
  unfold Library.twinWriteReturned
  split
  · dsimp only
    refine (calm_endTwinWrite l b).trans (Library.Calm.trans ?_ (calm_examine e _ b))
    split
    · exact calm_giveBack _ _ _
    · exact calm_grantRereads e _
  · exact calm_grantRereads e l

theorem calm_rereadReturned (v : InService) (b : Book) (f : Nat) : l.Calm (l.rereadReturned v b f) := by
  unfold Library.rereadReturned
  dsimp only
  refine (calm_mapRereads l b fun rs => rs.map fun r => if r.frame = f then { r with state := .granted } else r).trans ?_
  split
  · exact calm_giveBack _ _ _
  · exact .refl _

theorem calm_repeatCommand (d : Drive) : l.Calm (l.repeatCommand e d) := by
  unfold Library.repeatCommand
  split
  · exact calm_toReady e l d
  · exact calm_sendSpinUp e l d
  · exact calm_sendSpinDown e l d
  · exact .refl l

theorem calm_askFailureReturn (d : Drive) : l.Calm (l.askFailureReturn d) := (calm_picker l _).trans (calm_askReturn _ d _)

theorem calm_failDrive (d : Drive) : l.Calm (l.failDrive e d) := by
  unfold Library.failDrive
  dsimp only
  have each (r : FaultRecord) : l.Calm ((((l.fault e r).setDrive d { l.drive d with state := .failed, unload := false, askAgain := none }).emit
      (.spinDown d)).callPatrol) :=
    (((calm_fault e l r).trans (calm_setDrive_same _ (by rfl))).trans (calm_emit _ _)).trans (calm_callPatrol _)
  refine (each { FaultRecord.of e .driveFailed with
    book := (l.mountedSide d).bind fun s => (l.role s).book?, side := l.mountedSide d, drive := some d }).trans ?_
  split
  · split
    · split
      · exact calm_picker _ _
      · exact .refl _
    · exact .refl _
  · exact calm_askFailureReturn _ d

/-! ## The picker and the clear -/

theorem calm_resend (m : Move) : l.Calm (l.resend e m) := (calm_picker l _).trans (calm_emit _ _)

theorem calm_settleFailed (m : Move) (grip caddy : Bool) : l.Calm (l.settleFailed e m grip caddy) := by
  unfold Library.settleFailed
  split
  · split
    · exact (calm_setLocation l _ _).trans (calm_setDrive_same _ (by rfl))
    · split
      · exact ((calm_setLocation l _ _).trans (calm_callPatrol _)).trans ((calm_setDrive_same _ (by rfl)).trans (calm_sendSpinUp e _ _))
      · exact calm_setDrive_same l (by rfl)
  · split
    · dsimp only
      split
      · exact (calm_setLocation l _ _).trans (calm_setDrive_same _ (by rfl))
      · exact calm_setLocation l _ _
    · split
      · dsimp only
        split
        · exact (calm_setLocation l _ _).trans (calm_setDrive_same _ (by rfl))
        · exact calm_setLocation l _ _
      · split
        · split
          · exact .refl l
          · exact calm_setDrive_same l (by rfl)
        · exact .refl l

theorem calm_secondFailure (m : Move) (grip caddy : Bool) : l.Calm (l.secondFailure e m grip caddy) := by
  unfold Library.secondFailure
  dsimp only
  exact ((calm_settleFailed e l m grip caddy).trans (calm_picker _ _)).trans
    ((calm_dropPatrolLoad _ m).trans ((calm_faultMove e _ m).trans (calm_faultPicker _)))

theorem calm_askDropped (s : Slot) (d : Drive) : l.Calm (Library.askDropped s l d) := by
  unfold Library.askDropped
  dsimp only
  split
  · split
    · exact (calm_setDrive_same l (by rfl)).trans (calm_askReturn _ d _)
    · exact .refl l
  · exact .refl l

theorem calm_returnHeld (r : ReturnReason) : l.Calm (l.returnHeld r) := by
  unfold Library.returnHeld
  split
  · exact calm_picker l _
  · exact .refl l

theorem calm_askWaiting (d : Drive) : l.Calm (l.askWaiting d) := by
  unfold Library.askWaiting
  dsimp only
  split
  · exact calm_askReturn l d _
  · exact .refl l

theorem calm_clearPicker : l.Calm l.clearPicker := by
  unfold Library.clearPicker
  split
  · dsimp only
    exact ((calm_picker l _).trans (calm_returnHeld _ _)).trans
      ((Library.Calm.foldl (fun l d => calm_askWaiting l d) allDrives _).trans (calm_callDecision _))
  · exact .refl l

theorem calm_driveReady (d : Drive) : l.Calm (l.driveReady e d) :=
  ((calm_setDrive_same l (by rfl)).trans (calm_toReady e _ d)).trans (calm_callPatrol _)

theorem calm_driveStopped (d : Drive) : l.Calm (l.driveStopped d) := by
  unfold Library.driveStopped
  dsimp only
  split
  · exact (calm_setDrive_same l (by rfl)).trans (calm_askUnload _ d)
  · exact calm_setDrive_same l (by rfl)

/-! ## Requests and bursts -/

/-- R29: the entry of a record that has just been taken, but for a FILE. -/
theorem calm_newEntry {t : Tag} {y : Entry} (h : l.entry t = none) (ht : y.record.tag = t) (hk : y.fileKey = none) :
    l.Calm (l.setEntry t (some y)) :=
  { Library.Calm.refl l with
    files := fun u => by
      rw [Library.fileKey_eq, Library.fileKey_eq, Library.entry_setEntry]
      split
      next hu => subst hu; rw [h]; exact hk
      next => rfl
    tags := fun hs u z => by
      rw [Library.entry_setEntry]
      split
      next hu => subst hu; rintro ⟨⟩; exact ht
      next => exact hs u z
    ended := fun _ ⟨hn, hl⟩ => by
      refine ⟨hn, fun r hr => ?_⟩
      obtain ⟨z, hz, hz'⟩ := hl r hr
      rw [Library.entry_setEntry, if_neg]
      · exact ⟨z, hz, hz'⟩
      · rintro rfl
        rw [h] at hz
        cases hz }

theorem calm_refuse (r : RequestRecord) (o : Outcome) (h : l.entry r.tag = none) : l.Calm (l.refuse r o) := by
  have hk : (newEntry r .refused).fileKey = none := rfl
  exact (calm_newEntry l h rfl hk).trans (calm_endRequest _ (by simp [Library.entry_setEntry]) rfl hk o 0 0)

theorem calm_takeBurst (t : Tag) : l.Calm (l.takeBurst t) := .of_same

theorem calm_setDelivered {t : Tag} {x : Entry} (h : l.entry t = some x) (xs : List SectorState) : l.Calm (l.setEntry t (some (x.delivered xs))) :=
  calm_setEntry l h rfl rfl id

theorem calm_takeOffer (f : Fee) (x : Offer) : l.Calm (takeOffer e f l x).2 := by
  unfold takeOffer
  dsimp only
  have h : l.Calm (match l.entry x.tag with
    | some y => l.setEntry x.tag (some (y.charge (f.take e.now e.hold x).2))
    | none => l) := by
    split
    next y hy => refine calm_setEntry l hy ?_ ?_ ?_ <;> unfold Entry.charge <;> split <;> first | rfl | exact id
    next => exact .refl l
  split
  · exact h.trans (calm_fault e _ _)
  · exact h

theorem calm_offer (s : State) (o : Option Offer) : s.lib.Calm (s.offer o).lib := by
  cases o with
  | none => exact .refl _
  | some o => exact calm_takeOffer s.env s.lib s.fee o

/-- R26: a burst leaves the link, counts in its request, and is sent. -/
theorem calm_sendBurst {t : Tag} {x y : Entry} (h : l.entry t = some x) (hr : y.record = x.record) (hk : y.fileKey = x.fileKey)
    (he : y.ended = x.ended) (o : Output) : l.Calm (((l.takeBurst t).setEntry t (some y)).emit o) :=
  (calm_takeBurst l t).trans ((calm_setEntry (l.takeBurst t) (t := t) (x := x) h hr hk (by rw [he]; exact id)).trans (calm_emit _ o))

theorem calm_deliver (s : State) {t : Tag} {x : Entry} (h : s.lib.entry t = some x) (w : Window) (xs : List SectorState) :
    s.lib.Calm (s.deliver t x w xs).lib := by
  unfold State.deliver
  dsimp only
  split
  · exact .refl _
  · have hc := calm_sendBurst s.lib (y := x.delivered xs) h rfl rfl rfl (.burst t (x.record.addr.val + x.moved) (xs.map SectorState.data))
    exact hc.trans (calm_offer { s with lib := _ } _)

theorem calm_deliverPages (s now : State) {t : Tag} {x : Entry} (h : s.lib.entry t = some x) (hl : x.ended = none) (hk : x.fileKey = none) (n : Nat) :
    s.lib.Calm (s.deliverPages now t x n).lib := by
  unfold State.deliverPages
  dsimp only
  split
  · exact .refl _
  · generalize x.moved + min n (x.record.count.val - x.moved) = m
    generalize Output.burst t (x.record.addr.val + x.moved) _ = o
    have hc := calm_sendBurst s.lib (y := { x with moved := m, stopAddress := x.record.addr.val + m - 1 }) h rfl rfl rfl o
    split
    · refine hc.trans (calm_endRequest (((s.lib.takeBurst t).setEntry t (some { x with moved := m, stopAddress := x.record.addr.val + m - 1 })).emit o) (t := t) (x := { x with moved := m, stopAddress := x.record.addr.val + m - 1 })
        
        ((Library.setEntry_entry_same (s.lib.takeBurst t) t _ :)) hl hk _ _ _)
    · exact hc

theorem calm_endDelivered {t : Tag} (h : ∀ x, l.entry t = some x → x.ended = none ∧ x.fileKey = none) : l.Calm (l.endDelivered t) := by
  rcases endDelivered_cases l t with ⟨h', -⟩ | ⟨x, hx, -, h'⟩ <;> rw [h']
  · exact .refl l
  · exact calm_endRequest l hx (h x hx).1 (h x hx).2 _ _ _

theorem calm_discardSector {t : Tag} {x : Entry} (h : l.entry t = some x) : l.Calm (l.discardSector t x) :=
  (calm_setEntry (y := { x with discard := x.discard - 1 }) l h rfl rfl id).trans .of_same

/-- R181: HOLD ends a request that is no FILE. -/
theorem calm_holdRequest (t : Tag) : l.Calm (l.holdRequest t) := by
  unfold Library.holdRequest
  split
  next x hx =>
    split
    next hv =>
      have hl : x.ended = none := Entry.live_iff.mp hv
      split
      next g hj => exact calm_endRequest l hx hl (by simp [Entry.fileKey, hj]) _ _ _
      next hj => exact calm_endRequest l hx hl (by simp [Entry.fileKey, hj]) _ _ _
      next p hj => exact calm_endRequest l hx hl (by simp [Entry.fileKey, hj]) _ _ _
      next => exact .refl l
      next => exact .refl l
    next => exact .refl l
  next => exact .refl l

/-- R50, R81: a sector of a FILE in INTAKE. -/
theorem calm_takeSector {t : Tag} {x : Entry} {g : Filing} (h : l.entry t = some x) (hj : x.job = .file g) (hp : g.phase = .intake) (data : Sector) :
    l.Calm (l.takeSector e t x g data) := by
  have hput (y : Filing) (hy : (y.phase == .writing) = false) (hb : y.book = g.book) (hf : y.frame = g.frame) : l.Calm (l.setEntry t (some { x with job := .file y })) :=
    calm_setEntry l h rfl (by simp only [Entry.fileKey, Entry.live, hj, hp, hy, hb, hf]; rfl) id
  have hlink (m : Library) (o : Option Tag) : m.Calm { m with front := { m.front with linkBurst := o } } := .of_same
  unfold Library.takeSector
  dsimp only
  split
  · exact (hput { g with received := g.received ++ [data] } (by simp only [hp]; rfl) rfl rfl).trans (hlink _ _)
  · refine ((hput { g with received := g.received ++ [data], phase := .queued } (by rfl) rfl rfl).trans (hlink _ none)).trans ?_
    split
    · exact calm_place e _ _ _
    · exact .refl _

theorem Job.pulled_fileKey (x : Entry) : ({ x with job := x.job.pulled } : Entry).fileKey = x.fileKey := by
  simp only [Entry.fileKey, Entry.live]
  cases x.job <;> rfl

end Sys2Proof.Machine
end

section
-- One declaration after the other: the stacks of the threads that wait for each other count against the check's memory limit.
set_option Elab.async false
namespace Sys2Proof.Machine

/-! ## The end of an event -/

theorem calm_finish (l : Library) : l.Calm l.finish := by
  obtain ⟨hrest, ⟨rs, hrs, hp⟩, -⟩ := finish_finished l
  have hending : l.finish.front.ending = [] := congrArg (fun m => m.front.ending) hrest
  have hperm : (l.finish.front.responses ++ l.finish.front.ending).Perm (l.front.responses ++ l.front.ending) := by
    rw [hending, List.append_nil, hrs]
    exact hp.append_left _
  exact
    { Library.Calm.refl l with
      tags := id
      ended := fun _ ⟨hn, hl⟩ => ⟨(hperm.map Response.tag).nodup_iff.mpr hn, fun r hr => hl r (hperm.mem_iff.mp hr)⟩ }

/-! ## Sides that come and go -/

/-- R13: the books keep their sides, the rescue its own, and only sides without a book change their roles. -/
structure Library.RolesFree (a b : Library) : Prop where
  roles : ∀ s, b.role s = a.role s ∨ (a.role s).inUse = false ∧ (b.role s).inUse = false
  primary : ∀ k, (b.book k).primary = (a.book k).primary
  twin : ∀ k, (b.book k).twin = (a.book k).twin
  state : ∀ k, (b.book k).state = (a.book k).state
  rescue : b.care.rescue.map RescueRecord.sides = a.care.rescue.map RescueRecord.sides

theorem Library.RolesFree.trans {a b c : Library} (h : a.RolesFree b) (k : b.RolesFree c) : a.RolesFree c := by
  refine ⟨fun s => ?_, fun i => (k.primary i).trans (h.primary i), fun i => (k.twin i).trans (h.twin i),
    fun i => (k.state i).trans (h.state i), k.rescue.trans h.rescue⟩
  rcases k.roles s with hk | ⟨hk, hk'⟩
  · rw [hk]; exact h.roles s
  · refine .inr ⟨?_, hk'⟩
    rcases h.roles s with hh | ⟨hh, -⟩
    · rw [← hh]; exact hk
    · exact hh

theorem Library.RolesCalm.free {a b : Library} (h : a.RolesCalm b) : a.RolesFree b :=
  ⟨fun s => .inl (by unfold Library.role; rw [h.roles]), h.primary, h.twin, h.state, h.rescue⟩

/-- What a cartridge that comes or goes, or a change of the blank pool, does. -/
structure Library.Comes (a b : Library) : Prop extends Library.Steady a b, Library.RolesFree a b, Library.FilesCalm a b

theorem Library.Comes.trans {a b c : Library} (h : a.Comes b) (k : b.Comes c) : a.Comes c :=
  { h.toSteady.trans k.toSteady, h.toRolesFree.trans k.toRolesFree, h.toFilesCalm.trans k.toFilesCalm with }

theorem Library.Calm.comes {a b : Library} (h : a.Calm b) : a.Comes b :=
  { h.toSteady, h.toRolesCalm.free, h.toFilesCalm with }

theorem Library.Comes.foldl {α : Type} {f : Library → α → Library} (h : ∀ (l : Library) x, l.Comes (f l x)) (xs : List α) (l : Library) :
    l.Comes (xs.foldl f l) :=
  List.foldlRecOn (motive := fun m => l.Comes m) xs f (Library.Calm.refl l).comes fun m hm x _ => hm.trans (h m x)

variable (e : Env) (l : Library)

theorem comes_setRole {s : Side} {r : Role} (h : (l.role s).inUse = false) (hr : r.inUse = false) : l.Comes (l.setRole s r) :=
  { (Library.Calm.refl l).comes with
    roles := fun t => by
      rw [show (l.setRole s r).role t = if s = t then r else l.role t from look_put ..]
      split
      next ht => subst ht; exact .inr ⟨h, hr⟩
      next => exact .inl rfl }

/-- R167: sides leave the rescue queue. -/
theorem comes_leaveQueue (p : Side → Bool) (due : Bool) : l.Comes { l with care := { l.care with queue := l.care.queue.filter p, seekDue := due } } :=
  { (Library.Calm.of_same : l.Calm { l with care := { l.care with seekDue := due } }).comes with
    queue := fun h => ⟨(List.length_filter_le _ _).trans h.1, h.2.filter _⟩ }

theorem calm_faultMissing (s : Slot) (d : Option Drive) : l.Calm (l.faultMissing e s d) := by
  unfold Library.faultMissing
  split
  · exact calm_fault e l _
  · exact .refl l

theorem comes_stopped {r : RescueRecord} (h : l.care.rescue = some r) (b : Bool) :
    l.Comes { l with care := { l.care with rescue := some { r with stopped := b } } } :=
  { (Library.Calm.refl l).comes with rescue := by rw [h]; rfl }

theorem comes_stopRescue : l.Comes l.stopRescue := by
  unfold Library.stopRescue
  split
  next r hr => exact (calm_dropBatch l).comes.trans (comes_stopped l.dropBatch hr true)
  next => exact (Library.Calm.refl l).comes

theorem comes_removal (s : Slot) : l.Comes (l.removal e s) := by
  have hroles : l.Comes ((sidesOf s).foldl (fun l d => if l.role d = .blank then l.setRole d .unlisted else l) (l.setLocation s .absent)) :=
    (calm_setLocation l s .absent).comes.trans (Library.Comes.foldl (fun l d => by
      split
      next h => exact comes_setRole l (by rw [h]; rfl) rfl
      next => exact (Library.Calm.refl l).comes) _ _)
  unfold Library.removal
  dsimp only
  generalize (sidesOf s).foldl _ _ = m at hroles
  have hqueue : m.Comes (if m.care.queue.any fun q => slotOf q == s then
      { m with care := { m.care with queue := m.care.queue.filter fun q => slotOf q != s, seekDue := true } } else m) := by
    split
    · exact comes_leaveQueue m _ true
    · exact (Library.Calm.refl m).comes
  generalize (if m.care.queue.any _ then _ else m) = n at hqueue
  have hmiss := (hroles.trans hqueue).trans (calm_faultMissing e n s none).comes
  split
  · exact hmiss.trans (comes_stopRescue _)
  · exact hmiss

theorem comes_insertion (s : Slot) : l.Comes (l.insertion s) := by
  unfold Library.insertion
  dsimp only
  have h := (calm_setLocation l s .inSlot).comes
  generalize l.setLocation s .inSlot = m at h
  refine h.trans ?_
  split
  · split
    next r hr =>
      split
      · exact comes_stopped m hr false
      · exact (Library.Calm.refl m).comes
    next => exact (Library.Calm.refl m).comes
  · split
    next hu hall =>
      have hfree : ∀ d ∈ sidesOf s, (m.role d).inUse = false := fun d hd => by
        have := List.all_eq_true.mp hall d hd
        cases hr : m.role d <;> rw [hr] at this <;> first | rfl | cases this
      suffices ∀ (xs : List Side) (n : Library), (∀ d ∈ xs, (n.role d).inUse = false) →
          n.Comes (xs.foldl (fun l d => (l.setRole d .unlisted).setHealth d .zero) n) from this _ m hfree
      intro xs
      induction xs with
      | nil => exact fun n _ => (Library.Calm.refl n).comes
      | cons d ds ih =>
        intro n hn
        have hone := (comes_setRole n (hn d (.head _)) (r := .unlisted) rfl).trans (calm_setHealth _ d .zero).comes
        refine hone.trans (ih _ fun c hc => ?_)
        rcases hone.roles c with h' | ⟨-, h'⟩
        · rw [h']; exact hn c (.tail _ hc)
        · exact h'
    next => exact (Library.Calm.refl m).comes

theorem comes_presence (s : Slot) (seated : Bool) : l.Comes (l.presence e s seated) := by
  unfold Library.presence
  dsimp only
  have h0 : l.Calm (if seated then l.setSeated s seated else allDrives.foldl (Library.askDropped s) (l.setSeated s seated)) := by
    split
    · exact calm_setSeated l s seated
    · exact (calm_setSeated l s seated).trans (Library.Calm.foldl (fun l d => calm_askDropped l s d) _ _)
  generalize (if seated then _ else _ : Library) = m at h0
  refine h0.comes.trans ?_
  have hr := (Library.Calm.refl m).comes
  split
  · exact hr
  · split
    · split
      · exact hr
      · exact comes_removal e m s
    · split
      · exact comes_insertion m s
      · exact hr
    · exact hr
    · exact hr

theorem comes_comparePresence (s : Slot) : l.Comes (l.comparePresence e s) := by
  have hr := (Library.Calm.refl l).comes
  unfold Library.comparePresence
  split
  · split
    · exact hr
    · exact comes_removal e l s
  · split
    · exact comes_insertion l s
    · exact hr
  · exact hr

/-! ## Moves -/

theorem comes_completeMove (m : Move) : l.Comes (l.completeMove e m) := by
  unfold Library.completeMove
  dsimp only
  have h0 := calm_picker l { l.picker with state := .idle, record := none, awaitCaddy := false }
  split
  · exact (h0.trans ((((calm_setLocation _ _ _).trans (calm_callPatrol _)).trans (calm_setDrive_same _ (by rfl))).trans (calm_sendSpinUp e _ _))).comes
  next s d _ =>
    have h1 := h0.trans (calm_setLocation _ s .inSlot)
    generalize (Library.setLocation _ s .inSlot) = n at h1
    have hslot (k : Library) (hk : l.Calm k) : l.Comes (if k.seated s then k else k.removal e s) := by
      split
      · exact hk.comes
      · exact hk.comes.trans (comes_removal e k s)
    cases d with
    | none => exact hslot n h1
    | some d => exact hslot _ (h1.trans (calm_setDrive_same n (by rfl)))

theorem comes_retryMove (m : Move) : l.Comes (l.retryMove e m) := by
  unfold Library.retryMove
  dsimp only
  have h0 := calm_picker l { l.picker with state := .retry }
  split
  · exact (h0.trans ((calm_picker _ _).trans (calm_emit _ _))).comes
  · split
    · exact h0.comes.trans (comes_completeMove e _ _)
    · exact (h0.trans (calm_resend e _ _)).comes

theorem comes_attemptFailed (grip caddy expired : Bool) : l.Comes (l.attemptFailed e grip caddy expired) := by
  have hr := (Library.Calm.refl l).comes
  unfold Library.attemptFailed
  split
  · exact hr
  next m _ =>
    split
    · exact hr
    · split
      · exact (calm_picker l _).comes
      · split
        · exact comes_retryMove e l m
        · exact (calm_secondFailure e l m grip caddy).comes
        · exact hr

theorem comes_caddyAnswer (m : Move) (seated : Bool) : l.Comes (l.caddyAnswer e m seated) := by
  unfold Library.caddyAnswer
  split
  · exact comes_completeMove e l m
  · exact (calm_resend e l m).comes

/-! ## The blank pool -/

theorem Library.setRoles_role (r : Role) (xs : List Side) (s : Side) :
    (xs.foldl (fun l s => l.setRole s r) l).role s = if s ∈ xs then r else l.role s := by
  induction xs generalizing l with
  | nil => rfl
  | cons x xs ih =>
    rw [List.foldl_cons, ih]
    by_cases hs : s ∈ xs
    · simp [hs]
    · rw [if_neg hs, show (l.setRole x r).role s = if x = s then r else l.role s from look_put ..]
      by_cases hx : x = s
      · simp [hx]
      · simp [hx, hs, Ne.symm hx]

/-- R15: sides that no book and no rescue uses change their roles together. -/
theorem comes_setRoles {r : Role} (hr : r.inUse = false) : ∀ (xs : List Side) (l : Library), (∀ s ∈ xs, (l.role s).inUse = false) →
    l.Comes (xs.foldl (fun l s => l.setRole s r) l)
  | [], l, _ => (Library.Calm.refl l).comes
  | s :: xs, l, h => by
    have hone := comes_setRole l (h s (.head _)) hr
    refine hone.trans (comes_setRoles hr xs _ fun t ht => ?_)
    rcases hone.roles t with h' | ⟨-, h'⟩
    · rw [h']; exact h t (.tail _ ht)
    · exact h'

theorem comes_addToPool {l m : Library} {xs : List Nat} (h : l.addToPool xs = some m) : l.Comes m := by
  unfold Library.addToPool at h
  split at h
  next ss _ =>
    split at h
    next ha =>
      cases h
      refine (comes_setRoles rfl ss l fun s hs => ?_).trans (calm_callRescue _).comes
      simp only [Library.poolAddable, Bool.and_eq_true, List.all_eq_true, beq_iff_eq] at ha
      rw [(ha.2 s hs).1]; rfl
    next => cases h
  next => cases h

theorem comes_takeFromPool {l m : Library} {xs : List Nat} (h : l.takeFromPool xs = some m) : l.Comes m := by
  unfold Library.takeFromPool at h
  split at h
  next ss _ =>
    split at h
    next ha =>
      cases h
      refine comes_setRoles rfl ss l fun s hs => ?_
      simp only [Library.poolRemovable, Bool.and_eq_true, List.all_eq_true, beq_iff_eq] at ha
      rw [ha.2 s hs]; rfl
    next => cases h
  next => cases h

end Sys2Proof.Machine
end

section
-- One declaration after the other: the stacks of the threads that wait for each other count against the check's memory limit.
set_option Elab.async false
namespace Sys2Proof.Machine

variable (e : Env) (l : Library)

/-! ## The updates that concern FILEs and roles keep the bounds, CLOSED books and the first fault -/

/-- An update that keeps the queue, the log and the escalation, and reopens no CLOSED book. -/
theorem Library.Steady.of_state {a b : Library} (hs : ∀ k, (a.book k).state = .closed → (b.book k).state = .closed)
    (queue : b.care.queue = a.care.queue := by rfl) (log : b.log = a.log := by rfl)
    (esc : b.buffer.escalation = a.buffer.escalation := by rfl) (copy : b.scheduler.escalation = a.scheduler.escalation := by rfl) : a.Steady b where
  queue h := by rw [queue]; exact h
  later h := by rw [log]; exact h
  copy h := by rw [esc, copy]; exact h
  closed := hs
  first r h := by rw [log]; exact h

theorem Library.Steady.refl (l : Library) : l.Steady l := (Library.Calm.refl l).toSteady

theorem Library.Steady.foldl {α : Type} {f : Library → α → Library} (h : ∀ (l : Library) x, l.Steady (f l x)) (xs : List α) (l : Library) :
    l.Steady (xs.foldl f l) :=
  List.foldlRecOn (motive := fun m => l.Steady m) xs f (.refl l) fun m hm x _ => hm.trans (h m x)

theorem Library.book_setBook (b c : Book) (k : BookEntry) : (l.setBook b k).book c = if b = c then k else l.book c := look_put ..

theorem steady_setBook {b : Book} {k : BookEntry} (h : (l.book b).state = .closed → k.state = .closed) : l.Steady (l.setBook b k) :=
  .of_state fun c hc => by
    rw [Library.book_setBook]
    split
    next hb => subst hb; exact h hc
    next => exact hc

theorem steady_raiseFiling (b : Book) : l.Steady (l.raiseFiling b) := steady_setBook l id

theorem rolesCalm_setBook {b : Book} {k : BookEntry} (hp : k.primary = (l.book b).primary) (ht : k.twin = (l.book b).twin)
    (hs : k.state = (l.book b).state) : l.RolesCalm (l.setBook b k) := by
  refine ⟨rfl, fun c => ?_, fun c => ?_, fun c => ?_, rfl⟩ <;> rw [Library.book_setBook] <;> split <;> first
    | rfl
    | next hc => subst hc; assumption

/-- The end of an OK primary write, or of one that failed, keeps all but the FILEs. -/
theorem filed_keeps (t : Tag) (g : Filing) : l.Steady (l.filed e t g) ∧ l.RolesCalm (l.filed e t g) := by
  have h1 := steady_raiseFiling l g.book
  have h2 : l.RolesCalm (l.raiseFiling g.book) := rolesCalm_setBook l rfl rfl rfl
  have h3 := calm_keepFiled e (l.raiseFiling g.book) g.book g.frame g.received
  obtain ⟨h4, h5⟩ := endRequest_keeps ((l.raiseFiling g.book).keepFiled e g.book g.frame g.received) t .done g.len 0
  exact ⟨(h1.trans h3.toSteady).trans h4, (h2.trans h3.toRolesCalm).trans h5⟩

/-- What the failure of a primary write does between its marks and the end of its request. -/
def Library.countSpent (e : Env) (l : Library) (t : Tag) (g : Filing) (s : Side) (d : Drive) (count : Bool) : Library :=
  ((if count then l.countWriteFail e s else l).faultWrite e g.book s g.frame d (some t)).examine e g.book

theorem Library.spent_eq (t : Tag) (g : Filing) (s : Side) (d : Drive) (count : Bool) :
    l.spent e t g s d count = ((l.raiseFiling g.book).countSpent e t g s d count).endRequest t .fileFailed 0 0 := rfl

theorem calm_countSpent (t : Tag) (g : Filing) (s : Side) (d : Drive) (count : Bool) : l.Calm (l.countSpent e t g s d count) := by
  have h : l.Calm (if count then l.countWriteFail e s else l) := by
    split
    · exact calm_countWriteFail e l s
    · exact .refl l
  exact h.trans ((calm_faultWrite e _ _ _ _ _ _).trans (calm_examine e _ _))

theorem spent_keeps (t : Tag) (g : Filing) (s : Side) (d : Drive) (count : Bool) :
    l.Steady (l.spent e t g s d count) ∧ l.RolesCalm (l.spent e t g s d count) := by
  have h1 := steady_raiseFiling l g.book
  have h2 : l.RolesCalm (l.raiseFiling g.book) := rolesCalm_setBook l rfl rfl rfl
  have h3 := calm_countSpent e (l.raiseFiling g.book) t g s d count
  rw [Library.spent_eq]
  obtain ⟨h4, h5⟩ := endRequest_keeps ((l.raiseFiling g.book).countSpent e t g s d count) t .fileFailed 0 0
  exact ⟨(h1.trans h3.toSteady).trans h4, (h2.trans h3.toRolesCalm).trans h5⟩

theorem steady_setEntry (t : Tag) (x : Option Entry) : l.Steady (l.setEntry t x) := .of_state fun _ => id

theorem rolesCalm_setEntry (t : Tag) (x : Option Entry) : l.RolesCalm (l.setEntry t x) := ⟨rfl, fun _ => rfl, fun _ => rfl, fun _ => rfl, rfl⟩

theorem steady_unwindFile (t : Tag) (o : Outcome) : l.Steady (l.unwindFile t o) := by
  unfold Library.unwindFile
  split
  · split
    · exact .refl l
    · exact (endRequest_keeps l t o _ _).1
  · exact .refl l

theorem steady_unwindAll : l.Steady l.unwindAll := by
  refine Library.Steady.foldl (fun l t => ?_) allTags l
  split
  · exact (steady_unwindFile l t _).trans (steady_setBook _ id)
  · exact .refl l

/-! ## The rescue and the table writes -/

theorem steady_loseTarget (r : RescueRecord) (s : Side) : l.Steady (l.loseTarget r s) := by
  have h0 : l.Steady (l.setRole s (.retired r.book)) := .of_state fun _ => id
  exact (h0.trans (calm_dropBatch _).toSteady).trans (.of_state fun _ => id)

theorem filesCalm_loseTarget (r : RescueRecord) (s : Side) : l.FilesCalm (l.loseTarget r s) := by
  have h0 : l.FilesCalm (l.setRole s (.retired r.book)) := .of_same
  exact (h0.trans (calm_dropBatch _).toFilesCalm).trans .of_same

theorem steady_closeBook {l m : Library} {b : Book} (h : l.closeBook b = some m) : l.Steady m := by
  unfold Library.closeBook at h
  dsimp only at h
  split at h
  · cases h
  · cases h; exact steady_setBook l fun _ => rfl
  · cases h; exact .refl l

theorem steady_takeSide (s : Side) (r : Role) : l.Steady (l.takeSide s r) := .of_state fun _ => id

/-- R6: the sides of an assignment take their roles. -/
def Library.takeSides (l : Library) (b : Book) (p : Side) (q : Option Side) : Library :=
  match q with
  | some t => (l.takeSide p (.primary b)).takeSide t (.twin b)
  | none => l.takeSide p (.primary b)

/-- R6: the book entry of an assignment. -/
def BookEntry.fresh (p : Side) (q : Option Side) : BookEntry :=
  { state := .opened, primary := some p, twin := q, filing := 0, intake := 0, twinMark := 0 }

theorem Library.assignSides_eq (b : Book) (p : Side) (q : Option Side) :
    l.assignSides e b p q = (((l.takeSides b p q).setBook b (.fresh p q)).setTwin b .none).examine e b := by
  cases q <;> rfl

theorem steady_takeSides (b : Book) (p : Side) (q : Option Side) : l.Steady (l.takeSides b p q) := by
  cases q with
  | none => exact steady_takeSide l _ _
  | some t => exact (steady_takeSide l _ _).trans (steady_takeSide _ _ _)

theorem Library.takeSides_book (b c : Book) (p : Side) (q : Option Side) : (l.takeSides b p q).book c = l.book c := by cases q <;> rfl

theorem steady_assignSides {b : Book} (p : Side) (q : Option Side) (h : (l.book b).state = .unassigned) : l.Steady (l.assignSides e b p q) := by
  have h2 : ((l.takeSides b p q).book b).state = .closed → (BookEntry.fresh p q).state = .closed := by
    rw [Library.takeSides_book, h]; nofun
  rw [Library.assignSides_eq]
  exact ((steady_takeSides l b p q).trans (steady_setBook _ h2)).trans ((calm_setTwin _ b .none).trans (calm_examine e _ b)).toSteady

theorem Library.addTwin_eq_some {m : Library} {b : Book} {t : Nat} (h : l.addTwin e b t = some m) :
    ∃ s, sideField t = some s ∧ l.twinAddable b s = true
      ∧ m = (((l.takeSide s (.twin b)).setBook b { l.book b with twin := some s, twinMark := 0 }).setTwin b .none).examine e b := by
  unfold Library.addTwin at h
  split at h
  next s hs =>
    split at h
    next ha => cases h; exact ⟨s, hs, ha, rfl⟩
    next => cases h
  next => cases h

theorem steady_addTwin {m : Library} {b : Book} {t : Nat} (h : l.addTwin e b t = some m) : l.Steady m := by
  obtain ⟨s, -, -, rfl⟩ := Library.addTwin_eq_some e l h
  have h2 : (l.takeSide s (.twin b)).Steady ((l.takeSide s (.twin b)).setBook b { l.book b with twin := some s, twinMark := 0 }) :=
    steady_setBook _ id
  exact ((steady_takeSide l s (.twin b)).trans h2).trans ((calm_setTwin _ b .none).trans (calm_examine e _ b)).toSteady

theorem calm_untwinWindows (t : Tag) (b : Book) : l.Calm (l.untwinWindows t b) := by
  refine calm_eachWindow l t _ fun l w => ?_
  split
  · split
    · exact (calm_withdraw l _ _).trans (calm_holdFallback _ t w)
    · exact .refl l
  · exact .refl l

/-- R8: what a twin removal does once the side and the book entry have changed. -/
def Library.afterRemoval (e : Env) (l : Library) (b : Book) (s : Side) : Library :=
  let l := l.mapCommands (Command.orphanTwinWrite b fun _ => true)
  let l := l.leaveHold fun h => h.book == b
  let l := if l.care.queue.contains s then
      { l with care := { l.care with queue := l.care.queue.filter fun q => q != s, seekDue := true } }
    else l
  allTags.foldl (fun l t => l.untwinWindows t b) (l.examine e b)

theorem Library.removeTwin_eq_some {m : Library} {b : Book} (h : l.removeTwin e b = some m) :
    ∃ s, l.twinRemovable b = some s
      ∧ m = ((l.setRole s (.retired b)).setBook b { l.book b with twin := none, twinMark := (l.book b).filing }).afterRemoval e b s := by
  unfold Library.removeTwin at h
  split at h
  next s hs =>
    refine ⟨s, hs, (Option.some.inj h).symm.trans ?_⟩
    unfold Library.afterRemoval
    with_reducible rfl
  next => cases h

theorem comes_afterRemoval (b : Book) (s : Side) : l.Comes (l.afterRemoval e b s) := by
  unfold Library.afterRemoval
  dsimp only
  have h1 := (calm_mapCommands l (Command.orphanTwinWrite_primaryWrite b fun _ => true)).trans (calm_leaveHold _ fun h => h.book == b)
  generalize Library.leaveHold (l.mapCommands _) _ = m at h1
  have h2 : m.Comes (if m.care.queue.contains s then
      { m with care := { m.care with queue := m.care.queue.filter fun q => q != s, seekDue := true } } else m) := by
    split
    · exact comes_leaveQueue m _ true
    · exact (Library.Calm.refl m).comes
  exact (h1.comes.trans h2).trans ((calm_examine e _ b).trans (Library.Calm.foldl (fun l t => calm_untwinWindows l t b) _ _)).comes

theorem steady_removeTwin {m : Library} {b : Book} (h : l.removeTwin e b = some m) : l.Steady m := by
  obtain ⟨s, -, h⟩ := Library.removeTwin_eq_some e l h
  rw [h]
  have h1 : l.Steady (l.setRole s (.retired b)) := .of_state fun _ => id
  have h2 : (l.setRole s (.retired b)).Steady
      ((l.setRole s (.retired b)).setBook b { l.book b with twin := none, twinMark := (l.book b).filing }) := steady_setBook _ id
  exact (h1.trans h2).trans (comes_afterRemoval e _ b s).toSteady

end Sys2Proof.Machine
end

section
-- One declaration after the other: the stacks of the threads that wait for each other count against the check's memory limit.
set_option Elab.async false
namespace Sys2Proof.Machine

/-! # Every command by its own effect -/

/-- How an event ends whose own effect leaves the library `m`: with nothing more, with the responses queued, or with the reactions. -/
def State.EndsAs (s t : State) (m : Library) : Prop :=
  (t.lib = m ∧ m.front.ending = s.lib.front.ending) ∨ t.lib = m.finish ∨ ∃ was, t.lib = m.settle t.env was

/-- The directory entries that are BLANK are the same. -/
def Env.SameBlank (a b : Env) : Prop := ∀ k f, b.frame k f = .blank ↔ a.frame k f = .blank

theorem Env.SameBlank.of_directory {a b : Env} (h : b.directory = a.directory) : a.SameBlank b := fun _ _ => by
  unfold Env.frame; rw [h]

/-- R36: the own effect of an accepted FILE. -/
def Library.takeFile (e : Env) (l : Library) (r : RequestRecord) (b : Book) : Library :=
  (l.setEntry r.tag (some (newEntry r (.file (l.newFiling e r b))))).setBook b { l.book b with intake := (l.book b).intake + 1 }

/-- R28: the own effect of a response that is sent. -/
def Library.sendResponse (l : Library) (r : Response) (rest : List Response) : Library :=
  let m := (l.setEntry r.tag none).emit (.response r)
  { m with front := { m.front with responses := rest } }

/-- What a command's own effect can do to the library, where start-up is over: nothing that the requests of FILEs, their marks and the roles are concerned with,
or one of the events that are. -/
inductive State.Effect (s t : State) (c : Instr) : Library → Prop
  | comes (m : Library) (h : s.lib.Comes m) (blank : s.env.SameBlank t.env) : Effect s t c m
  | loses (l : Library) (r : RescueRecord) (side : Side) (h : s.lib.Calm l) (rescue : l.care.rescue = some r) (target : r.target = some side)
      (blank : s.env.SameBlank t.env) : Effect s t c (l.loseTarget r side)
  | accepts (r : RequestRecord) (b : Book) (l : Library) (h : l = s.begin.lib.emit (.accept r.tag)) (free : s.lib.entry r.tag = none)
      (book : bookOf r.addr.val = some b) (check : s.begin.lib.fileCheck s.env r b = none) (env : t.env = s.env) : Effect s t c (l.takeFile s.env r b)
  | files (d : Drive) (v : InService) (tag : Tag) (b : Book) (f : Nat) (x : Entry) (g : Filing) (l : Library) (run : Running s d v)
      (command : v.command = .primaryWrite tag b f) (file : s.lib.fileOf tag = some (x, g)) (h : s.lib.Calm l)
      (idle : (l.drive d).service = none) (env : t.env = s.env.setFrame b f (s.env.filedEntry g)) : Effect s t c (l.filed t.env tag g)
  | spends (d : Drive) (v : InService) (tag : Tag) (b : Book) (f : Nat) (x : Entry) (g : Filing) (l m : Library) (e : Env) (count : Bool) (run : Running s d v)
      (command : v.command = .primaryWrite tag b f) (file : s.lib.fileOf tag = some (x, g)) (h : s.lib.Calm l)
      (idle : (l.drive d).service = none) (env : t.env = { s.env with now := t.env.now, directory := dirPut s.env.directory (frameKey b f) .void })
      (after : (l.spent e tag g v.side d count).Calm m) : Effect s t c m
  | holds (l : Library) (h : s.lib.Calm l) (env : t.env = s.env.inHold) : Effect s t c l.unwindAll
  | responds (r : Response) (rest : List Response) (x : Entry) (responses : s.lib.front.responses = r :: rest) (entry : s.lib.entry r.tag = some x)
      (env : t.env = s.env) : Effect s t c (s.begin.lib.sendResponse r rest)
  | writes (tag : Tag) (key : KeyPosition) (x : Entry) (w : ServiceWrite) (u : State) (spelt : spells c tag key x.block w)
      (awaits : AwaitsWrite s tag x x.block) (allowed : w.refusal key = none) (h : s.begin.applyWrite w = some u) (env : t.env = u.env) :
      Effect s t c (u.lib.endRequest tag .done 1 0)

/-- A command that is no event, or one during start-up that start-up notes and does not take. -/
structure State.Idle (s t : State) : Prop where
  lib : ∃ seated, t.lib = { s.begin.lib with picker := { s.lib.picker with presence := seated } }
  directory : t.env.directory = s.env.directory
  start : t.env.startUp.isSome = s.env.startUp.isSome

theorem State.Idle.begin (s : State) : s.Idle s.begin := ⟨⟨_, rfl⟩, rfl, rfl⟩

/-- What a command does: nothing; an own effect with the reactions to it; or the start-up that it begins or goes on with. -/
def State.Takes (s t : State) (c : Instr) : Prop :=
  s.Idle t
  ∨ (s.env.startUp = none ∧ t.env.startUp = none ∧ ∃ m, s.EndsAs t m ∧ s.Effect t c m)
  ∨ (∃ d seated w, c = .caddyReport d seated ∧ s.env.startUp = some w ∧ t = s.begin.resumeStart w seated)
  ∨ ∃ cause i, c = .reset cause i ∧ t = s.begin.startUp cause i

section
variable {s t : State} {c : Instr}

/-- An event with a calm own effect. -/
theorem State.Takes.of_calm {m : Library} (hs : s.env.startUp = none) (ht : t.env.startUp = none) (h : s.begin.lib.Calm m)
    (ends : s.EndsAs t m) (blank : s.env.SameBlank t.env) : s.Takes t c :=
  .inr (.inl ⟨hs, ht, m, ends, .comes m (Library.Calm.trans (b := s.begin.lib) .of_same h).comes blank⟩)

theorem State.Takes.of_comes {m : Library} (hs : s.env.startUp = none) (ht : t.env.startUp = none) (h : s.begin.lib.Comes m)
    (ends : s.EndsAs t m) (blank : s.env.SameBlank t.env) : s.Takes t c :=
  .inr (.inl ⟨hs, ht, m, ends, .comes m ((Library.Calm.of_same : s.lib.Calm s.begin.lib).comes.trans h) blank⟩)

/-- A reaction to a calm own effect, with the environment but for the time as it was. -/
theorem State.Takes.react {u : State} {was : Library} (hs : s.env.startUp = none) (he : u.env = { s.env with now := u.env.now }) (h : s.begin.lib.Comes u.lib) :
    s.Takes (u.react was) c :=
  .of_comes hs (by rw [State.react_env, he]; exact hs) h (.inr (.inr ⟨_, rfl⟩)) (.of_directory (by rw [State.react_env, he]))

theorem State.Takes.finish {u : State} (hs : s.env.startUp = none) (he : u.env = s.env) (h : s.begin.lib.Calm u.lib) : s.Takes u.finish c :=
  .of_calm hs (by rw [State.finish_env, he]; exact hs) h (.inr (.inl rfl)) (.of_directory (by rw [State.finish_env, he]))

theorem State.Takes.event {f : State → State} (h : s.event f = .next t) (hf : s.env.startUp = none → s.Takes (f s.begin) c) : s.Takes t c := by
  rcases State.event_eq h with rfl | ⟨hs, rfl⟩
  · exact .inl (.begin s)
  · exact hf hs

theorem State.Takes.outcome {d : Drive} {f : State → InService → State} (h : s.outcome d f = .next t)
    (hf : ∀ v, Running s d v → s.Takes (f s.begin v) c) : s.Takes t c := by
  rcases State.event_eq h with rfl | ⟨hs, -⟩
  · exact .inl (.begin s)
  · rcases State.outcome_eq h with rfl | rfl | ⟨v, hv, rfl⟩
    · exact .inl (.begin s)
    · exact .of_calm hs hs (calm_setDrive_same s.begin.lib (by rfl)) (.inl ⟨rfl, rfl⟩) (.of_directory rfl)
    · exact hf v hv.toRunning

end

variable (s : State)

/-! ## Requests -/

theorem takes_takeRecord {c : Instr} (hs : s.env.startUp = none) (r : RequestRecord) (check : Option Outcome) (proceed : State → State)
    (hp : check = none → s.lib.entry r.tag = none → s.Takes (proceed { s.begin with lib := s.begin.lib.emit (.accept r.tag) }) c) :
    s.Takes (s.begin.takeRecord r check proceed) c := by
  have hemit := calm_emit s.begin.lib (.accept r.tag)
  unfold State.takeRecord
  dsimp only
  split
  · exact .of_calm hs hs (hemit.trans (calm_emit _ _)) (.inl ⟨rfl, rfl⟩) (.of_directory rfl)
  next hfree =>
    have hrefuse (o : Outcome) := hemit.trans (calm_refuse (s.begin.lib.emit (.accept r.tag)) r o hfree)
    split
    · exact .finish hs rfl (hrefuse _)
    · split
      · exact .finish hs rfl (hrefuse _)
      · exact hp rfl hfree

theorem takes_fetchRequest {t : State} {r : RequestRecord} (h : exec (.fetchRequest r) s = .next t) : s.Takes t (.fetchRequest r) :=
  State.Takes.event (show execFetchRequest r s = _ from h) fun hs => takes_takeRecord s hs r _ _ fun _ hfree => by
    have hemit := calm_emit s.begin.lib (.accept r.tag)
    have hnew (j : Job) (hj : (newEntry r j).fileKey = none) :=
      hemit.trans (calm_newEntry (s.begin.lib.emit (.accept r.tag)) (y := newEntry r j) hfree rfl hj)
    unfold State.acceptFetch
    split
    · exact State.Takes.react (u := { s.begin with
        lib := (s.begin.lib.emit (.accept r.tag)).setEntry r.tag (some (newEntry r (.fetch (cutRun r)))) }) hs (by rfl) (hnew _ rfl).comes
    · exact .finish hs rfl (hnew _ rfl)

theorem takes_fileRequest {t : State} {r : RequestRecord} (h : exec (.fileRequest r) s = .next t) : s.Takes t (.fileRequest r) :=
  State.Takes.event (show execFileRequest r s = _ from h) fun hs => takes_takeRecord s hs r _ _ fun hc hfree => by
    have hemit := calm_emit s.begin.lib (.accept r.tag)
    unfold State.acceptFile
    split
    next b hb =>
      unfold Library.fileArrival at hc
      rw [hb] at hc
      exact .inr (.inl ⟨hs, hs, _, .inr (.inl rfl), .accepts r b _ rfl hfree hb hc rfl⟩)
    · exact .finish hs rfl (hemit.trans (calm_newEntry (s.begin.lib.emit (.accept r.tag)) (y := newEntry r (.serviceWrite false)) hfree rfl rfl))

theorem calm_pullSent {t : Tag} {x : Entry} (h : s.lib.entry t = some x) (n : Nat) :
    s.begin.lib.Calm { (s.begin.lib.setEntry t (some { x with job := x.job.pulled })).emit (.pull t n) with
      front := { ((s.begin.lib.setEntry t (some { x with job := x.job.pulled })).emit (.pull t n)).front with
        ready := ((s.begin.lib.setEntry t (some { x with job := x.job.pulled })).emit (.pull t n)).front.ready.tail } } := by
  have h1 : s.begin.lib.Calm (s.begin.lib.setEntry t (some { x with job := x.job.pulled })) :=
    calm_setEntry s.begin.lib (y := { x with job := x.job.pulled }) h rfl (Job.pulled_fileKey x) id
  exact (h1.trans (calm_emit _ (.pull t n))).trans .of_same

theorem takes_pull {t : State} (h : exec .pull s = .next t) : s.Takes t .pull :=
  State.Takes.event (show execPull s = _ from h) fun hs => by
    split
    · split
      next x hx => exact .finish hs rfl (calm_pullSent s hx _)
      next => exact .inl (.begin s)
    · exact .inl (.begin s)

theorem takes_responseSent {t : State} (h : exec .responseSent s = .next t) : s.Takes t .responseSent :=
  State.Takes.event (show execResponseSent s = _ from h) fun hs => by
    split
    next r rest hr =>
      split
      next x hx =>
        split
        · exact .inr (.inl ⟨hs, hs, _, .inr (.inl rfl), .responds r rest x hr hx rfl⟩)
        · exact .inl (.begin s)
      next => exact .inl (.begin s)
    · exact .inl (.begin s)

theorem takes_burstSent {t : State} {n : Nat} (h : exec (.burstSent n) s = .next t) : s.Takes t (.burstSent n) :=
  State.Takes.event (show execBurstSent n s = _ from h) fun hs => by
    have hno : s.Takes s.begin (.burstSent n) := .inl (.begin s)
    split
    next tag _ =>
      split
      next x hx =>
        split
        next hl =>
          split
          next g hg =>
            split
            next w ws _ =>
              refine .react hs ?_ (calm_deliver s.begin hx w _).comes
              obtain ⟨he, -⟩ := State.deliver_accounts s.begin tag x w (w.burst (sectorOf (x.record.addr.val + x.moved)) n)
              rw [he]; rfl
            next => exact hno
          next hj =>
            refine .finish hs ?_ (calm_deliverPages s.begin s.begin hx (Entry.live_iff.mp hl) (by simp [Entry.fileKey, hj]) _)
            exact (State.deliverPages_accounts s.begin s.begin tag x (min n Config.sectorsPerFrame)).1
          next => exact hno
        · exact hno
      next => exact hno
    next => exact hno

/-- R186: a service write whose sector has arrived. -/
theorem takes_endWrite {c : Instr} {tag : Tag} {key : KeyPosition} {x : Entry} {w : ServiceWrite} (hc : spells c tag key x.block w)
    (hx : AwaitsWrite s tag x x.block) : s.Takes (s.begin.endWrite tag w key) c := by
  rcases s.begin.endWrite_eq tag w key with ⟨o, -, h⟩ | ⟨u, hr, hu, h⟩ <;> rw [h]
  · exact .finish hx.started rfl (calm_endRequest s.begin.lib hx.entry hx.live (by simp [Entry.fileKey, hx.job]) o _ 0)
  · have henv : u.env.startUp = none := by
      rcases (State.applyWrite_accounts hu) with ⟨_, he, _⟩ | ⟨he, _⟩ | ⟨_, he, _⟩ | ⟨he, _⟩ | ⟨_, he, _⟩ | ⟨_, he, _⟩ | ⟨_, he, _⟩ | ⟨_, _, _, _, he, _⟩ <;>
        rw [he] <;> exact hx.started
    refine .inr (.inl ⟨hx.started, ?_, u.lib.endRequest tag .done 1 0, ?_, .writes tag key x w u hc hx hr hu ?_⟩)
    · split <;> exact henv
    · split
      · exact .inr (.inr ⟨_, rfl⟩)
      · exact .inr (.inl rfl)
    · split <;> rfl

theorem takes_serviceRow {c : Instr} {t : State} {tag : Tag} {key : KeyPosition} {read : Block → Option ServiceWrite}
    (hc : serviceRow c = some (tag, key, read)) (h : exec c s = .next t) : s.Takes t c := by
  rw [exec_serviceRow hc] at h
  cases h
  rcases s.serviceArrival_eq tag key read with h | ⟨x, hx, -, -, hs, -, h⟩ | ⟨x, w, hx, hw, h⟩ <;> rw [h]
  · exact .inl (.begin s)
  · exact .finish hs rfl (calm_discardSector s.begin.lib hx)
  · exact takes_endWrite s (.inl ⟨read, hc, hw⟩) hx

theorem takes_fileBurstArrival {t : State} {tag : Tag} {data : Sector} {key : KeyPosition} (h : exec (.fileBurstArrival tag data key) s = .next t) :
    s.Takes t (.fileBurstArrival tag data key) := by
  rcases exec_fileBurstArrival_eq h with h | ⟨x, hs, -, hx, ⟨g, -, hj, hp, -, h⟩ | ⟨-, -, h⟩ | ⟨hw, h⟩⟩ <;> rw [h]
  · exact .inl (.begin s)
  · exact .react (u := { s.begin with lib := _ }) hs rfl (calm_takeSector s.env s.begin.lib hx hj hp data).comes
  · exact .finish hs rfl (calm_discardSector s.begin.lib hx)
  · exact takes_endWrite s (.inr ⟨data, rfl, rfl⟩) hw

end Sys2Proof.Machine
end

section
-- One declaration after the other: the stacks of the threads that wait for each other count against the check's memory limit.
set_option Elab.async false
namespace Sys2Proof.Machine

variable (s : State)

/-! ## The outcomes of commands -/

/-- R109: what the outcome of a command leaves, before its owner takes it. -/
theorem calm_finished (d : Drive) : s.begin.lib.Calm (s.begin.finishCommand d).lib := calm_finishCommand _ _ d false

theorem takes_fetchReadOutcome {t : State} {d : Drive} {rs : List ReadResult} (h : exec (.fetchReadOutcome d rs) s = .next t) :
    s.Takes t (.fetchReadOutcome d rs) :=
  State.Takes.outcome (show execFetchReadOutcome d rs s = _ from h) fun v hv => by
    split
    next tag b f ss live q hc =>
      split
      · exact State.Takes.react (u := { s.begin with lib := _ }) hv.started (by rfl)
          (((calm_finished s d).trans (calm_countRead _ _ d v.side b f (some tag) rs)).trans
            (calm_fetchOutcome _ _ tag b f live ss rs)).comes
      · exact .inl (.begin s)
    · exact .inl (.begin s)

theorem takes_twinWriteVerified {t : State} {d : Drive} (h : exec (.twinWriteVerified d) s = .next t) : s.Takes t (.twinWriteVerified d) :=
  State.Takes.outcome (show execTwinWriteVerified d s = _ from h) fun v hv => by
    split
    next b f _ _ _ hc =>
      exact State.Takes.react (u := { s.begin with lib := _ }) hv.started (by rfl)
        ((calm_finished s d).trans (calm_twinOutcome _ _ fun hs => calm_twinWritten _ _ f (Library.stillTwin_twin hs))).comes
    · exact .inl (.begin s)

theorem takes_twinWriteFail {t : State} {d : Drive} (h : exec (.twinWriteFail d) s = .next t) : s.Takes t (.twinWriteFail d) :=
  State.Takes.outcome (show execTwinWriteFail d s = _ from h) fun v hv => by
    split
    next b f _ _ _ hc =>
      exact State.Takes.react (u := { s.begin with lib := _ }) hv.started (by rfl)
        (((calm_finished s d).trans (calm_countWriteFail _ _ v.side)).trans
          (calm_twinOutcome _ _ fun _ => calm_twinFailed _ _ b f v.side d)).comes
    · exact .inl (.begin s)

theorem takes_rereadOutcome {t : State} {d : Drive} {rs : List ReadResult} (h : exec (.rereadOutcome d rs) s = .next t) :
    s.Takes t (.rereadOutcome d rs) :=
  State.Takes.outcome (show execRereadOutcome d rs s = _ from h) fun v hv => by
    split
    next b f len live hc =>
      split
      · have h0 := (calm_finished s d).trans (calm_countRead s.begin.env _ d v.side b f none rs)
        refine State.Takes.react (u := { s.begin with lib := _ }) hv.started (by rfl) (Library.Calm.comes (h0.trans ?_))
        split
        · exact calm_rereadOutcome _ _ b f rs
        · exact calm_grantRereads _ _
      · exact .inl (.begin s)
    · exact .inl (.begin s)

theorem Frame.lose_blank (x : Frame) : x.lose = .blank ↔ x = .blank := by cases x <;> simp [Frame.lose]

theorem Env.SameBlank.lose (e : Env) (b : Book) (f : Nat) : e.SameBlank (e.lose b f) := fun k n => by
  unfold Env.lose Env.frame Env.setFrame
  rw [dirGet_dirPut]
  split
  next h => rw [Frame.lose_blank, h]
  next => exact .rfl

/-- R170 to R172: the outcome changes the directory only by the loss of the frame. -/
theorem State.rescueOutcome_env (s : State) (side : Side) (f : Nat) (ss : List Nat) (rs : List ReadResult) :
    (s.rescueOutcome side f ss rs).env = s.env ∨ ∃ b, (s.rescueOutcome side f ss rs).env = s.env.lose b f := by
  unfold State.rescueOutcome
  split
  next r xs _ _ =>
    split
    · dsimp only
      split
      · exact .inr ⟨r.book, rfl⟩
      · exact .inl rfl
    · exact .inl rfl
  next => exact .inl rfl

theorem takes_rescueReadOutcome {t : State} {d : Drive} {rs : List ReadResult} (h : exec (.rescueReadOutcome d rs) s = .next t) :
    s.Takes t (.rescueReadOutcome d rs) :=
  State.Takes.outcome (show execRescueReadOutcome d rs s = _ from h) fun v hv => by
    split
    next b f ss live hc =>
      split
      · dsimp only
        have h0 := (calm_finished s d).trans (calm_countRead s.begin.env _ d v.side b f none rs)
        generalize hm : (s.begin.finishCommand d).lib.countRead s.begin.env d v.side b f none rs = m at h0
        split
        · have h1 := calm_rescueOutcome { s.begin with lib := m } v.side f ss rs
          have he := State.rescueOutcome_env { s.begin with lib := m } v.side f ss rs
          refine .of_comes hv.started ?_ (h0.trans h1).comes (.inr (.inr ⟨_, rfl⟩)) ?_
          · rcases he with he | ⟨b, he⟩ <;> rw [State.react_env, he] <;> exact hv.started
          · rcases he with he | ⟨b, he⟩ <;> rw [State.react_env, he]
            · exact .of_directory rfl
            · exact .lose _ _ _
        · exact State.Takes.react (u := { s.begin with lib := m }) hv.started (by rfl) h0.comes
      · exact .inl (.begin s)
    · exact .inl (.begin s)

theorem takes_rescueWriteVerified {t : State} {d : Drive} (h : exec (.rescueWriteVerified d) s = .next t) : s.Takes t (.rescueWriteVerified d) :=
  State.Takes.outcome (show execRescueWriteVerified d s = _ from h) fun v hv => by
    split
    next b f live hc =>
      refine State.Takes.react (u := { s.begin with lib := _ }) hv.started (by rfl) (Library.Calm.comes ((calm_finished s d).trans ?_))
      split
      · exact calm_mapBatch _ _
      · exact .refl _
    · exact .inl (.begin s)

theorem takes_rescueWriteFail {t : State} {d : Drive} (h : exec (.rescueWriteFail d) s = .next t) : s.Takes t (.rescueWriteFail d) :=
  State.Takes.outcome (show execRescueWriteFail d s = _ from h) fun v hv => by
    split
    next b f live hc =>
      dsimp only
      have h0 := ((calm_finished s d).trans (calm_countWriteFail s.begin.env _ v.side)).trans (calm_faultWrite s.begin.env _ b v.side f d none)
      generalize ((s.begin.finishCommand d).lib.countWriteFail s.begin.env v.side).faultWrite s.begin.env b v.side f d none = m at h0
      split
      next r hr =>
        split
        next ht =>
          have hsm : s.lib.Calm m := Library.Calm.trans (b := s.begin.lib) .of_same h0
          exact .inr (.inl ⟨hv.started, hv.started, _, .inr (.inr ⟨_, rfl⟩), .loses m r v.side hsm hr ht (.of_directory rfl)⟩)
        next => exact State.Takes.react (u := { s.begin with lib := m }) hv.started (by rfl) h0.comes
      next => exact State.Takes.react (u := { s.begin with lib := m }) hv.started (by rfl) h0.comes
    · exact .inl (.begin s)

theorem takes_patrolVerifyOutcome {t : State} {d : Drive} {rs : List ReadResult} (h : exec (.patrolVerifyOutcome d rs) s = .next t) :
    s.Takes t (.patrolVerifyOutcome d rs) :=
  State.Takes.outcome (show execPatrolVerifyOutcome d rs s = _ from h) fun v hv => by
    split
    next b f len hc =>
      split
      · exact State.Takes.react (u := { s.begin with lib := _ }) hv.started (by rfl)
          (((calm_finishCommand s.begin.env s.begin.lib d true).trans (calm_countRead _ _ d v.side b f none rs)).trans
            (calm_patrolled _ _ v.side f)).comes
      · exact .inl (.begin s)
    · exact .inl (.begin s)

/-! ## Primary writes and failures -/

theorem Library.toReady_service (e : Env) (l : Library) (d : Drive) : ((l.toReady e d).drive d).service = (l.drive d).service := by
  unfold Library.toReady Library.sendSpinDown
  split <;> simp

theorem Library.finishCommand_service (e : Env) (l : Library) (d : Drive) (patrol : Bool) : ((l.finishCommand e d patrol).drive d).service = none := by
  have h := congrArg DriveRecord.service (l.setDrive_drive_same d { l.drive d with service := none, failures := 0, lastUse := e.now })
  unfold Library.finishCommand
  dsimp only
  rw [Library.toReady_service]
  split
  · exact h
  · exact h

theorem takes_primaryWriteOk {t : State} {d : Drive} (h : exec (.primaryWriteOk d) s = .next t) : s.Takes t (.primaryWriteOk d) :=
  State.Takes.outcome (show execPrimaryWriteOk d s = _ from h) fun v hv => by
    split
    next tag b f hc =>
      dsimp only
      split
      next x g hg =>
        have hcalm : s.lib.Calm (s.begin.finishCommand d).lib := Library.Calm.trans (b := s.begin.lib) .of_same (calm_finished s d)
        exact .inr (.inl ⟨hv.started, hv.started, _, .inr (.inr ⟨_, rfl⟩), .files d v tag b f x g _ hv hc hg hcalm
          (Library.finishCommand_service _ _ _ _) rfl⟩)
      next => exact State.Takes.react (u := s.begin.finishCommand d) hv.started (by rfl) (calm_finished s d).comes
    · exact .inl (.begin s)

theorem takes_primaryWriteFail {t : State} {d : Drive} (h : exec (.primaryWriteFail d) s = .next t) : s.Takes t (.primaryWriteFail d) :=
  State.Takes.outcome (show execPrimaryWriteFail d s = _ from h) fun v hv => by
    split
    next tag b f hc =>
      dsimp only
      split
      next x g hg =>
        have hcalm : s.lib.Calm (s.begin.finishCommand d).lib := Library.Calm.trans (b := s.begin.lib) .of_same (calm_finished s d)
        exact .inr (.inl ⟨hv.started, hv.started, _, .inr (.inr ⟨_, rfl⟩), .spends d v tag b f x g _ _ (s.begin.env.setFrame b f .void) true hv hc hg hcalm
          (Library.finishCommand_service _ _ _ _) rfl (.refl _)⟩)
      next => exact State.Takes.react (u := s.begin.finishCommand d) hv.started (by rfl) (calm_finished s d).comes
    · exact .inl (.begin s)

/-- R112: what a failed command's owner does is calm, but for a primary write's. -/
theorem commandReturned_cases (u : State) (d : Drive) (v : InService) :
    (u.lib.Calm (u.commandReturned d v).lib ∧ (u.commandReturned d v).env = u.env)
      ∨ ∃ tag b f x g, v.command = .primaryWrite tag b f ∧ u.lib.fileOf tag = some (x, g)
        ∧ u.commandReturned d v = { u with env := u.env.setFrame b f .void, lib := u.lib.spent (u.env.setFrame b f .void) tag g v.side d false } := by
  unfold State.commandReturned
  split
  case h_1 => split <;> exact .inl ⟨by first | exact calm_fetchFailed _ _ _ _ _ | exact .refl _, rfl⟩
  case h_2 t b f hc =>
    split
    next x g hg => exact .inr ⟨t, b, f, x, g, hc, hg, rfl⟩
    next => exact .inl ⟨.refl _, rfl⟩
  case h_3 => exact .inl ⟨calm_twinWriteReturned _ _ _ _ _, rfl⟩
  case h_4 b f n live _ =>
    refine .inl ⟨?_, rfl⟩
    dsimp only
    split
    · exact calm_rereadReturned _ _ _ _
    · exact calm_grantRereads _ _
  case h_5 => split <;> exact .inl ⟨by first | exact (calm_mapBatch _ _).trans (calm_giveBack _ _ _) | exact .refl _, rfl⟩
  case h_6 => split <;> exact .inl ⟨by first | exact (calm_mapBatch _ _).trans (calm_giveBack _ _ _) | exact .refl _, rfl⟩
  case h_7 => exact .inl ⟨calm_callPatrol _, rfl⟩

/-- R112, R113: what a failure does once its owner has taken the command back. -/
def Library.afterFailure (e : Env) (l : Library) (d : Drive) : Library :=
  if 2 ≤ (l.drive d).failures then l.failDrive e d else l.repeatCommand e d

theorem calm_afterFailure (e : Env) (l : Library) (d : Drive) : l.Calm (l.afterFailure e d) := by
  unfold Library.afterFailure
  split
  · exact calm_failDrive e l d
  · exact calm_repeatCommand e l d

/-- R112: the failure is counted, and the command stopped; the item in service is absent when its owner takes it back. -/
def State.stopped (u : State) (d : Drive) (v : InService) : State :=
  let l := u.lib.setDrive d (u.lib.drive d).failOnce
  let l := (l.setDrive d { l.drive d with service := none }).emit (.stop d)
  { u with lib := if v.item.kind.isPatrol then l else { l with scheduler := { l.scheduler with quiet := u.env.now } } }

theorem failCommand_eq (u : State) (d : Drive) {v : InService} (h : u.lib.activeService d = some v) :
    u.failCommand d = { (u.stopped d v).commandReturned d v with
      lib := ((u.stopped d v).commandReturned d v).lib.afterFailure ((u.stopped d v).commandReturned d v).env d } := by
  obtain ⟨ha, hv⟩ := Library.activeService_eq_some.mp h
  have h' : (u.lib.setDrive d (u.lib.drive d).failOnce).activeService d = some v :=
    Library.activeService_eq_some.mpr (by rw [Library.drive_setDrive, if_pos rfl]; exact ⟨ha, hv⟩)
  unfold State.failCommand
  dsimp only
  rw [h']
  rfl

theorem failCommand_eq_none (u : State) (d : Drive) (h : u.lib.activeService d = none) :
    u.failCommand d = { u with lib := (u.lib.setDrive d (u.lib.drive d).failOnce).afterFailure u.env d } := by
  have h' : (u.lib.setDrive d (u.lib.drive d).failOnce).activeService d = none := by
    rw [Option.eq_none_iff_forall_ne_some] at h ⊢
    intro v hv
    obtain ⟨ha, hv⟩ := Library.activeService_eq_some.mp hv
    rw [Library.drive_setDrive, if_pos rfl] at ha hv
    exact h v (Library.activeService_eq_some.mpr ⟨ha, hv⟩)
  unfold State.failCommand
  dsimp only
  rw [h']
  rfl

theorem stopped_calm (u : State) (d : Drive) (v : InService) : u.lib.Calm (u.stopped d v).lib ∧ ((u.stopped d v).lib.drive d).service = none := by
  unfold State.stopped
  dsimp only
  have h := (calm_setDrive_same (d := d) (y := (u.lib.drive d).failOnce) u.lib (by rfl)).trans
    ((calm_setDrive_none (d := d) (y := { (u.lib.setDrive d (u.lib.drive d).failOnce).drive d with service := none }) _ (by rfl)).trans (calm_emit _ (.stop d)))
  have hidle := congrArg DriveRecord.service (Library.setDrive_drive_same (u.lib.setDrive d (u.lib.drive d).failOnce) d
    { (u.lib.setDrive d (u.lib.drive d).failOnce).drive d with service := none })
  split
  · exact ⟨h, hidle⟩
  · exact ⟨h.trans (calm_quiet _ _), hidle⟩

/-- R112: a failure at a drive, at which the time alone may have moved on. -/
theorem takes_driveFailure {c : Instr} {u : State} {d : Drive} {was : Library} (hs : s.env.startUp = none) (hu : s.lib.Calm u.lib)
    (he : u.env = { s.env with now := u.env.now }) (hstate : (u.lib.drive d).state = (s.lib.drive d).state)
    (hservice : (u.lib.drive d).service = (s.lib.drive d).service) (hfile : u.lib.fileOf = s.lib.fileOf) :
    s.Takes ((u.failCommand d).react was) c := by
  cases hv : u.lib.activeService d with
  | none =>
    rw [failCommand_eq_none u d hv]
    exact State.Takes.react hs he ((Library.Calm.trans (b := s.lib) .of_same hu).trans
      ((calm_setDrive_same _ (by rfl)).trans (calm_afterFailure _ _ d))).comes
  | some v =>
    obtain ⟨ha, hv'⟩ := Library.activeService_eq_some.mp hv
    obtain ⟨hcalm, hidle⟩ := stopped_calm u d v
    have hrun : Running s d v := ⟨hs, hstate ▸ ha, hservice ▸ hv'⟩
    have henv : (u.stopped d v).env = u.env := rfl
    rw [failCommand_eq u d hv]
    rcases commandReturned_cases (u.stopped d v) d v with ⟨hc, hce⟩ | ⟨tag, b, f, x, g, hc, hg, heq⟩
    · exact State.Takes.react hs (by rw [hce]; exact he) ((Library.Calm.trans (b := s.lib) .of_same hu).trans
        (hcalm.trans (hc.trans (calm_afterFailure _ _ d)))).comes
    · rw [heq]
      have hg' : s.lib.fileOf tag = some (x, g) := by
        rw [← hfile, ← hg]
        unfold State.stopped
        dsimp only
        split <;> rfl
      refine .inr (.inl ⟨hs, ?_, _, .inr (.inr ⟨_, rfl⟩), .spends d v tag b f x g (u.stopped d v).lib _ _ false hrun hc hg' (hu.trans hcalm) hidle ?_
        (calm_afterFailure _ _ d)⟩)
      · rw [State.react_env]; show ((u.env).setFrame b f .void).startUp = none; rw [he]; exact hs
      · rw [State.react_env]; show (u.env).setFrame b f .void = _; rw [he]; rfl

theorem takes_commandLimitExpiry {t : State} {d : Drive} (h : exec (.commandLimitExpiry d) s = .next t) : s.Takes t (.commandLimitExpiry d) := by
  rcases State.atCommand_eq (show execCommandLimitExpiry d s = _ from h) with rfl | ⟨v, hv, rfl⟩
  · exact .inl (.begin s)
  · have hc := (Library.Calm.of_same : s.lib.Calm s.begin.lib).trans
      (calm_setDrive_same (d := d) (y := { s.begin.lib.drive d with expired := some (s.begin.reach (v.issued + Config.commandLimit)).env.now }) s.begin.lib (by rfl))
    refine takes_driveFailure s (u := (s.begin.reach (v.issued + Config.commandLimit)).noteExpiry d) hv.started hc rfl ?_ ?_ rfl
    · show (Library.drive (s.begin.lib.setDrive d _) d).state = _; rw [Library.drive_setDrive, if_pos rfl]; rfl
    · show (Library.drive (s.begin.lib.setDrive d _) d).service = _; rw [Library.drive_setDrive, if_pos rfl]; rfl

theorem takes_hardwareFaultReport {t : State} {d : Drive} (h : exec (.hardwareFaultReport d) s = .next t) : s.Takes t (.hardwareFaultReport d) :=
  State.Takes.event (show execHardwareFaultReport d s = _ from h) fun hs => by
    split
    · exact takes_driveFailure s (u := s.begin) hs .of_same rfl rfl rfl rfl
    · exact .inl (.begin s)

theorem takes_spinUpLimitExpiry {t : State} {d : Drive} (h : exec (.spinUpLimitExpiry d) s = .next t) : s.Takes t (.spinUpLimitExpiry d) :=
  State.Takes.event (show execSpinUpLimitExpiry d s = _ from h) fun hs => by
    split
    · exact takes_driveFailure s (u := s.begin.reach _) hs .of_same rfl rfl rfl rfl
    · exact .inl (.begin s)

theorem takes_spinDownLimitExpiry {t : State} {d : Drive} (h : exec (.spinDownLimitExpiry d) s = .next t) : s.Takes t (.spinDownLimitExpiry d) :=
  State.Takes.event (show execSpinDownLimitExpiry d s = _ from h) fun hs => by
    split
    · exact takes_driveFailure s (u := s.begin.reach _) hs .of_same rfl rfl rfl rfl
    · exact .inl (.begin s)

end Sys2Proof.Machine
end

section
-- One declaration after the other: the stacks of the threads that wait for each other count against the check's memory limit.
set_option Elab.async false
namespace Sys2Proof.Machine

variable (s : State)

/-! ## Reports and times -/

theorem takes_readyReport {t : State} {d : Drive} (h : exec (.readyReport d) s = .next t) : s.Takes t (.readyReport d) :=
  State.Takes.event (show execReadyReport d s = _ from h) fun hs => by
    split
    · exact State.Takes.react (u := { s.begin with lib := _ }) hs (by rfl) (calm_driveReady _ _ d).comes
    · exact .inl (.begin s)

theorem takes_stoppedReport {t : State} {d : Drive} (h : exec (.stoppedReport d) s = .next t) : s.Takes t (.stoppedReport d) :=
  State.Takes.event (show execStoppedReport d s = _ from h) fun hs => by
    split
    · exact State.Takes.react (u := { s.begin with lib := _ }) hs (by rfl) (calm_driveStopped _ d).comes
    · exact .inl (.begin s)

theorem takes_idleSpinDown {t : State} {d : Drive} (h : exec (.idleSpinDown d) s = .next t) : s.Takes t (.idleSpinDown d) :=
  State.Takes.event (show execIdleSpinDown d s = _ from h) fun hs => by
    split
    · exact State.Takes.react (u := { (s.begin.reach _) with lib := _ }) hs (by rfl) (calm_sendSpinDown _ s.begin.lib d).comes
    · exact .inl (.begin s)

theorem takes_caddyReport {t : State} {d : Drive} {seated : Bool} (h : exec (.caddyReport d seated) s = .next t) : s.Takes t (.caddyReport d seated) := by
  cases (show execCaddyReport d seated s = _ from h)
  split
  next w hw =>
    split
    · exact .inr (.inr (.inl ⟨d, seated, w, rfl, hw, rfl⟩))
    · exact .inl (.begin s)
  next hw =>
    split
    · exact State.Takes.react (u := { s.begin with lib := _ }) hw (by rfl) (comes_caddyAnswer _ _ _ seated)
    · exact .inl (.begin s)

theorem takes_moveCompletion {t : State} (h : exec .moveCompletion s = .next t) : s.Takes t .moveCompletion :=
  State.Takes.event (show execMoveCompletion s = _ from h) fun hs => by
    split
    · exact .of_calm hs hs (calm_picker s.begin.lib _) (.inl ⟨rfl, rfl⟩) (.of_directory rfl)
    · split
      · exact State.Takes.react (u := { s.begin with lib := _ }) hs (by rfl) (comes_completeMove _ _ _)
      · exact .inl (.begin s)

theorem takes_moveLimitExpiry {t : State} {grip caddy : Bool} (h : exec (.moveLimitExpiry grip caddy) s = .next t) :
    s.Takes t (.moveLimitExpiry grip caddy) :=
  State.Takes.event (show execMoveLimitExpiry grip caddy s = _ from h) fun hs => by
    split
    · exact State.Takes.react (u := { (s.begin.reach _) with lib := _ }) hs (by rfl)
        (((calm_picker s.begin.lib _).trans (calm_emit _ _)).comes.trans (comes_attemptFailed _ _ grip caddy true))
    · exact .inl (.begin s)

theorem takes_pickerFaultReport {t : State} {grip caddy : Bool} (h : exec (.pickerFaultReport grip caddy) s = .next t) :
    s.Takes t (.pickerFaultReport grip caddy) :=
  State.Takes.event (show execPickerFaultReport grip caddy s = _ from h) fun hs => by
    split
    · exact State.Takes.react (u := { s.begin with lib := _ }) hs (by rfl) (comes_attemptFailed _ _ grip caddy false)
    · exact .inl (.begin s)

theorem takes_presenceChange {t : State} {k : Slot} {seated : Bool} (h : exec (.presenceChange k seated) s = .next t) :
    s.Takes t (.presenceChange k seated) := by
  cases (show execPresenceChange k seated s = _ from h)
  split
  · exact .inl (.begin s)
  · split
    · exact .inl ⟨⟨_, rfl⟩, rfl, rfl⟩
    next hs =>
      have hs' : s.env.startUp = none := by simpa [State.starting] using hs
      exact State.Takes.react (u := { s.begin with lib := _ }) hs' (by rfl) (comes_presence _ _ k seated)

/-- R131: a time that calls for a decision. -/
theorem takes_timedDecision {c : Instr} (hs : s.env.startUp = none) (n : Nat) : s.Takes (s.begin.timedDecision n) c :=
  State.Takes.react (u := { (s.begin.reach n) with lib := _ }) hs (by rfl) (calm_callDecision s.begin.lib).comes

theorem takes_dwellExpiry {t : State} {d : Drive} (h : exec (.dwellExpiry d) s = .next t) : s.Takes t (.dwellExpiry d) :=
  State.Takes.event (show execDwellExpiry d s = _ from h) fun hs => by
    split
    · exact takes_timedDecision s hs _
    · exact .inl (.begin s)

theorem takes_demandAgeLimit {t : State} {k : Side} {n : Nat} (h : exec (.demandAgeLimit k n) s = .next t) : s.Takes t (.demandAgeLimit k n) :=
  State.Takes.event (show execDemandAgeLimit k n s = _ from h) fun hs => by
    split
    · exact takes_timedDecision s hs _
    · exact .inl (.begin s)

theorem takes_patrolIdleTime {t : State} (h : exec .patrolIdleTime s = .next t) : s.Takes t .patrolIdleTime :=
  State.Takes.event (show execPatrolIdleTime s = _ from h) fun hs => by
    split
    · exact .inl (.begin s)
    · exact takes_timedDecision s hs _

theorem takes_orderTimerExpiry {t : State} {k : Station} (h : exec (.orderTimerExpiry k) s = .next t) : s.Takes t (.orderTimerExpiry k) :=
  State.Takes.event (show execOrderTimerExpiry k s = _ from h) fun hs => by
    split
    · exact .of_calm hs hs (.refl s.begin.lib) (.inl ⟨rfl, rfl⟩) (.of_directory rfl)
    · exact .inl (.begin s)

/-! ## The power warning -/

theorem takeOffer_ended (e : Env) (f : Fee) (l : Library) (o : Offer) {t : Tag} {y : Entry} (h : (takeOffer e f l o).2.entry t = some y) :
    ∃ x, l.entry t = some x ∧ y.ended = x.ended ∧ y.fileKey = x.fileKey := by
  unfold takeOffer at h
  dsimp only at h
  have h' : (match l.entry o.tag with
      | some x => l.setEntry o.tag (some (x.charge (f.take e.now e.hold o).2))
      | none => l).entry t = some y := by
    split at h
    · exact h
    · exact h
  split at h'
  next x hx =>
    rw [Library.entry_setEntry] at h'
    split at h'
    next ht =>
      cases h'
      refine ⟨x, ht ▸ hx, ?_, ?_⟩ <;> unfold Entry.charge <;> split <;> rfl
    next => exact ⟨y, h', rfl, rfl⟩
  next => exact ⟨y, h', rfl, rfl⟩

/-- R26: the sectors that a burst delivers end no request. -/
theorem deliver_live {t : Tag} {x : Entry} (h : s.lib.entry t = some x) (hl : x.ended = none) (hk : x.fileKey = none) (w : Window) (xs : List SectorState) :
    ∀ y, (s.deliver t x w xs).lib.entry t = some y → y.ended = none ∧ y.fileKey = none := fun y hy => by
  unfold State.deliver at hy
  dsimp only at hy
  split at hy
  · rw [h] at hy; cases hy; exact ⟨hl, hk⟩
  · have hput (z : Entry) (hz : (((s.lib.takeBurst t).setEntry t (some (x.delivered xs))).emit
        (.burst t (x.record.addr.val + x.moved) (xs.map SectorState.data))).entry t = some z) : z.ended = none ∧ z.fileKey = none := by
      rw [show (((s.lib.takeBurst t).setEntry t (some (x.delivered xs))).emit
        (.burst t (x.record.addr.val + x.moved) (xs.map SectorState.data))).entry t = some (x.delivered xs) from look_put_same ..] at hz
      cases hz
      exact ⟨hl, hk⟩
    unfold State.offer at hy
    split at hy
    · obtain ⟨z, hz, he, hk'⟩ := takeOffer_ended _ _ _ _ hy
      obtain ⟨hz1, hz2⟩ := hput z hz
      exact ⟨he.trans hz1, hk'.trans hz2⟩
    · exact hput y hy

theorem Entry.sectorsReady_live {x : Entry} {n : Nat} (h : n < x.sectorsReady) : x.ended = none ∧ x.fileKey = none := by
  unfold Entry.sectorsReady at h
  split at h
  next hl =>
    refine ⟨Entry.live_iff.mp hl, ?_⟩
    cases hj : x.job <;> rw [hj] at h <;> simp [Entry.fileKey, hj] at h ⊢
  next => omega

theorem calm_finishTransfer (now : State) {t : Tag} {x : Entry} (h : s.lib.entry t = some x) (hl : x.ended = none) (hk : x.fileKey = none) (n : Nat) :
    s.lib.Calm (s.finishTransfer now t x n).lib := by
  unfold State.finishTransfer
  split
  · split
    next w ws _ => exact (calm_deliver s h w _).trans (calm_endDelivered _ (deliver_live s h hl hk w _))
    next => exact .refl _
  · exact calm_deliverPages s now h hl hk n
  · exact .refl _

theorem calm_beginHold : s.lib.Calm s.beginHold.lib := calm_fault _ _ _

theorem calm_holdOver (i : InTransfer) : s.lib.Calm (s.holdOver i).lib := by
  rcases holdOver_cases s i with ⟨-, h⟩ | ⟨t, x, hb, ⟨-, h⟩ | ⟨-, h⟩⟩ <;> rw [h]
  · exact calm_beginHold s
  · obtain ⟨-, -, hx, hn, -⟩ := burstOnLink_some hb
    obtain ⟨hl, hk⟩ := Entry.sectorsReady_live hn
    exact (calm_finishTransfer s s hx hl hk _).trans (calm_beginHold _)
  · obtain ⟨-, -, hx, hn, -⟩ := burstOnLink_some hb
    obtain ⟨hl, hk⟩ := Entry.sectorsReady_live hn
    exact (calm_beginHold s).trans (calm_finishTransfer s.beginHold s hx hl hk _)

/-- R181: the state as HOLD begins, with the burst on the link cut. -/
def State.warned (s : State) (i : Option InTransfer) : State :=
  match i with
  | some i => s.holdOver i
  | none => s.beginHold

theorem calm_warned (i : Option InTransfer) : s.lib.Calm (s.warned i).lib := by
  cases i with
  | none => exact calm_beginHold s
  | some i => exact calm_holdOver s i

/-- R181: the requests that HOLD ends but for the FILEs. -/
def Library.endFetches (l : Library) : Library := allTags.foldl Library.holdRequest l

theorem calm_endFetches (l : Library) : l.Calm l.endFetches := Library.Calm.foldl (fun l t => calm_holdRequest l t) allTags l

theorem State.assertWarning_eq (i : Option InTransfer) :
    s.assertWarning i = State.react { s.warned i with lib := (s.warned i).lib.endFetches.unwindAll } s.lib := by
  cases i <;> rfl

/-- R181: an event whose own effect has ended the FETCHes and unwinds the FILEs. -/
theorem takes_held {c : Instr} {u : State} {l m was : Library} (hs : s.env.startUp = none) (he : u.env = s.env.inHold) (h : s.lib.Calm l)
    (hm : m = l.unwindAll) : s.Takes (State.react { u with lib := m } was) c :=
  .inr (.inl ⟨hs, (congrArg Env.startUp he).trans hs, m, .inr (.inr ⟨was, rfl⟩), hm ▸ .holds l h he⟩)

theorem takes_powerWarning {t : State} {i : Option InTransfer} (h : exec (.powerWarning i) s = .next t) : s.Takes t (.powerWarning i) := by
  cases (show execPowerWarning i s = _ from h)
  split
  next w hw => exact .inl ⟨⟨_, rfl⟩, rfl, by rw [show s.env.startUp = some w from hw]; rfl⟩
  next hw =>
    split
    · exact .inl (.begin s)
    · obtain ⟨he, -⟩ := s.begin.assertWarning_accounts i
      have hu : s.lib.Calm (s.begin.warned i).lib.endFetches :=
        (Library.Calm.trans (b := s.begin.lib) .of_same (calm_warned s.begin i)).trans (calm_endFetches _)
      rw [State.assertWarning_eq] at he ⊢
      exact takes_held s hw he hu rfl

theorem takes_holdEnd {t : State} (h : exec .holdEnd s = .next t) : s.Takes t .holdEnd := by
  cases (show execHoldEnd s = _ from h)
  split
  next w hw => exact .inl ⟨⟨_, rfl⟩, rfl, by rw [show s.env.startUp = some w from hw]; rfl⟩
  next hw =>
    split
    · exact .of_calm hw hw ((calm_callDecision s.begin.lib).trans (calm_callPatrol _)) (.inr (.inr ⟨_, rfl⟩)) (.of_directory rfl)
    · exact .inl (.begin s)

/-- Every command is no event, an own effect with the reactions to it, or start-up. -/
theorem exec_takes {c : Instr} {s t : State} (h : exec c s = .next t) : s.Takes t c := by
  cases hr : serviceRow c with
  | some r => exact takes_serviceRow s (tag := r.1) (key := r.2.1) (read := r.2.2) hr h
  | none =>
    cases c with
    | fetchRequest r => exact takes_fetchRequest s h
    | fileRequest r => exact takes_fileRequest s h
    | pull => exact takes_pull s h
    | fileBurstArrival tag data key => exact takes_fileBurstArrival s h
    | burstSent n => exact takes_burstSent s h
    | responseSent => exact takes_responseSent s h
    | fetchReadOutcome d rs => exact takes_fetchReadOutcome s h
    | primaryWriteOk d => exact takes_primaryWriteOk s h
    | primaryWriteFail d => exact takes_primaryWriteFail s h
    | twinWriteVerified d => exact takes_twinWriteVerified s h
    | twinWriteFail d => exact takes_twinWriteFail s h
    | rereadOutcome d rs => exact takes_rereadOutcome s h
    | rescueReadOutcome d rs => exact takes_rescueReadOutcome s h
    | rescueWriteVerified d => exact takes_rescueWriteVerified s h
    | rescueWriteFail d => exact takes_rescueWriteFail s h
    | patrolVerifyOutcome d rs => exact takes_patrolVerifyOutcome s h
    | commandLimitExpiry d => exact takes_commandLimitExpiry s h
    | hardwareFaultReport d => exact takes_hardwareFaultReport s h
    | spinUpLimitExpiry d => exact takes_spinUpLimitExpiry s h
    | spinDownLimitExpiry d => exact takes_spinDownLimitExpiry s h
    | readyReport d => exact takes_readyReport s h
    | stoppedReport d => exact takes_stoppedReport s h
    | idleSpinDown d => exact takes_idleSpinDown s h
    | caddyReport d seated => exact takes_caddyReport s h
    | moveCompletion => exact takes_moveCompletion s h
    | moveLimitExpiry grip caddy => exact takes_moveLimitExpiry s h
    | pickerFaultReport grip caddy => exact takes_pickerFaultReport s h
    | presenceChange k seated => exact takes_presenceChange s h
    | dwellExpiry d => exact takes_dwellExpiry s h
    | demandAgeLimit k n => exact takes_demandAgeLimit s h
    | patrolIdleTime => exact takes_patrolIdleTime s h
    | orderTimerExpiry k => exact takes_orderTimerExpiry s h
    | powerWarning i => exact takes_powerWarning s h
    | holdEnd => exact takes_holdEnd s h
    | reset cause i =>
      cases (show execReset cause i s = _ from h)
      exact .inr (.inr (.inr ⟨cause, i, rfl, rfl⟩))
    | _ => cases hr

end Sys2Proof.Machine
end

section
-- One declaration after the other: the stacks of the threads that wait for each other count against the check's memory limit.
set_option Elab.async false
namespace Sys2Proof.Machine

/-! ## The blocks that start-up wakes end no request -/

theorem foldl_same {α β γ : Type} (f : β → α → β) (p : β → γ) (h : ∀ b x, p (f b x) = p b) (xs : List α) (b : β) : p (xs.foldl f b) = p b := by
  induction xs generalizing b with
  | nil => rfl
  | cons x xs ih => exact (ih _).trans (h b x)

variable (e : Env) (l : Library)

theorem front_syncReread (b : Book) : (l.syncReread e b).front = l.front := by
  unfold Library.syncReread
  (repeat' split) <;> rfl

theorem front_grantFrom : ∀ (xs : List (Book × Nat)) (l : Library), (Library.grantFrom e xs l).front = l.front
  | [], _ => rfl
  | (b, f) :: rest, l => by
    unfold Library.grantFrom
    split
    · exact front_grantFrom rest l
    · split
      · exact (front_grantFrom rest _).trans (front_syncReread e _ b)
      · rfl

theorem front_dropRereads (b : Book) (gone : Nat → Bool) : (l.dropRereads e b gone).front = l.front := by
  unfold Library.dropRereads Library.grantRereads
  exact (front_grantFrom e _ _).trans (front_syncReread e _ b)

theorem front_stopTwinWork (b : Book) : (l.stopTwinWork e b).front = l.front := front_dropRereads e _ b _

theorem front_askReread (b : Book) (f n : Nat) : (l.askReread e b f n).front = l.front := by
  unfold Library.askReread
  split
  · exact front_syncReread e _ b
  · rfl

theorem front_askWindow (b : Book) : (l.askWindow e b).front = l.front :=
  foldl_same _ Library.front (fun m f => by
    dsimp only
    split
    · exact front_askReread e m b f _
    · rfl) _ l

theorem front_skipFrames (b : Book) : ∀ (n : Nat) (l : Library), (Library.skipFrames e b n l).front = l.front
  | 0, _ => rfl
  | n + 1, l => by
    unfold Library.skipFrames
    dsimp only
    split
    · exact front_skipFrames b n _
    · rfl

/-- R94 to R96: the Twin Writer's examination touches no request. -/
theorem front_examine (b : Book) : (l.examine e b).front = l.front := by
  unfold Library.examine
  split
  · exact front_stopTwinWork e l b
  · split
    · rfl
    · dsimp only
      have h := front_skipFrames e b Config.framesPerBook l
      generalize Library.skipFrames e b Config.framesPerBook l = m at h
      split
      · unfold Library.wantTwinWrite
        dsimp only
        split <;> exact (front_askWindow e _ b).trans h
      · exact (front_stopTwinWork e _ b).trans h

theorem front_examineBooks (p : Book → Bool) : (l.examineBooks e p).front = l.front :=
  foldl_same _ Library.front (fun m b => front_examine e m b) _ l

theorem ending_setWindows (t : Tag) (ws : List Window) : (l.setWindows t ws).front.ending = l.front.ending := by
  unfold Library.setWindows
  split <;> rfl

theorem ending_moveItems (b : Book) (s t : Side) : (l.moveItems b s t).front.ending = l.front.ending := by
  have hback : ∀ (xs : List Item) (m : Library), (xs.foldl (fun l i => l.giveBack t i) m).front.ending = m.front.ending :=
    foldl_same _ (fun m : Library => m.front.ending) fun _ _ => rfl
  unfold Library.moveItems
  dsimp only
  refine (foldl_same _ (fun m : Library => m.front.ending) (fun m u => ?_) _ _).trans (hback _ _)
  split
  · exact ending_setWindows m u _
  · rfl

theorem ending_switch (r : RescueRecord) (target : Side) : (l.switch r target).front.ending = l.front.ending := by
  have hmove (m : Library) (h : m.front = l.front) (y : TwinRecord) :
      ((m.moveItems r.book r.source target).setTwin r.book y).front.ending = l.front.ending := by
    rw [Library.setTwin_front, ending_moveItems, h]
  unfold Library.switch
  dsimp only
  exact hmove _ (by rfl) _

theorem front_waitRescue (b : Option Book) (s : Side) : (l.waitRescue e b s).front = l.front := by
  unfold Library.waitRescue
  split <;> rfl

theorem front_seekRescue : (l.seekRescue e).front = l.front := by
  unfold Library.seekRescue
  dsimp only
  split
  · split
    · rfl
    · split
      · rfl
      · exact front_waitRescue e _ _ _
  · split
    · rfl
    · split
      · rfl
      · exact front_waitRescue e _ _ _

theorem front_syncReads (r : RescueRecord) (xs : List BatchFrame) : (l.syncReads e r xs).front = l.front :=
  foldl_same _ Library.front (fun m c => by (repeat' split) <;> rfl) _ l

theorem front_syncWrites (t : Side) (xs : List BatchFrame) : (l.syncWrites e t xs).front = l.front := by
  unfold Library.syncWrites
  (repeat' split) <;> rfl

theorem ending_runRescue : ∀ (n : Nat) (l : Library), (Library.runRescue e n l).front.ending = l.front.ending
  | 0, _ => rfl
  | n + 1, l => by
    unfold Library.runRescue
    have h : (if l.care.seekDue then l.seekRescue e else l).front = l.front := by
      split
      · exact front_seekRescue e l
      · rfl
    dsimp only
    generalize (if l.care.seekDue then l.seekRescue e else l) = m at h
    rw [← h]
    split
    next r hr =>
      split
      next target ht =>
        split
        · rfl
        · split
          · split
            · exact ending_runRescue n _
            · split
              · exact (ending_runRescue n _).trans (ending_switch m r target)
              · rfl
          · split
            · exact ending_runRescue n _
            · rw [front_syncWrites, front_syncReads]
      next => rfl
    next => rfl

theorem ending_rescueReaction : (l.rescueReaction e).front.ending = l.front.ending := by
  unfold Library.rescueReaction
  dsimp only
  rw [front_examineBooks]
  exact ending_runRescue e 1100 l

theorem front_fullPass (s : Side) : (l.fullPass e s).front = l.front := by
  unfold Library.fullPass Library.dropPatrolMount
  dsimp only
  split <;> rfl

theorem front_moveCursor : ∀ (n : Nat) (l : Library), (Library.moveCursor e n l).front = l.front
  | 0, _ => rfl
  | n + 1, l => by
    unfold Library.moveCursor
    split
    · rfl
    · dsimp only
      split
      · rfl
      · exact (front_moveCursor n _).trans (front_fullPass e _ _)

theorem front_examineCursor : (l.examineCursor e).front = l.front := by
  unfold Library.examineCursor
  split
  · dsimp only
    split
    · split
      · rfl
      · exact front_moveCursor e _ _
    · exact front_moveCursor e _ _
  · rfl

theorem front_removal (s : Slot) : (l.removal e s).front = l.front := by
  unfold Library.removal
  dsimp only
  have h := foldl_same (fun (l : Library) d => if l.role d = .blank then l.setRole d .unlisted else l) Library.front
    (fun m d => by split <;> rfl) (sidesOf s) (l.setLocation s .absent)
  generalize (sidesOf s).foldl _ _ = m at h
  have hm : (if m.care.queue.any fun q => slotOf q == s then
      { m with care := { m.care with queue := m.care.queue.filter fun q => slotOf q != s, seekDue := true } } else m).front = l.front := by
    split <;> exact h
  generalize (if m.care.queue.any _ then _ else m) = n at hm
  have hn : (n.faultMissing e s none).front = l.front := by
    unfold Library.faultMissing
    split <;> exact hm
  split
  · unfold Library.stopRescue
    split <;> exact hn
  · exact hn

theorem front_insertion (s : Slot) : (l.insertion s).front = l.front := by
  have hsides : ∀ (xs : List Side) (m : Library), (xs.foldl (fun l d => (l.setRole d .unlisted).setHealth d .zero) m).front = m.front :=
    foldl_same _ Library.front fun _ _ => rfl
  unfold Library.insertion
  dsimp only
  split
  · split
    · split <;> rfl
    · rfl
  · split
    · exact hsides _ _
    · rfl

theorem front_comparePresence (s : Slot) : (l.comparePresence e s).front = l.front := by
  unfold Library.comparePresence
  (repeat' split) <;> first | rfl | exact front_removal e l s | exact front_insertion l s

theorem front_faultMissing (s : Slot) (d : Option Drive) : (l.faultMissing e s d).front = l.front := by
  unfold Library.faultMissing
  split <;> rfl

theorem front_missUnconfigured (s : Slot) : (l.missUnconfigured e s).front = l.front := by
  unfold Library.missUnconfigured
  (repeat' split) <;> first | rfl | exact front_faultMissing e l _ _

theorem front_returnHeld (r : ReturnReason) : (l.returnHeld r).front = l.front := by
  unfold Library.returnHeld
  split <;> rfl

theorem front_resetDrive (d : Drive) : (l.resetDrive e d).front = l.front := by
  unfold Library.resetDrive
  split <;> rfl

theorem ending_startCare : (l.startCare e).front.ending = l.front.ending := by
  unfold Library.startCare
  rw [show ∀ m : Library, m.callPlacement.front = m.front from fun m => by unfold Library.callPlacement; split <;> rfl, front_examineCursor]
  exact ending_rescueReaction e _

end Sys2Proof.Machine
end

section
-- One declaration after the other: the stacks of the threads that wait for each other count against the check's memory limit.
set_option Elab.async false
namespace Sys2Proof.Machine

/-! # Bounds, CLOSED books, settings and the first fault -/

/-! ## Applied service writes -/

theorem Library.Bounds.clear (l : Library) : l.Bounds { l with log := ⟨none, 0, 0⟩ } := ⟨id, fun _ => Nat.zero_le _, id⟩

theorem steady_clearPicker (l : Library) : l.Steady l.clearPicker := (calm_clearPicker l).toSteady

/-- R186: an applied write keeps the bounds and CLOSED books, and, unless it clears the faults, the first fault. -/
theorem applyWrite_steady {s u : State} {w : ServiceWrite} (h : s.applyWrite w = some u) (hw : w ≠ .clearFaults) : s.lib.Steady u.lib := by
  cases w with
  | readOnly => cases h
  | unknown keyed => cases h
  | dayClose day =>
    simp only [State.applyWrite] at h
    split at h
    · cases h; exact (calm_callPatrol s.lib).toSteady
    · cases h
  | clearFaults => exact absurd rfl hw
  | setMask m => cases h; exact .refl _
  | clearCauses => cases h; exact .refl _
  | pickerClear => cases h; exact steady_clearPicker s.lib
  | orderClose st => cases h; exact .refl _
  | schedule d => obtain rfl := Option.some.inj h; exact .refl _
  | poolAdd xs => obtain ⟨m, hm, rfl⟩ := State.withLib_eq_some h; exact (comes_addToPool hm).toSteady
  | poolRemove xs => obtain ⟨m, hm, rfl⟩ := State.withLib_eq_some h; exact (comes_takeFromPool hm).toSteady
  | threshold v => cases h; exact .refl _
  | assign b p t =>
    obtain ⟨x, y, -, -, ha, rfl⟩ := State.assignBook_eq_some h
    exact steady_assignSides _ s.lib x y (Library.assignable_unassigned ha)
  | addTwin b t => obtain ⟨m, hm, rfl⟩ := State.withLib_eq_some h; exact steady_addTwin _ s.lib hm
  | removeTwin b => obtain ⟨m, hm, rfl⟩ := State.withLib_eq_some h; exact steady_removeTwin _ s.lib hm
  | close b => obtain ⟨m, hm, rfl⟩ := State.withLib_eq_some h; exact steady_closeBook hm

theorem applyWrite_bounds {s u : State} {w : ServiceWrite} (h : s.applyWrite w = some u) :
    s.lib.Bounds u.lib ∧ ∀ k, (s.lib.book k).state = .closed → (u.lib.book k).state = .closed := by
  by_cases hw : w = .clearFaults
  · subst hw; cases h; exact ⟨.clear s.lib, fun _ => id⟩
  · have hs := applyWrite_steady h hw
    exact ⟨hs.toBounds, hs.closed⟩

/-! ## Own effects and their events -/

theorem State.EndsAs.steady {s t : State} {m : Library} (h : s.EndsAs t m) : m.Steady t.lib := by
  rcases h with ⟨rfl, -⟩ | h | ⟨was, h⟩
  · exact .refl _
  · rw [h]; exact (calm_finish m).toSteady
  · rw [h]; exact (settle_settled t.env m was).steady

/-- R28: every event queues the responses of its requests. -/
theorem State.EndsAs.ending {s t : State} {m : Library} (h : s.EndsAs t m) (hs : s.lib.front.ending = []) : t.lib.front.ending = [] := by
  rcases h with ⟨rfl, h⟩ | h | ⟨was, h⟩
  · exact h.trans hs
  · rw [h]; rfl
  · rw [h]; exact (settle_settled t.env m was).ending

theorem steady_begin (s : State) : s.lib.Steady s.begin.lib := (Library.Calm.of_same : s.lib.Calm s.begin.lib).toSteady

/-- An own effect keeps the bounds and the CLOSED books, and the first fault too unless it is the service write that clears it. -/
theorem State.Effect.keeps {s t : State} {c : Instr} {m : Library} (h : s.Effect t c m) :
    (s.lib.Bounds m ∧ ∀ k, (s.lib.book k).state = .closed → (m.book k).state = .closed)
      ∧ ((∀ tag key x, spells c tag key x.block .clearFaults → ¬ AwaitsWrite s tag x x.block) → s.lib.Steady m) := by
  have of_steady (hs : s.lib.Steady m) : (s.lib.Bounds m ∧ ∀ k, (s.lib.book k).state = .closed → (m.book k).state = .closed)
      ∧ ((∀ tag key x, spells c tag key x.block .clearFaults → ¬ AwaitsWrite s tag x x.block) → s.lib.Steady m) :=
    ⟨⟨hs.toBounds, hs.closed⟩, fun _ => hs⟩
  cases h with
  | comes _ h => exact of_steady h.toSteady
  | loses l r side h => exact of_steady (h.toSteady.trans (steady_loseTarget l r side))
  | accepts r b l h =>
    have hl : s.lib.Steady l := by rw [h]; exact (steady_begin s).trans (calm_emit _ _).toSteady
    exact of_steady (hl.trans ((steady_setEntry l _ _).trans (steady_setBook _ id)))
  | files d v tag b f x g l _ _ _ h => exact of_steady (h.toSteady.trans (filed_keeps _ l tag g).1)
  | spends d v tag b f x g l m e count _ _ _ h _ _ after =>
    exact of_steady ((h.toSteady.trans (spent_keeps e l tag g v.side d count).1).trans after.toSteady)
  | holds l h => exact of_steady (h.toSteady.trans (steady_unwindAll l))
  | responds r rest x =>
    have hsent : s.begin.lib.Steady (s.begin.lib.sendResponse r rest) := .of_state fun _ => id
    exact of_steady ((steady_begin s).trans hsent)
  | writes tag key x w u spelt awaits _ h =>
    obtain ⟨hend, -⟩ := endRequest_keeps u.lib tag .done 1 0
    obtain ⟨hb, hc⟩ := applyWrite_bounds h
    refine ⟨⟨((steady_begin s).toBounds.trans hb).trans hend.toBounds, fun k hk => hend.closed k (hc k hk)⟩, fun hno => ?_⟩
    have hw : w ≠ .clearFaults := by
      rintro rfl
      exact hno tag key x spelt awaits
    exact ((steady_begin s).trans (applyWrite_steady h hw)).trans hend

/-! ## Start-up -/

theorem steady_resetIntake (l : Library) : l.Steady l.resetIntake := .of_state fun k hk => by
  simpa [Library.book, Library.resetIntake, look_map] using hk

theorem calm_resetDrive (e : Env) (l : Library) (d : Drive) : l.Calm (l.resetDrive e d) := by
  unfold Library.resetDrive
  split
  · exact calm_setDrive_same l (by rfl)
  · exact .refl l

theorem calm_missUnconfigured (e : Env) (l : Library) (s : Slot) : l.Calm (l.missUnconfigured e s) := by
  unfold Library.missUnconfigured
  split
  · split
    · exact .refl l
    · exact calm_faultMissing e l _ _
  · exact .refl l

theorem calm_callPlacement (l : Library) : l.Calm l.callPlacement := by
  unfold Library.callPlacement
  split
  · exact .refl l
  · exact calm_callDecision l

/-- R183, step 10: the Care Unit's own part is the rescue's reaction. -/
theorem calm_startCare (e : Env) (l : Library) : ((l.callRescue.callPatrol).rescueReaction e).Calm (l.startCare e) :=
  (calm_examineCursor e _).trans (calm_callPlacement _)

theorem steady_startCare (e : Env) (l : Library) : l.Steady (l.startCare e) :=
  ((calm_callRescue l).trans (calm_callPatrol _)).toSteady.trans ((kept_rescueReaction e _).steady.trans (calm_startCare e l).toSteady)

theorem calm_settleRecord (l : Library) (m : Move) (grip caddy : Bool) : l.Calm (l.settleRecord m grip caddy) := by
  unfold Library.settleRecord
  have h := calm_picker l { l.picker with record := none }
  dsimp only
  split
  · exact h.trans (calm_setLocation _ _ _)
  · split
    · split
      · exact h.trans (calm_setLocation _ _ _)
      · exact h
    · split
      · exact h.trans (calm_setLocation _ _ _)
      · exact h

theorem calm_askReports (l : Library) (m : Move) : l.Calm (l.askReports m) := by
  unfold Library.askReports
  dsimp only
  split
  · exact (calm_emit l _).trans (calm_emit _ _)
  · exact calm_emit l _

/-- The changes of steps 5 to 11, one by one. -/
inductive LastChange (warning : Bool) : (State → State) → Prop
  | compare (k : Slot) : LastChange warning (State.onLib fun e l => l.comparePresence e k)
  | intake : LastChange warning (State.onLib fun _ l => l.resetIntake)
  | drive (d : Drive) : LastChange warning (State.onLib fun e l => l.resetDrive e d)
  | miss (k : Slot) : LastChange warning (State.onLib fun e l => l.missUnconfigured e k)
  | held : LastChange warning (State.onLib fun _ l => l.returnHeld .startUp)
  | examine (b : Book) : LastChange warning (State.onLib fun e l => l.examine e b)
  | care : LastChange warning (State.onLib fun e l => l.startCare e)
  | hold : LastChange warning fun s => if warning then s.enterHold else s

theorem lastChange_of_mem {warning : Bool} {c : State → State} (h : c ∈ lastChanges warning) : LastChange warning c := by
  simp only [lastChanges, List.cons_append, List.append_assoc, List.mem_append, List.mem_cons, List.mem_map, List.not_mem_nil, or_false] at h
  rcases h with ⟨k, -, rfl⟩ | rfl | ⟨d, -, rfl⟩ | ⟨k, -, rfl⟩ | rfl | ⟨b, -, rfl⟩ | rfl | rfl
  · exact .compare k
  · exact .intake
  · exact .drive d
  · exact .miss k
  · exact .held
  · exact .examine b
  · exact .care
  · exact .hold

theorem LastChange.steady {warning : Bool} {c : State → State} (h : LastChange warning c) (s : State) :
    s.lib.Steady (c s).lib ∧ (c s).lib.front.ending = s.lib.front.ending := by
  cases h with
  | compare k => exact ⟨(comes_comparePresence s.env s.lib k).toSteady, congrArg Front.ending (front_comparePresence s.env s.lib k)⟩
  | intake => exact ⟨steady_resetIntake s.lib, rfl⟩
  | drive d => exact ⟨(calm_resetDrive s.env s.lib d).toSteady, congrArg Front.ending (front_resetDrive s.env s.lib d)⟩
  | miss k => exact ⟨(calm_missUnconfigured s.env s.lib k).toSteady, congrArg Front.ending (front_missUnconfigured s.env s.lib k)⟩
  | held => exact ⟨(calm_returnHeld s.lib .startUp).toSteady, congrArg Front.ending (front_returnHeld s.lib .startUp)⟩
  | examine b => exact ⟨(calm_examine s.env s.lib b).toSteady, congrArg Front.ending (front_examine s.env s.lib b)⟩
  | care => exact ⟨steady_startCare s.env s.lib, ending_startCare s.env s.lib⟩
  | hold =>
    dsimp only
    split
    · exact ⟨(calm_fault s.env s.lib _).toSteady, rfl⟩
    · exact ⟨.refl _, rfl⟩

theorem take_lastChanges_steady {warning : Bool} {cs : List (State → State)} (h : ∀ c ∈ cs, c ∈ lastChanges warning) (s : State) :
    s.lib.Steady (s.take cs).lib ∧ (s.take cs).lib.front.ending = s.lib.front.ending :=
  State.take_keeps (P := fun u => s.lib.Steady u.lib ∧ u.lib.front.ending = s.lib.front.ending)
    (fun c hc u ⟨hu, he⟩ => ⟨hu.trans ((lastChange_of_mem (h c hc)).steady u).1, ((lastChange_of_mem (h c hc)).steady u).2.trans he⟩) ⟨.refl _, rfl⟩

/-- What a part of start-up keeps: all that is steady, and that no response waits to be queued. -/
def State.StartSteady (s t : State) : Prop := s.lib.Steady t.lib ∧ (s.lib.front.ending = [] → t.lib.front.ending = [])

theorem endStart_steady (s : State) (warning : Bool) (cut : Option Nat) : s.StartSteady (s.endStart warning cut) := by
  cases cut with
  | none =>
    have hk := take_lastChanges_steady (warning := warning) (fun _ h => h) s.resume
    exact ⟨hk.1.trans (settle_settled _ _ _).steady, fun _ => (settle_settled _ _ _).ending⟩
  | some n =>
    have hk := take_lastChanges_steady (fun c h => List.mem_of_mem_take h) (cs := (lastChanges warning).take (n - 4)) s.resume
    exact ⟨hk.1, fun h => hk.2.trans h⟩

theorem front_askReports (l : Library) (m : Move) : (l.askReports m).front = l.front := by
  unfold Library.askReports
  dsimp only
  split <;> rfl

theorem front_settleRecord (l : Library) (m : Move) (grip caddy : Bool) : (l.settleRecord m grip caddy).front = l.front := by
  unfold Library.settleRecord
  dsimp only
  (repeat' split) <;> rfl

theorem State.StartSteady.before {s u t : State} (h : s.lib.Calm u.lib) (hf : u.lib.front = s.lib.front) (k : u.StartSteady t) : s.StartSteady t :=
  ⟨h.toSteady.trans k.1, fun he => k.2 (by rw [hf]; exact he)⟩

theorem settleStart_steady (s : State) (i : ResetInputs) : s.StartSteady (s.settleStart i) := by
  unfold State.settleStart
  split
  · exact endStart_steady s _ _
  next m _ =>
    have ha := calm_askReports s.lib m
    dsimp only
    split
    · exact ⟨ha.toSteady, fun h => (congrArg Front.ending (front_askReports s.lib m)).trans h⟩
    · exact .before (u := { s with lib := (s.lib.askReports m).settleRecord m i.grip false }) (ha.trans (calm_settleRecord _ m i.grip false))
        ((front_settleRecord _ _ _ _).trans (front_askReports _ _)) (endStart_steady _ _ _)

theorem resumeStart_steady (s : State) (w : StartUp) (seated : Bool) : s.StartSteady (s.resumeStart w seated) := by
  unfold State.resumeStart
  split
  next m _ =>
    exact .before (u := { s with lib := s.lib.settleRecord m false seated }) (calm_settleRecord _ m false seated) (front_settleRecord _ _ _ _)
      (endStart_steady _ _ _)
  next => exact endStart_steady s _ _

theorem steady_beginStart (s : State) (i : ResetInputs) : s.lib.Steady (s.beginStart i).lib where
  queue := id
  later := id
  copy _ := rfl
  closed _ := id
  first _ := id

/-- R22: the defaults are within the bounds. -/
theorem bounds_defaults (l : Library) (presence : Vector Bool 64) : l.Bounds (l.defaults presence) where
  queue _ := ⟨Nat.zero_le _, List.nodup_nil⟩
  later _ := Nat.zero_le _
  copy := id

/-- Steps 2 and 3 keep the bounds, and with the marker all that is steady. -/
theorem firstChanges_keeps {found : Bool} {cause : ResetCause} {presence : Vector Bool 64} {c : State → State}
    (h : c ∈ firstChanges found cause presence) (s : State) :
    s.lib.Bounds (c s).lib ∧ (found = true → s.lib.Steady (c s).lib) ∧ (c s).lib.front.ending = s.lib.front.ending := by
  have hsame := (Library.Calm.refl s.lib).toSteady
  simp only [firstChanges, List.mem_cons, List.not_mem_nil, or_false] at h
  rcases h with rfl | rfl | rfl
  · cases found with
    | true => exact ⟨hsame.toBounds, fun _ => hsame, rfl⟩
    | false => exact ⟨bounds_defaults s.lib presence, nofun, rfl⟩
  · exact ⟨hsame.toBounds, fun _ => hsame, rfl⟩
  · cases found with
    | true => exact ⟨hsame.toBounds, fun _ => hsame, rfl⟩
    | false => exact ⟨(calm_fault s.env s.lib _).toBounds, nofun, rfl⟩

theorem startUp_keeps (s : State) (cause : ResetCause) (i : ResetInputs) :
    s.lib.Bounds (s.startUp cause i).lib ∧ (s.markerFound i = true → s.lib.Steady (s.startUp cause i).lib)
      ∧ (s.startUp cause i).lib.front.ending = [] := by
  have hfirst (cs : List (State → State)) (h : ∀ c ∈ cs, c ∈ firstChanges (s.markerFound i) cause i.presence) :
      s.lib.Bounds ((s.beginStart i).take cs).lib ∧ (s.markerFound i = true → s.lib.Steady ((s.beginStart i).take cs).lib)
        ∧ ((s.beginStart i).take cs).lib.front.ending = [] :=
    State.take_keeps (P := fun u => s.lib.Bounds u.lib ∧ (s.markerFound i = true → s.lib.Steady u.lib) ∧ u.lib.front.ending = [])
      (fun c hc u ⟨h1, h2, h3⟩ => by
        obtain ⟨k1, k2, k3⟩ := firstChanges_keeps (h c hc) u
        exact ⟨h1.trans k1, fun hm => (h2 hm).trans (k2 hm), k3.trans h3⟩)
      ⟨(steady_beginStart s i).toBounds, fun _ => steady_beginStart s i, rfl⟩
  have hall := hfirst _ fun _ h => h
  have hsettle : s.lib.Bounds (((s.beginStart i).take (firstChanges (s.markerFound i) cause i.presence)).settleStart i).lib
      ∧ (s.markerFound i = true → s.lib.Steady (((s.beginStart i).take (firstChanges (s.markerFound i) cause i.presence)).settleStart i).lib)
      ∧ (((s.beginStart i).take (firstChanges (s.markerFound i) cause i.presence)).settleStart i).lib.front.ending = [] := by
    obtain ⟨h1, h2, h3⟩ := hall
    obtain ⟨k1, k2⟩ := settleStart_steady ((s.beginStart i).take (firstChanges (s.markerFound i) cause i.presence)) i
    exact ⟨h1.trans k1.toBounds, fun hm => (h2 hm).trans k1, k2 h3⟩
  unfold State.startUp
  dsimp only
  split
  · exact hsettle
  · split
    · exact hfirst _ fun c hc => List.mem_of_mem_take hc
    · exact hsettle

end Sys2Proof.Machine
end

section
-- One declaration after the other: the stacks of the threads that wait for each other count against the check's memory limit.
set_option Elab.async false
namespace Sys2Proof.Machine

/-! ## The bounds of every step -/

theorem bounds_picker (l : Library) (p : Picker) : l.Bounds { l with picker := p } := (calm_picker l p).toBounds

theorem State.Idle.calm {s t : State} (h : s.Idle t) : s.lib.Calm t.lib ∧ t.lib.front = s.lib.front := by
  obtain ⟨p, hp⟩ := h.lib
  rw [hp]
  exact ⟨.of_same, rfl⟩

/-- Every command keeps the bounds. -/
theorem exec_bounds {c : Instr} {s t : State} (h : exec c s = .next t) : s.lib.Bounds t.lib := by
  rcases exec_takes h with hi | ⟨-, -, m, he, hm⟩ | ⟨d, seated, w, -, -, rfl⟩ | ⟨cause, i, -, rfl⟩
  · exact hi.calm.1.toBounds
  · exact hm.keeps.1.1.trans he.steady.toBounds
  · exact ((steady_begin s).trans (resumeStart_steady s.begin w seated).1).toBounds
  · exact (steady_begin s).toBounds.trans (startUp_keeps s.begin cause i).1

/-- R28: every command leaves no response unqueued. -/
theorem exec_ending {c : Instr} {s t : State} (h : exec c s = .next t) (hs : s.lib.front.ending = []) : t.lib.front.ending = [] := by
  rcases exec_takes h with hi | ⟨-, -, m, he, -⟩ | ⟨d, seated, w, -, -, rfl⟩ | ⟨cause, i, -, rfl⟩
  · rw [hi.calm.2]; exact hs
  · exact he.ending hs
  · exact (resumeStart_steady s.begin w seated).2 hs
  · exact (startUp_keeps s.begin cause i).2.2

theorem Library.sound_iff (l : Library) : l.sound ↔ (l.care.queue.length ≤ Config.queueSlots ∧ l.care.queue.Nodup) ∧ l.log.laterCount ≤ Config.max8
    ∧ l.front.ending = [] ∧ l.scheduler.escalation = l.buffer.escalation := by
  unfold Library.sound
  rw [and_assoc]

/-- Settles O55: the environment command by command from what each does to it, the library from the bounds that every part of an event keeps. -/
theorem stepKeepsBoundsSound : Obligations.StepKeepsBoundsSound := by
  refine ⟨fun s t hs h => ?_, fun s t hs h => ?_, fun s t hs h => ?_⟩ <;> rcases step_cases h with rfl | ⟨c, rest, hc⟩
  · exact hs
  · exact exec_keeps_env_sound (s := { s with pending := rest }) hs hc
  · exact hs
  · have hb := exec_bounds hc
    obtain ⟨hq, hl, he, hx⟩ := s.lib.sound_iff.mp hs
    exact t.lib.sound_iff.mpr ⟨hb.queue hq, hb.later hl, exec_ending hc he, hb.copy hx⟩
  · exact hs
  · exact (exec_bounds hc).copy hs

/-! ## CLOSED books -/

/-- Settles O58: a CLOSED book is kept by every own effect and every reaction, and by start-up where it finds the marker. -/
theorem closedBookStaysClosed : Obligations.ClosedBookStaysClosed := by
  intro c s t b hb h hreset
  rcases exec_takes h with hi | ⟨-, -, m, he, hm⟩ | ⟨d, seated, w, -, -, rfl⟩ | ⟨cause, i, rfl, rfl⟩
  · exact hi.calm.1.closed b hb
  · exact he.steady.closed b (hm.keeps.1.2 b hb)
  · exact (resumeStart_steady s.begin w seated).1.closed b hb
  · obtain ⟨hf, hk⟩ := hreset cause i rfl
    have hm : s.begin.markerFound i = true := by simp [State.markerFound, hf, hk]
    exact ((startUp_keeps s.begin cause i).2.1 hm).closed b hb

/-! ## Settings -/

/-- The service write that a command's sector spells for the block of the request that waits for it. -/
def State.Written (s : State) (c : Instr) (p : ServiceWrite → Prop) : Prop :=
  ∃ tag key x w, spells c tag key x.block w ∧ AwaitsWrite s tag x x.block ∧ p w

/-- What the accounts keep from one day close and one schedule write to the next. -/
structure Fee.Lasting (f g : Fee) : Prop where
  schedule : g.schedule = f.schedule
  tallies : g.closedTallies = f.closedTallies
  day : g.closedDay = f.closedDay

theorem Fee.Lasting.refl (f : Fee) : f.Lasting f := ⟨rfl, rfl, rfl⟩

theorem Fee.Lasting.trans {f g h : Fee} (k : f.Lasting g) (m : g.Lasting h) : f.Lasting h :=
  ⟨m.schedule.trans k.schedule, m.tallies.trans k.tallies, m.day.trans k.day⟩

theorem Fee.Lasting.take (f : Fee) (now : Nat) (hold : Bool) (x : Offer) : f.Lasting (f.take now hold x).1 := by
  have h1 : f.Lasting (f.settleOrder now x) := by
    unfold Fee.settleOrder
    split <;> exact ⟨rfl, rfl, rfl⟩
  have h2 : (f.settleOrder now x).Lasting ((f.settleOrder now x).chargePage now x).1 := by
    unfold Fee.chargePage
    (repeat' split) <;> exact ⟨rfl, rfl, rfl⟩
  have h3 (g : Fee) : g.Lasting (if hold then g.closeOrder x.station else g) := by
    split <;> exact ⟨rfl, rfl, rfl⟩
  exact (h1.trans h2).trans (h3 _)

theorem Fee.Lasting.held {f g : Fee} {now : Nat} {hold : Bool} (h : f.Held g now hold) : f.Lasting g := by
  have hclose (k : Fee) : k.Lasting k.closeAll := ⟨rfl, rfl, rfl⟩
  rcases h with ⟨k, rfl | ⟨o, rfl⟩, rfl⟩ | rfl | ⟨o, rfl⟩
  · exact hclose _
  · exact (Fee.Lasting.take f now hold o).trans (hclose _)
  · exact hclose _
  · exact (hclose f).trans (.take _ now true o)

/-- The settings of a state change only by the service write of their kind. -/
structure State.Settings (s t : State) (c : Instr) : Prop where
  schedule : t.fee.schedule = s.fee.schedule ∨ s.Written c fun w => ∃ d, w = .schedule d
  day : (t.env.day = s.env.day ∧ t.fee.closedTallies = s.fee.closedTallies ∧ t.fee.closedDay = s.fee.closedDay) ∨ s.Written c fun w => ∃ d, w = .dayClose d
  threshold : t.env.threshold = s.env.threshold ∨ s.Written c fun w => ∃ v, w = .threshold v
  mask : t.env.mask = s.env.mask ∨ s.Written c fun w => ∃ m, w = .setMask m

theorem State.Settings.of_lasting {s t : State} {c : Instr} (h : s.fee.Lasting t.fee) (day : t.env.day = s.env.day)
    (threshold : t.env.threshold = s.env.threshold) (mask : t.env.mask = s.env.mask) : s.Settings t c :=
  ⟨.inl h.schedule, .inl ⟨day, h.tallies, h.day⟩, .inl threshold, .inl mask⟩

theorem State.Settings.of_kept {s t : State} {c : Instr} {p : Prop} (h : s.Restarts t p) (hp : p) : s.Settings t c := by
  obtain ⟨-, hd, ht, hm, hf⟩ := h.kept hp
  exact .of_lasting (by rw [hf]; exact ⟨rfl, rfl, rfl⟩) hd ht hm

/-- What each command does to the settings, but for a reset that finds no marker. -/
theorem exec_settings {c : Instr} {s t : State} (h : exec c s = .next t)
    (hreset : ∀ cause i, c = .reset cause i → s.env.formatMarker = true ∧ i.memoryKept = true) : s.Settings t c := by
  cases exec_accounts h with
  | onlyTime _ k => exact .of_lasting (by rw [k.fee]; exact .refl _) (by rw [k.env]) (by rw [k.env]) (by rw [k.env])
  | files d k =>
    obtain ⟨_, _, _, _, _, _, _, _, _, he, hf⟩ := k
    exact .of_lasting (by rw [hf]; exact .refl _) (by rw [he]) (by rw [he]) (by rw [he])
  | spends _ d _ k =>
    obtain ⟨_, _, _, _, _, _, _, _, _, he, hf⟩ := k
    exact .of_lasting (by rw [hf]; exact .refl _) (by rw [he]) (by rw [he]) (by rw [he])
  | loses d rs k =>
    obtain ⟨_, _, _, _, _, _, _, _, _, he, hf⟩ := k
    exact .of_lasting (by rw [hf]; exact .refl _) (by rw [he]; rfl) (by rw [he]; rfl) (by rw [he]; rfl)
  | offers n _ he o hf => exact .of_lasting (by rw [hf]; exact .take _ _ _ o) (by rw [he]) (by rw [he]) (by rw [he])
  | closes k he hf => exact .of_lasting (by rw [hf]; exact ⟨rfl, rfl, rfl⟩) (by rw [he]) (by rw [he]) (by rw [he])
  | notes _ _ he _ hf => exact .of_lasting (by rw [hf]; exact .refl _) (by rw [he]) (by rw [he]) (by rw [he])
  | holds i _ he hf => exact .of_lasting (.held hf) (by rw [he]; rfl) (by rw [he]; rfl) (by rw [he]; rfl)
  | resumes _ he hf => exact .of_lasting (by rw [hf]; exact .refl _) (by rw [he]) (by rw [he]) (by rw [he])
  | starts d b _ k => exact .of_lasting (by rw [k.fee]; exact .refl _) (by rw [k.env]) (by rw [k.env]) (by rw [k.env])
  | resets cause i k => exact .of_kept k (.inl (hreset cause i rfl))
  | writes _ tag key x w u hc hx _ hw he hf =>
    have hwrote {p : ServiceWrite → Prop} (hp : p w) : s.Written c p := ⟨tag, key, x, w, hc, hx, hp⟩
    cases hw with
    | same _ env fee => exact .of_lasting (by rw [hf, fee]; exact .refl _) (by rw [he, env]; rfl) (by rw [he, env]; rfl) (by rw [he, env]; rfl)
    | dayClose env fee =>
      exact ⟨.inl (by rw [hf, fee]; rfl), .inr (hwrote ⟨_, rfl⟩), .inl (by rw [he, env]; rfl), .inl (by rw [he, env]; rfl)⟩
    | setMask m env fee =>
      exact ⟨.inl (by rw [hf, fee]; rfl), .inl ⟨by rw [he, env]; rfl, by rw [hf, fee]; rfl, by rw [hf, fee]; rfl⟩, .inl (by rw [he, env]; rfl),
        .inr (hwrote ⟨m, rfl⟩)⟩
    | clearCauses env fee => exact .of_lasting (by rw [hf, fee]; exact .refl _) (by rw [he, env]; rfl) (by rw [he, env]; rfl) (by rw [he, env]; rfl)
    | orderClose k env fee => exact .of_lasting (by rw [hf, fee]; exact ⟨rfl, rfl, rfl⟩) (by rw [he, env]; rfl) (by rw [he, env]; rfl) (by rw [he, env]; rfl)
    | schedule d env fee =>
      obtain ⟨-, -, hct, hcd⟩ := s.begin.fee.writeSchedule_rest s.begin.env.now d
      exact ⟨.inr (hwrote ⟨d, rfl⟩), .inl ⟨by rw [he, env]; rfl, by rw [hf, fee, hct]; rfl, by rw [hf, fee, hcd]; rfl⟩, .inl (by rw [he, env]; rfl),
        .inl (by rw [he, env]; rfl)⟩
    | threshold v env fee =>
      exact ⟨.inl (by rw [hf, fee]; rfl), .inl ⟨by rw [he, env]; rfl, by rw [hf, fee]; rfl, by rw [hf, fee]; rfl⟩, .inr (hwrote ⟨v, rfl⟩),
        .inl (by rw [he, env]; rfl)⟩
    | assign b p q _ env fee => exact .of_lasting (by rw [hf, fee]; exact .refl _) (by rw [he, env]; rfl) (by rw [he, env]; rfl) (by rw [he, env]; rfl)

/-- R178, R179: the first fault stays, but for a clear that its sector spells and a reset without the marker. -/
theorem exec_first {c : Instr} {s t : State} {r : FaultRecord} (h : exec c s = .next t) (hr : s.lib.log.first = some r)
    (hreset : ∀ cause i, c = .reset cause i → s.env.formatMarker = true ∧ i.memoryKept = true)
    (hclear : ¬ s.Written c fun w => w = .clearFaults) : t.lib.log.first = some r := by
  rcases exec_takes h with hi | ⟨-, -, m, he, hm⟩ | ⟨d, seated, w, -, -, rfl⟩ | ⟨cause, i, rfl, rfl⟩
  · exact hi.calm.1.first r hr
  · exact he.steady.first r ((hm.keeps.2 fun tag key x hc hx => hclear ⟨tag, key, x, _, hc, hx, rfl⟩).first r hr)
  · exact (resumeStart_steady s.begin w seated).1.first r hr
  · obtain ⟨hf, hk⟩ := hreset cause i rfl
    have hm : s.begin.markerFound i = true := by simp [State.markerFound, hf, hk]
    exact ((startUp_keeps s.begin cause i).2.1 hm).first r hr

/-- A command whose row is not that of a kind of write, and that is no FILE burst, does not write it. -/
theorem State.not_written {s : State} {c : Instr} {p : ServiceWrite → Prop} (hburst : ∀ tag x key, c ≠ .fileBurstArrival tag x key)
    (hrow : ∀ tag key w, p w → ¬ w.ofCommand tag key c) : ¬ s.Written c p := by
  rintro ⟨tag, key, x, w, hc, -, hp⟩
  rcases hc.ofCommand with hw | ⟨data, rfl, -⟩
  · exact hrow tag key w hp hw
  · exact hburst _ _ _ rfl

/-- A FILE burst whose request names another block does not write a kind. -/
theorem State.not_written_burst {s : State} {tag : Tag} {data : Sector} {key : KeyPosition} {k : Block} {p : ServiceWrite → Prop}
    (hwait : ∀ x, ¬ AwaitsWrite s tag x k) (hblock : ∀ w b, p w → w.ofBlock b → b = k) : ¬ s.Written (.fileBurstArrival tag data key) p := by
  rintro ⟨tag', key', x, w, hc, hx, hp⟩
  have hk := hblock w _ hp hc.ofBlock
  rcases hc with ⟨read, hr, -⟩ | ⟨data', he, -⟩
  · cases hr
  · cases he
    exact hwait x (hk ▸ hx)

/-- Settles O60: what each command does to the settings, and which writes its sector can be. -/
theorem settingsAndFirstFaultPersist : Obligations.SettingsAndFirstFaultPersist := by
  refine ⟨fun c s t h hb hr => ?_, fun c s t r hf h hclear hb hr => ?_, fun s t tag data key h => ?_, fun s t cause i hf hk h => ?_⟩
  · have hs := exec_settings h fun cause i hc => absurd hc (hr cause i)
    exact ⟨fun hn => hs.schedule.resolve_right (State.not_written hb (by rintro tag key _ ⟨d, rfl⟩; exact hn tag key d)),
      fun hn => hs.day.resolve_right (State.not_written hb (by rintro tag key _ ⟨d, rfl⟩; exact hn tag d)),
      fun hn => hs.threshold.resolve_right (State.not_written hb (by rintro tag key _ ⟨v, rfl⟩; exact hn tag key v)),
      fun hn => hs.mask.resolve_right (State.not_written hb (by rintro tag key _ ⟨m, rfl⟩; exact hn tag m))⟩
  · exact exec_first h hf hr (State.not_written hb (by rintro tag key _ rfl; exact hclear tag))
  · have hs := exec_settings h nofun
    refine ⟨fun hn => hs.schedule.resolve_right (State.not_written_burst hn (by rintro _ b ⟨d, rfl⟩ hb; exact hb)),
      fun hn => hs.day.resolve_right (State.not_written_burst hn (by rintro _ b ⟨d, rfl⟩ hb; exact hb)),
      fun hn => hs.threshold.resolve_right (State.not_written_burst hn (by rintro _ b ⟨d, rfl⟩ hb; exact hb)), fun hn => ⟨?_, fun r hr => ?_⟩⟩
    · exact hs.mask.resolve_right (State.not_written_burst hn (by rintro _ b ⟨d, rfl⟩ hb; exact hb))
    · exact exec_first h hr nofun (State.not_written_burst hn (by rintro _ b rfl hb; exact hb))
  · cases exec_accounts h with
    | resets _ _ k =>
      obtain ⟨-, hd, ht, hm, hfee⟩ := k.kept (.inl ⟨hf, hk⟩)
      rw [hfee]
      exact ⟨rfl, hd, rfl, rfl, ht, hm⟩
    | onlyTime _ k => exact ⟨by rw [k.fee], by rw [k.env], by rw [k.fee], by rw [k.fee], by rw [k.env], by rw [k.env]⟩
    | notes _ hc => rcases hc with hc | ⟨_, hc⟩ <;> cases hc
    | spends _ d hc => rcases hc with hc | hc | hc <;> cases hc
    | writes _ _ _ _ _ _ hc => rcases hc with ⟨_, hr, _⟩ | ⟨_, hc, _⟩ <;> first | cases hr | cases hc

end Sys2Proof.Machine
end

section
-- One declaration after the other: the stacks of the threads that wait for each other count against the check's memory limit.
set_option Elab.async false
namespace Sys2Proof.Machine

/-! # The roles of the sides -/

theorem Library.RolesFree.role_iff {a b : Library} (h : a.RolesFree b) {r : Role} (hr : r.inUse = true) (s : Side) : b.role s = r ↔ a.role s = r := by
  rcases h.roles s with hs | ⟨h1, h2⟩
  · rw [hs]
  · constructor
    · intro hb; rw [hb, hr] at h2; cases h2
    · intro ha; rw [ha, hr] at h1; cases h1

/-- The record of the rescue names the same sides and the same book before and after. -/
theorem RescueRecord.sides_inj {r q : RescueRecord} (h : r.sides = q.sides) :
    r.source = q.source ∧ r.ofTwin = q.ofTwin ∧ r.book = q.book ∧ r.target = q.target := by
  simp only [RescueRecord.sides, RescueRecord.mk.injEq] at h
  obtain ⟨h1, h2, h3, h4, -, -⟩ := h
  exact ⟨h1, h2, h3, h4⟩

theorem Library.RolesFree.rescue_of {a b : Library} (h : a.RolesFree b) {r : RescueRecord} (hr : b.care.rescue = some r) :
    ∃ q, a.care.rescue = some q ∧ r.source = q.source ∧ r.ofTwin = q.ofTwin ∧ r.book = q.book ∧ r.target = q.target := by
  have hs := h.rescue
  rw [hr] at hs
  obtain ⟨q, hq, hs⟩ := Option.map_eq_some_iff.mp hs.symm
  exact ⟨q, hq, RescueRecord.sides_inj hs.symm⟩

theorem Library.RolesFree.symm_rescue {a b : Library} (h : a.RolesFree b) {q : RescueRecord} (hq : a.care.rescue = some q) :
    ∃ r, b.care.rescue = some r ∧ r.source = q.source ∧ r.ofTwin = q.ofTwin ∧ r.book = q.book ∧ r.target = q.target := by
  have hs := h.rescue
  rw [hq] at hs
  obtain ⟨r, hr, hs⟩ := Option.map_eq_some_iff.mp hs
  exact ⟨r, hr, RescueRecord.sides_inj hs⟩

/-- R13: sides without a book may come and go. -/
theorem Library.RolesFree.sound {a b : Library} (h : a.RolesFree b) (ha : a.RolesSound) : b.RolesSound where
  primary k s := by rw [h.primary, ha.primary, h.role_iff rfl]
  twin k s := by rw [h.twin, ha.twin, h.role_iff rfl]
  target k s := by
    rw [h.role_iff rfl, ← ha.target]
    constructor
    · rintro ⟨r, hr, hb, ht⟩
      obtain ⟨q, hq, -, -, h3, h4⟩ := h.rescue_of hr
      exact ⟨q, hq, h3 ▸ hb, h4 ▸ ht⟩
    · rintro ⟨q, hq, hb, ht⟩
      obtain ⟨r, hr, -, -, h3, h4⟩ := h.symm_rescue hq
      exact ⟨r, hr, h3.trans hb, h4.trans ht⟩
  source r hr := by
    obtain ⟨q, hq, h1, h2, h3, -⟩ := h.rescue_of hr
    rw [h1, h2, h3]
    exact (h.role_iff (by split <;> rfl) _).mpr (ha.source q hq)
  assigned k := by rw [h.primary, h.state]; exact ha.assigned k
  unassigned k := by rw [h.twin, h.state]; exact ha.unassigned k
  sides k p t := by rw [h.primary, h.twin]; exact ha.sides k p t
  apart r t hr ht := by
    obtain ⟨q, hq, -, -, h3, h4⟩ := h.rescue_of hr
    rw [h3, h.primary, h.twin]
    exact ha.apart q t hq (h4 ▸ ht)

theorem Library.RolesCalm.sound {a b : Library} (h : a.RolesCalm b) (ha : a.RolesSound) : b.RolesSound := h.free.sound ha

/-! ## The rescue -/

theorem Library.RolesSound.no_target {l : Library} (h : l.RolesSound) (hr : ∀ r, l.care.rescue = some r → r.target = none) (b : Book) (s : Side) :
    l.role s ≠ .rescueTarget b := fun hs => by
  obtain ⟨r, hr', -, ht⟩ := (h.target b s).mpr hs
  rw [hr r hr'] at ht
  cases ht

/-- R168: a target lies in another cartridge than the sides of its book. -/
theorem Library.findTarget_apart {l : Library} (h : l.RolesSound) {b : Book} {source t : Side} (ht : l.findTarget b source = some t)
    (hs : l.role source = .primary b ∨ l.role source = .twin b) :
    (∀ p, (l.book b).primary = some p → slotOf p ≠ slotOf t) ∧ ∀ q, (l.book b).twin = some q → slotOf q ≠ slotOf t := by
  have hfind := List.find?_some ht
  simp only [Bool.and_eq_true, bne_iff_ne] at hfind
  obtain ⟨h1, h2⟩ := hfind
  unfold Library.otherSide at h2
  rcases hs with hs | hs
  · have hp := (h.primary b source).mpr hs
    rw [if_pos hp] at h2
    refine ⟨fun p hp' => ?_, fun q hq => ?_⟩
    · rw [hp] at hp'; cases hp'; exact h1.symm
    · rw [hq] at h2; simpa using Ne.symm (by simpa using h2)
  · have hq := (h.twin b source).mpr hs
    have hp : (l.book b).primary ≠ some source := fun hp => by
      rw [(h.primary b source).mp hp] at hs; cases hs
    rw [if_neg hp] at h2
    refine ⟨fun p hp' => ?_, fun q hq' => ?_⟩
    · rw [hp'] at h2; simpa using Ne.symm (by simpa using h2)
    · rw [hq] at hq'; cases hq'; exact h1.symm

/-- R168: a rescue takes a target from the blank pool. -/
theorem Library.RolesSound.takesTarget {l m : Library} (h : l.RolesSound) {r : RescueRecord} {t : Side}
    (hr : ∀ q, l.care.rescue = some q → q.target = none) (ht : r.target = some t) (hfind : l.findTarget r.book r.source = some t)
    (hsource : l.role r.source = if r.ofTwin then .twin r.book else .primary r.book)
    (role : ∀ s, m.role s = if t = s then .rescueTarget r.book else l.role s) (book : ∀ k, m.book k = l.book k) (rescue : m.care.rescue = some r) :
    m.RolesSound := by
  have hblank := l.findTarget_blank hfind
  have hother {s : Side} {x : Role} (hx : x ≠ .blank) (hx' : ∀ b, x ≠ .rescueTarget b) : m.role s = x ↔ l.role s = x := by
    rw [role]
    split
    next hs => subst hs; rw [hblank]; exact ⟨fun h => absurd h.symm (hx' _), fun h => absurd h.symm hx⟩
    next => rfl
  have hapart := l.findTarget_apart h hfind (by rw [hsource]; split <;> simp)
  exact
    { primary := fun k s => by rw [book, hother (x := .primary k) nofun nofun]; exact h.primary k s
      twin := fun k s => by rw [book, hother (x := .twin k) nofun nofun]; exact h.twin k s
      target := fun k s => by
        rw [rescue, role]
        split
        next hs => subst hs; simp [ht]
        next hs =>
          refine ⟨?_, fun hk => absurd hk (h.no_target hr k s)⟩
          rintro ⟨q, hq, -, hq'⟩
          cases hq
          rw [ht] at hq'
          cases hq'
          exact absurd rfl hs
      source := fun q hq => by
        rw [rescue] at hq
        cases hq
        refine (hother ?_ ?_).mpr hsource <;> split <;> nofun
      assigned := fun k => by rw [book]; exact h.assigned k
      unassigned := fun k => by rw [book]; exact h.unassigned k
      sides := fun k p q => by rw [book]; exact h.sides k p q
      apart := fun q t' hq ht' => by
        rw [rescue] at hq
        cases hq
        rw [ht] at ht'
        cases ht'
        rw [book]
        exact hapart }

theorem Library.firstRescue_find {l : Library} {s : Side} {b : Book} {t : Side} (h : l.firstRescue = some (s, b, t)) :
    (l.role s).holds = some b ∧ l.findTarget b s = some t := by
  unfold Library.firstRescue at h
  obtain ⟨q, hq, hx⟩ := List.exists_of_findSome?_eq_some h
  split at hx
  next b' hb =>
    obtain ⟨t', ht, he⟩ := Option.map_eq_some_iff.mp hx
    cases he
    exact ⟨hb, ht⟩
  next => cases hx

theorem Role.holds_eq_some {r : Role} {b : Book} (h : r.holds = some b) : r = .primary b ∨ r = .twin b := by
  cases r <;> simp_all [Role.holds]

theorem rolesSound_waitRescue (e : Env) {l : Library} (h : l.RolesSound) (b : Option Book) (s : Side) : (l.waitRescue e b s).RolesSound :=
  (calm_waitRescue e l b s).toRolesCalm.sound h

theorem rolesSound_seekRescue (e : Env) {l : Library} (h : l.RolesSound) : (l.seekRescue e).RolesSound := by
  have h0 : (({ l with care := { l.care with seekDue := false } } : Library)).RolesSound := (Library.Calm.of_same : l.Calm _).toRolesCalm.sound h
  unfold Library.seekRescue
  dsimp only
  split
  next r hr =>
    split
    · exact h0
    next hn =>
      have hn' : r.target = none := by simpa using hn
      split
      next t ht =>
        have hfind : l.findTarget r.book r.source = some t := ht
        exact h.takesTarget (r := { r with target := some t }) (t := t) (fun q hq => by rw [show l.care.rescue = _ from hr] at hq; cases hq; exact hn') rfl
          hfind (h.source r hr) (fun s => Library.setRole_role l t s _) (fun _ => rfl) rfl
      next => exact rolesSound_waitRescue e h0 _ _
  next hr =>
    split
    · exact (Library.Calm.of_same : l.Calm _).toRolesCalm.sound h
    · split
      next s b t hf =>
        obtain ⟨hb, ht⟩ := Library.firstRescue_find (l := l) hf
        have hblank := l.findTarget_blank ht
        have hne : t ≠ s := by
          rintro rfl
          rw [hblank] at hb
          cases hb
        have hrole (k : Side) : ((({ l with care := { l.care with seekDue := false } } : Library)).takeTarget t b).role k
            = if t = k then .rescueTarget b else l.role k := Library.setRole_role l t k _
        refine h.takesTarget (r := ⟨s, _, b, some t, 0, false⟩) (t := t) (fun q hq => by rw [show l.care.rescue = _ from hr] at hq; cases hq) rfl ht ?_
          hrole (fun _ => rfl) rfl
        rw [hrole, if_neg hne]
        rcases Role.holds_eq_some hb with hs | hs <;> rw [show l.role s = _ from hs] <;> simp
      next => exact rolesSound_waitRescue e h0 _ _

end Sys2Proof.Machine
end

section
-- One declaration after the other: the stacks of the threads that wait for each other count against the check's memory limit.
set_option Elab.async false
namespace Sys2Proof.Machine

/-! ## The switch and the loss of a target -/

/-- R175: the book entry that a switch leaves. -/
def BookEntry.switched (k : BookEntry) (ofTwin : Bool) (target : Side) : BookEntry :=
  if ofTwin then { k with twin := some target } else { k with primary := some target }

theorem BookEntry.switched_state (k : BookEntry) (o : Bool) (t : Side) : (k.switched o t).state = k.state := by
  cases o <;> rfl

/-- R175: the target takes the source's place, and the source is RETIRED. -/
theorem Library.RolesSound.switches {l m : Library} (h : l.RolesSound) {r : RescueRecord} {t : Side} (hr : l.care.rescue = some r) (ht : r.target = some t)
    (role : ∀ s, m.role s = if r.source = s then .retired r.book
      else if t = s then (if r.ofTwin then .twin r.book else .primary r.book) else l.role s)
    (book : ∀ k, m.book k = if r.book = k then (l.book r.book).switched r.ofTwin t else l.book k) (rescue : m.care.rescue = none) : m.RolesSound := by
  have htarget : l.role t = .rescueTarget r.book := (h.target r.book t).mp ⟨r, hr, rfl, ht⟩
  have hsource := h.source r hr
  have hapart := h.apart r t hr ht
  have hst : r.source ≠ t := by
    intro hs
    rw [hs, htarget] at hsource
    split at hsource <;> cases hsource
  have honly (k : Book) (s : Side) (hs : l.role s = .rescueTarget k) : s = t := by
    obtain ⟨q, hq, -, hq'⟩ := (h.target k s).mpr hs
    rw [hr] at hq
    cases hq
    exact (Option.some.inj (ht.symm.trans hq')).symm
  have hp := h.primary
  have hq := h.twin
  cases hof : r.ofTwin
  · simp only [hof, Bool.false_eq_true, if_false, BookEntry.switched] at role book hsource
    have hsp := (hp r.book r.source).mpr hsource
    constructor
    · intro k s; rw [role, book]; have := hp k s; split <;> (repeat' split) <;> grind
    · intro k s; rw [role, book]; have := hq k s; have := hq k r.source; have := hq k t; (repeat' split) <;> grind
    · intro k s; rw [rescue, role]; have := honly k s; (repeat' split) <;> grind
    · intro q hq'; rw [rescue] at hq'; cases hq'
    · intro k; rw [book]; have := h.assigned k; split <;> grind
    · intro k; rw [book]; have := h.unassigned k; split <;> grind
    · intro k p q; rw [book]; have := h.sides k p q; split <;> grind
    · intro q t' hq'; rw [rescue] at hq'; cases hq'
  · simp only [hof, if_true, BookEntry.switched] at role book hsource
    have hsp := (hq r.book r.source).mpr hsource
    constructor
    · intro k s; rw [role, book]; have := hp k s; have := hp k r.source; have := hp k t; (repeat' split) <;> grind
    · intro k s; rw [role, book]; have := hq k s; (repeat' split) <;> grind
    · intro k s; rw [rescue, role]; have := honly k s; (repeat' split) <;> grind
    · intro q hq'; rw [rescue] at hq'; cases hq'
    · intro k; rw [book]; have := h.assigned k; split <;> grind
    · intro k; rw [book]; have := h.unassigned k; split <;> grind
    · intro k p q; rw [book]; have := h.sides k p q; split <;> grind
    · intro q t' hq'; rw [rescue] at hq'; cases hq'

/-- R174: the target is RETIRED and the rescue goes on without one. -/
theorem Library.RolesSound.losesTarget {l m : Library} (h : l.RolesSound) {r q : RescueRecord} {t : Side} (hr : l.care.rescue = some r)
    (ht : r.target = some t) (role : ∀ s, m.role s = if t = s then .retired r.book else l.role s) (book : ∀ k, m.book k = l.book k)
    (rescue : m.care.rescue = some q) (hsource : q.source = r.source) (hof : q.ofTwin = r.ofTwin) (hbook : q.book = r.book) (hnone : q.target = none) :
    m.RolesSound := by
  have htarget : l.role t = .rescueTarget r.book := (h.target r.book t).mp ⟨r, hr, rfl, ht⟩
  have honly (k : Book) (s : Side) (hs : l.role s = .rescueTarget k) : s = t := by
    obtain ⟨q, hq, -, hq'⟩ := (h.target k s).mpr hs
    rw [hr] at hq
    cases hq
    exact (Option.some.inj (ht.symm.trans hq')).symm
  constructor
  · intro k s; rw [role, book]; have := h.primary k s; split <;> grind
  · intro k s; rw [role, book]; have := h.twin k s; split <;> grind
  · intro k s; rw [rescue, role]; have := honly k s; split <;> grind
  · intro q' hq'; rw [rescue] at hq'; cases hq'; rw [role, hsource, hof, hbook]; have := h.source r hr; split <;> grind
  · intro k; rw [book]; exact h.assigned k
  · intro k; rw [book]; exact h.unassigned k
  · intro k p q; rw [book]; exact h.sides k p q
  · intro q' t' hq' ht'; rw [rescue] at hq'; cases hq'; rw [hnone] at ht'; cases ht'

/-- What the switch does to the maps before the book's items and windows follow. -/
def Library.switchMaps (l : Library) (r : RescueRecord) (target : Side) : Library :=
  let l := ((l.setBook r.book ((l.book r.book).switched r.ofTwin target)).setRole target
    (if r.ofTwin then .twin r.book else .primary r.book)).setRole r.source (.retired r.book)
  let l := l.setHealth target .zero
  { l with care := { l.care with rescue := none, batch := none, seekDue := true, patrolDue := true } }

theorem Library.switch_calm (l : Library) (r : RescueRecord) (target : Side) : (l.switchMaps r target).Calm (l.switch r target) := by
  unfold Library.switch
  dsimp only
  exact (calm_moveItems _ _ _ _).trans (calm_setTwin _ _ _)

theorem rolesSound_switch {l : Library} (h : l.RolesSound) {r : RescueRecord} {t : Side} (hr : l.care.rescue = some r) (ht : r.target = some t) :
    (l.switch r t).RolesSound := by
  refine (l.switch_calm r t).toRolesCalm.sound (h.switches hr ht (fun s => ?_) (fun k => Library.setBook_book ..) rfl)
  show ((((l.setBook r.book _).setRole t _).setRole r.source _)).role s = _
  rw [Library.setRole_role, Library.setRole_role]
  rfl

theorem rolesSound_loseTarget {l : Library} (h : l.RolesSound) {r : RescueRecord} {t : Side} (hr : l.care.rescue = some r) (ht : r.target = some t) :
    (l.loseTarget r t).RolesSound :=
  h.losesTarget hr ht (q := { r with target := none, copyMark := 0 }) (fun s => Library.setRole_role l t s _) (fun _ => rfl) rfl rfl rfl rfl rfl

theorem rolesSound_runRescue (e : Env) : ∀ (n : Nat) {l : Library}, l.RolesSound → (Library.runRescue e n l).RolesSound
  | 0, _, h => h
  | n + 1, l, h => by
    unfold Library.runRescue
    have h1 : (if l.care.seekDue then l.seekRescue e else l).RolesSound := by
      split
      · exact rolesSound_seekRescue e h
      · exact h
    dsimp only
    generalize (if l.care.seekDue then l.seekRescue e else l) = m at h1
    split
    next r hr =>
      split
      next target ht =>
        split
        · exact h1
        · split
          · split
            · exact rolesSound_runRescue e n ((calm_setBatch m _).toRolesCalm.sound h1)
            · split
              · exact rolesSound_runRescue e n (rolesSound_switch h1 hr ht)
              · exact h1
          · split
            next xs _ _ =>
              have hc : m.RolesFree (m.completeBatch r xs) := ⟨fun _ => .inl rfl, fun _ => rfl, fun _ => rfl, fun _ => rfl, by rw [hr]; rfl⟩
              exact rolesSound_runRescue e n (hc.sound h1)
            · exact ((calm_syncReads e m r _).trans (calm_syncWrites e _ target _)).toRolesCalm.sound h1
      next => exact h1
    next => exact h1

theorem rolesSound_rescueReaction (e : Env) {l : Library} (h : l.RolesSound) : (l.rescueReaction e).RolesSound :=
  (calm_examineBooks e _ _).toRolesCalm.sound (rolesSound_runRescue e 1100 h)

/-! ## The reactions of an event -/

theorem rolesSound_work (e : Env) {l : Library} (h : l.RolesSound) : (l.work e).RolesSound := by
  unfold Library.work
  dsimp only
  have h1 : (allTags.foldl (fun l t => l.turnWindows e t) l).RolesSound :=
    (Library.Calm.foldl (fun l t => calm_turnWindows e l t) allTags l).toRolesCalm.sound h
  have h2 := (rolesCalm_unwindStranded e _).sound h1
  have h3 := (Library.Calm.foldl (fun l t => calm_resolvePending e l t) allTags _).toRolesCalm.sound h2
  exact rolesSound_rescueReaction e ((calm_stage e _).toRolesCalm.sound h3)

theorem rolesSound_passes (e : Env) : ∀ (n : Nat) (was : Library) {l : Library}, l.RolesSound → (Library.passes e n was l).RolesSound
  | 0, _, _, h => h
  | n + 1, was, l, h => by
    unfold Library.passes Library.pass
    dsimp only
    exact rolesSound_passes e n _ ((rolesCalm_direct e _).sound ((calm_registerEvents e _ was).toRolesCalm.sound (rolesSound_work e h)))

theorem rolesSound_settle (e : Env) {l : Library} (h : l.RolesSound) (was : Library) : (l.settle e was).RolesSound :=
  (calm_finish _).toRolesCalm.sound ((calm_orderReservations _ was).toRolesCalm.sound (rolesSound_passes e 6 was h))

/-! ## The book table's writes -/

theorem Library.closes_sound {l m : Library} (h : l.RolesSound) {b : Book} (hc : l.closeBook b = some m) : m.RolesSound := by
  unfold Library.closeBook at hc
  dsimp only at hc
  split at hc
  · cases hc
  next ho =>
    cases hc
    have hbook (k : Book) : (l.setBook b { l.book b with state := .closed }).book k = if b = k then { l.book b with state := .closed } else l.book k :=
      Library.setBook_book ..
    exact
      { primary := fun k s => by
          rw [hbook]
          split
          next hk => subst hk; exact h.primary b s
          next => exact h.primary k s
        twin := fun k s => by
          rw [hbook]
          split
          next hk => subst hk; exact h.twin b s
          next => exact h.twin k s
        target := h.target
        source := h.source
        assigned := fun k => by rw [hbook]; have := h.assigned k; split <;> grind
        unassigned := fun k => by rw [hbook]; have := h.unassigned k; split <;> grind
        sides := fun k p q => by rw [hbook]; have := h.sides k p q; split <;> grind
        apart := fun r t hr ht => by rw [hbook]; have := h.apart r t hr ht; split <;> grind }
  · cases hc; exact h

/-- R9: a book that the rescue does not name. -/
theorem Library.not_bookUnderRescue {l : Library} {b : Book} (h : (!l.bookUnderRescue b) = true) {r : RescueRecord} (hr : l.care.rescue = some r) :
    r.book ≠ b := by
  simpa [Library.bookUnderRescue, hr] using h

theorem Library.not_sideUnderRescue {l : Library} {s : Side} (h : l.sideUnderRescue s = false) {r : RescueRecord} (hr : l.care.rescue = some r) :
    r.source ≠ s ∧ r.target ≠ some s := by
  simpa [Library.sideUnderRescue, hr] using h

/-- R7: a side of the blank pool becomes the twin of a book. -/
theorem Library.RolesSound.addsTwin {l m : Library} (h : l.RolesSound) {b : Book} {t : Side} (hadd : l.twinAddable b t = true)
    (role : ∀ s, m.role s = if t = s then .twin b else l.role s)
    (book : ∀ k, m.book k = if b = k then { l.book b with twin := some t, twinMark := 0 } else l.book k)
    (rescue : m.care.rescue = l.care.rescue) : m.RolesSound := by
  unfold Library.twinAddable at hadd
  simp only [Bool.and_eq_true, bne_iff_ne, beq_iff_eq, Option.isNone_iff_eq_none] at hadd
  obtain ⟨⟨⟨⟨⟨hstate, hnone⟩, hblank⟩, hslot⟩, hbook⟩, hside⟩ := hadd
  have hr (r : RescueRecord) (hr : l.care.rescue = some r) : r.book ≠ b := Library.not_bookUnderRescue hbook hr
  constructor
  · intro k s; rw [role, book]; have := h.primary k s; (repeat' split) <;> grind
  · intro k s; rw [role, book]; have := h.twin k s; have := h.twin k t; (repeat' split) <;> grind
  · intro k s; rw [rescue, role]; have := h.target k s; split <;> grind
  · intro r hr'; rw [rescue] at hr'; rw [role]; have := h.source r hr'; split <;> grind
  · intro k; rw [book]; have := h.assigned k; split <;> grind
  · intro k; rw [book]; have := h.unassigned k; split <;> grind
  · intro k p q; rw [book]; have := h.sides k p q; split <;> grind
  · intro r t' hr' ht'; rw [rescue] at hr'; rw [book, if_neg (hr r hr').symm]; exact h.apart r t' hr' ht'

/-- R8: the twin of a book is RETIRED. -/
theorem Library.RolesSound.removesTwin {l m : Library} (h : l.RolesSound) {b : Book} {t : Side} (hrem : l.twinRemovable b = some t)
    (role : ∀ s, m.role s = if t = s then .retired b else l.role s)
    (book : ∀ k, m.book k = if b = k then { l.book b with twin := none, twinMark := (l.book b).filing } else l.book k)
    (rescue : m.care.rescue = l.care.rescue) : m.RolesSound := by
  unfold Library.twinRemovable at hrem
  dsimp only at hrem
  split at hrem
  next hb =>
    simp only [Bool.and_eq_true, bne_iff_ne] at hb
    obtain ⟨hstate, hbook⟩ := hb
    split at hrem
    next s hs =>
      split at hrem
      · cases hrem
      next hside =>
        cases hrem
        have hr (r : RescueRecord) (hr : l.care.rescue = some r) : r.book ≠ b := Library.not_bookUnderRescue hbook hr
        have hrole := (h.twin b t).mp hs
        constructor
        · intro k s; rw [role, book]; have := h.primary k s; (repeat' split) <;> grind
        · intro k s; rw [role, book]; have := h.twin k s; have := h.twin b s; (repeat' split) <;> grind
        · intro k s; rw [rescue, role]; have := h.target k s; split <;> grind
        · intro r hr'
          rw [rescue] at hr'
          have hs' := (Library.not_sideUnderRescue (by simpa using hside) hr').1
          rw [role, if_neg hs'.symm]
          exact h.source r hr'
        · intro k; rw [book]; have := h.assigned k; split <;> grind
        · intro k; rw [book]; have := h.unassigned k; split <;> grind
        · intro k p q; rw [book]; have := h.sides k p q; split <;> grind
        · intro r t' hr' ht'; rw [rescue] at hr'; rw [book, if_neg (hr r hr').symm]; exact h.apart r t' hr' ht'
    next => cases hrem
  next => cases hrem

theorem rolesSound_addTwin (e : Env) {l m : Library} (h : l.RolesSound) {b : Book} {n : Nat} (ha : l.addTwin e b n = some m) : m.RolesSound := by
  obtain ⟨t, -, hadd, rfl⟩ := Library.addTwin_eq_some e l ha
  refine ((calm_setTwin _ b .none).trans (calm_examine e _ b)).toRolesCalm.sound
    (h.addsTwin hadd (fun s => Library.setRole_role l t s _) (fun k => Library.setBook_book ..) rfl)

theorem rolesSound_removeTwin (e : Env) {l m : Library} (h : l.RolesSound) {b : Book} (ha : l.removeTwin e b = some m) : m.RolesSound := by
  obtain ⟨t, hrem, hm⟩ := Library.removeTwin_eq_some e l ha
  rw [hm]
  refine (comes_afterRemoval e _ b t).toRolesFree.sound
    (h.removesTwin hrem (fun s => Library.setRole_role l t s _) (fun k => Library.setBook_book ..) rfl)

/-- R6: sides of the blank pool become those of an UNASSIGNED book. -/
theorem Library.RolesSound.assigns {l m : Library} (h : l.RolesSound) {b : Book} {p : Side} {q : Option Side} (ha : l.assignable b p q = true)
    (role : ∀ s, m.role s = if q = some s then .twin b else if p = s then .primary b else l.role s)
    (book : ∀ k, m.book k = if b = k then .fresh p q else l.book k)
    (rescue : m.care.rescue = l.care.rescue) : m.RolesSound := by
  unfold Library.assignable at ha
  simp only [Bool.and_eq_true, beq_iff_eq, Bool.not_eq_true'] at ha
  obtain ⟨⟨⟨⟨hstate, hblank⟩, hbook⟩, hside⟩, hq⟩ := ha
  have hnone := (h.assigned b).mpr hstate
  have htwin := h.unassigned b hstate
  have hr (r : RescueRecord) (hr : l.care.rescue = some r) : r.book ≠ b := Library.not_bookUnderRescue (by simpa using hbook) hr
  have hq' : ∀ t, q = some t → l.role t = .blank ∧ slotOf t ≠ slotOf p := fun t ht => by
    rw [ht] at hq
    simp only [Bool.and_eq_true, beq_iff_eq, bne_iff_ne] at hq
    exact hq.1
  constructor
  · intro k s; rw [role, book]; have := h.primary k s; have := h.primary b s; (repeat' split) <;> grind [BookEntry.fresh]
  · intro k s; rw [role, book]; have := h.twin k s; have := h.twin b s; (repeat' split) <;> grind [BookEntry.fresh]
  · intro k s; rw [rescue, role]; have := h.target k s; (repeat' split) <;> grind
  · intro r hr'; rw [rescue] at hr'; rw [role]; have := h.source r hr'; (repeat' split) <;> grind
  · intro k; rw [book]; have := h.assigned k; split <;> grind [BookEntry.fresh]
  · intro k; rw [book]; have := h.unassigned k; split <;> grind [BookEntry.fresh]
  · intro k x y; rw [book]; have := h.sides k x y; split <;> grind [BookEntry.fresh]
  · intro r t' hr' ht'; rw [rescue] at hr'; rw [book, if_neg (hr r hr').symm]; exact h.apart r t' hr' ht'

theorem rolesSound_assignSides (e : Env) {l : Library} (h : l.RolesSound) {b : Book} {p : Side} {q : Option Side} (ha : l.assignable b p q = true) :
    (l.assignSides e b p q).RolesSound := by
  rw [Library.assignSides_eq]
  refine ((calm_setTwin _ b .none).trans (calm_examine e _ b)).toRolesCalm.sound (h.assigns ha (fun s => ?_) (fun k => ?_) ?_)
  · cases q with
    | none =>
      show (l.setRole p (.primary b)).role s = _
      rw [Library.setRole_role]
      simp
    | some t =>
      show ((l.setRole p (.primary b)).setRole t (.twin b)).role s = _
      rw [Library.setRole_role, Library.setRole_role]
      simp
  · rw [Library.setBook_book, Library.takeSides_book]
  · cases q <;> rfl

theorem rolesSound_applyWrite {s u : State} {w : ServiceWrite} (h : s.lib.RolesSound) (hw : s.applyWrite w = some u) : u.lib.RolesSound := by
  cases w with
  | readOnly => cases hw
  | unknown keyed => cases hw
  | dayClose day =>
    simp only [State.applyWrite] at hw
    split at hw
    · cases hw; exact (calm_callPatrol s.lib).toRolesCalm.sound h
    · cases hw
  | clearFaults => cases hw; exact ⟨h.primary, h.twin, h.target, h.source, h.assigned, h.unassigned, h.sides, h.apart⟩
  | setMask m => cases hw; exact h
  | clearCauses => cases hw; exact h
  | pickerClear => cases hw; exact (calm_clearPicker s.lib).toRolesCalm.sound h
  | orderClose st => cases hw; exact h
  | schedule d => obtain rfl := Option.some.inj hw; exact h
  | poolAdd xs => obtain ⟨m, hm, rfl⟩ := State.withLib_eq_some hw; exact (comes_addToPool hm).toRolesFree.sound h
  | poolRemove xs => obtain ⟨m, hm, rfl⟩ := State.withLib_eq_some hw; exact (comes_takeFromPool hm).toRolesFree.sound h
  | threshold v => cases hw; exact h
  | assign b p t =>
    obtain ⟨x, y, -, -, ha, rfl⟩ := State.assignBook_eq_some hw
    exact rolesSound_assignSides _ h ha
  | addTwin b t => obtain ⟨m, hm, rfl⟩ := State.withLib_eq_some hw; exact rolesSound_addTwin _ h hm
  | removeTwin b => obtain ⟨m, hm, rfl⟩ := State.withLib_eq_some hw; exact rolesSound_removeTwin _ h hm
  | close b => obtain ⟨m, hm, rfl⟩ := State.withLib_eq_some hw; exact Library.closes_sound h hm

end Sys2Proof.Machine
end

section
-- One declaration after the other: the stacks of the threads that wait for each other count against the check's memory limit.
set_option Elab.async false
namespace Sys2Proof.Machine

/-! ## Own effects and start-up keep the roles -/

theorem rolesSound_sendResponse {l : Library} (h : l.RolesSound) (r : Response) (rest : List Response) : (l.sendResponse r rest).RolesSound :=
  ⟨h.primary, h.twin, h.target, h.source, h.assigned, h.unassigned, h.sides, h.apart⟩

theorem State.Effect.rolesSound {s t : State} {c : Instr} {m : Library} (h : s.Effect t c m) (hs : s.lib.RolesSound) : m.RolesSound := by
  have hbegin : s.begin.lib.RolesSound := (Library.Calm.of_same : s.lib.Calm s.begin.lib).toRolesCalm.sound hs
  cases h with
  | comes _ h => exact h.toRolesFree.sound hs
  | loses l r side h hr ht => exact rolesSound_loseTarget (h.toRolesCalm.sound hs) hr ht
  | accepts r b l h =>
    have hl : l.RolesSound := by rw [h]; exact (calm_emit _ _).toRolesCalm.sound hbegin
    have hbook := rolesCalm_setBook (l.setEntry r.tag (some (newEntry r (.file (l.newFiling s.env r b))))) (b := b)
      (k := { l.book b with intake := (l.book b).intake + 1 }) rfl rfl rfl
    exact ((rolesCalm_setEntry l _ _).trans hbook).sound hl
  | files d v tag b f x g l _ _ _ h => exact (h.toRolesCalm.trans (filed_keeps _ l tag g).2).sound hs
  | spends d v tag b f x g l m e count _ _ _ h _ _ after =>
    exact ((h.toRolesCalm.trans (spent_keeps e l tag g v.side d count).2).trans after.toRolesCalm).sound hs
  | holds l h => exact (h.toRolesCalm.trans (rolesCalm_unwindAll l)).sound hs
  | responds r rest x => exact rolesSound_sendResponse hbegin r rest
  | writes tag key x w u _ _ _ h => exact (endRequest_keeps u.lib tag .done 1 0).2.sound (rolesSound_applyWrite hbegin h)

theorem State.EndsAs.rolesSound {s t : State} {m : Library} (h : s.EndsAs t m) (hm : m.RolesSound) : t.lib.RolesSound := by
  rcases h with ⟨rfl, -⟩ | h | ⟨was, h⟩
  · exact hm
  · rw [h]; exact (calm_finish m).toRolesCalm.sound hm
  · rw [h]; exact rolesSound_settle _ hm was

theorem rolesCalm_resetIntake (l : Library) : l.RolesCalm l.resetIntake := by
  have hbook : ∀ k, l.resetIntake.book k = { l.book k with intake := (l.book k).filing } := fun k => look_map ..
  exact ⟨rfl, fun k => by rw [hbook], fun k => by rw [hbook], fun k => by rw [hbook], rfl⟩

theorem LastChange.rolesSound {warning : Bool} {c : State → State} (h : LastChange warning c) {s : State} (hs : s.lib.RolesSound) :
    (c s).lib.RolesSound := by
  cases h with
  | compare k => exact (comes_comparePresence s.env s.lib k).toRolesFree.sound hs
  | intake => exact (rolesCalm_resetIntake s.lib).sound hs
  | drive d => exact (calm_resetDrive s.env s.lib d).toRolesCalm.sound hs
  | miss k => exact (calm_missUnconfigured s.env s.lib k).toRolesCalm.sound hs
  | held => exact (calm_returnHeld s.lib .startUp).toRolesCalm.sound hs
  | examine b => exact (calm_examine s.env s.lib b).toRolesCalm.sound hs
  | care =>
    exact (calm_startCare s.env s.lib).toRolesCalm.sound
      (rolesSound_rescueReaction s.env (((calm_callRescue s.lib).trans (calm_callPatrol _)).toRolesCalm.sound hs))
  | hold =>
    dsimp only
    split
    · exact (calm_fault s.env s.lib _).toRolesCalm.sound hs
    · exact hs

theorem endStart_rolesSound {s : State} (hs : s.lib.RolesSound) (warning : Bool) (cut : Option Nat) : (s.endStart warning cut).lib.RolesSound := by
  have htake (cs : List (State → State)) (h : ∀ c ∈ cs, c ∈ lastChanges warning) : (s.resume.take cs).lib.RolesSound :=
    State.take_keeps (P := fun u => u.lib.RolesSound) (fun c hc u hu => (lastChange_of_mem (h c hc)).rolesSound hu) hs
  cases cut with
  | none => exact rolesSound_settle _ (htake _ fun _ h => h) _
  | some n => exact htake _ fun c h => List.mem_of_mem_take h

theorem resumeStart_rolesSound {s : State} (hs : s.lib.RolesSound) (w : StartUp) (seated : Bool) : (s.resumeStart w seated).lib.RolesSound := by
  unfold State.resumeStart
  split
  next m _ => exact endStart_rolesSound (s := { s with lib := s.lib.settleRecord m false seated }) ((calm_settleRecord _ m false seated).toRolesCalm.sound hs) _ _
  next => exact endStart_rolesSound hs _ _

theorem settleStart_rolesSound {s : State} (hs : s.lib.RolesSound) (i : ResetInputs) : (s.settleStart i).lib.RolesSound := by
  unfold State.settleStart
  split
  · exact endStart_rolesSound hs _ _
  next m _ =>
    have ha := (calm_askReports s.lib m).toRolesCalm.sound hs
    dsimp only
    split
    · exact ha
    · exact endStart_rolesSound (s := { s with lib := (s.lib.askReports m).settleRecord m i.grip false }) ((calm_settleRecord _ m i.grip false).toRolesCalm.sound ha) _ _

/-- R22: without the marker no book has a side, and no side a book. -/
theorem rolesSound_defaults (l : Library) (presence : Vector Bool 64) : (l.defaults presence).RolesSound := by
  have hbook : ∀ k, (l.defaults presence).book k = .unassigned := fun k => look_replicate ..
  have hrole : ∀ s, (l.defaults presence).role s = .unlisted := fun s => look_replicate ..
  have hrescue : (l.defaults presence).care.rescue = none := rfl
  constructor
  · intro k s; rw [hbook, hrole]; simp [BookEntry.unassigned]
  · intro k s; rw [hbook, hrole]; simp [BookEntry.unassigned]
  · intro k s; rw [hrescue, hrole]; simp
  · intro r hr; rw [hrescue] at hr; cases hr
  · intro k; rw [hbook]; simp [BookEntry.unassigned]
  · intro k _; rw [hbook]; rfl
  · intro k p q; rw [hbook]; simp [BookEntry.unassigned]
  · intro r t hr; rw [hrescue] at hr; cases hr

theorem firstChanges_rolesSound {found : Bool} {cause : ResetCause} {presence : Vector Bool 64} {c : State → State}
    (h : c ∈ firstChanges found cause presence) {s : State} (hs : s.lib.RolesSound) : (c s).lib.RolesSound := by
  simp only [firstChanges, List.mem_cons, List.not_mem_nil, or_false] at h
  rcases h with rfl | rfl | rfl
  · cases found with
    | true => exact hs
    | false => exact rolesSound_defaults s.lib presence
  · exact hs
  · cases found with
    | true => exact hs
    | false => exact (calm_fault s.env s.lib _).toRolesCalm.sound hs

theorem startUp_rolesSound {s : State} (hs : s.lib.RolesSound) (cause : ResetCause) (i : ResetInputs) : (s.startUp cause i).lib.RolesSound := by
  have hbegin : (s.beginStart i).lib.RolesSound := ⟨hs.primary, hs.twin, hs.target, hs.source, hs.assigned, hs.unassigned, hs.sides, hs.apart⟩
  have hfirst (cs : List (State → State)) (h : ∀ c ∈ cs, c ∈ firstChanges (s.markerFound i) cause i.presence) :
      ((s.beginStart i).take cs).lib.RolesSound :=
    State.take_keeps (P := fun u => u.lib.RolesSound) (fun c hc u hu => firstChanges_rolesSound (h c hc) hu) hbegin
  unfold State.startUp
  dsimp only
  split
  · exact settleStart_rolesSound (hfirst _ fun _ h => h) i
  · split
    · exact hfirst _ fun c hc => List.mem_of_mem_take hc
    · exact settleStart_rolesSound (hfirst _ fun _ h => h) i

/-- Settles O44: the roles through every own effect, every reaction and start-up. -/
theorem stepKeepsRolesSound : Obligations.StepKeepsRolesSound := by
  intro s t hs h
  rcases step_cases h with rfl | ⟨c, rest, hc⟩
  · exact ⟨hs.primary, hs.twin, hs.target, hs.source, hs.assigned, hs.unassigned, hs.sides, hs.apart⟩
  · rcases exec_takes hc with hi | ⟨-, -, m, he, hm⟩ | ⟨d, seated, w, -, -, rfl⟩ | ⟨cause, i, -, rfl⟩
    · exact hi.calm.1.toRolesCalm.sound hs
    · exact he.rolesSound (hm.rolesSound hs)
    · exact resumeStart_rolesSound ((Library.Calm.of_same : s.lib.Calm _).toRolesCalm.sound hs) w seated
    · exact startUp_rolesSound ((Library.Calm.of_same : s.lib.Calm _).toRolesCalm.sound hs) cause i

end Sys2Proof.Machine
end

section
-- One declaration after the other: the stacks of the threads that wait for each other count against the check's memory limit.
set_option Elab.async false
namespace Sys2Proof.Machine

/-! # Books and FILEs

`Library.Fine` says the invariant of the FILEs and the marks in terms of `Library.fileKey`; a calm update keeps it, and the events of a FILE are taken one by
one. -/

/-- R4: the marks of a book in their order, but for the count of its live FILEs. -/
structure Library.MarksFine (l : Library) : Prop where
  twin : ∀ k, (l.book k).twinMark ≤ (l.book k).filing
  filing : ∀ k, (l.book k).filing ≤ (l.book k).intake
  top : ∀ k, (l.book k).intake ≤ Config.framesPerBook
  alone : ∀ k, (l.book k).twin = none → (l.book k).twinMark = (l.book k).filing
  unassigned : ∀ k, (l.book k).state = .unassigned → (l.book k).intake = 0

/-- R82: what ties the primary writes in progress to the FILEs. -/
structure Library.WritesFine (l : Library) : Prop where
  writes : ∀ d v t k f, (l.drive d).service = some v → v.command = .primaryWrite t k f → l.fileKey t = some (k, f, true)
  single : ∀ d d' v v' t k f k' f', (l.drive d).service = some v → (l.drive d').service = some v' → v.command = .primaryWrite t k f →
    v'.command = .primaryWrite t k' f' → d = d'

/-- R82: a FILE that has not ended names a frame between its book's marks, another than any other's; the one being written names the frame at the filing mark. -/
structure Library.FramesFine (l : Library) : Prop where
  frames : ∀ t k f w, l.fileKey t = some (k, f, w) → (l.book k).filing ≤ f ∧ f < (l.book k).intake ∧ (w = true → f = (l.book k).filing)
  distinct : ∀ t u k f w v, l.fileKey t = some (k, f, w) → l.fileKey u = some (k, f, v) → t = u

/-- The invariant of the FILEs and the marks, where start-up is over. -/
structure Library.Fine (l : Library) : Prop extends Library.MarksFine l, Library.WritesFine l, Library.FramesFine l where
  tags : l.TagsSound
  ended : l.EndedSound
  live : ∀ k, (l.book k).intake = (l.book k).filing + l.liveFiles k

variable {l m : Library}

theorem Library.fileKey_eq_some {t : Tag} {k : Book} {f : Nat} {w : Bool} :
    l.fileKey t = some (k, f, w) ↔ ∃ x g, l.fileOf t = some (x, g) ∧ g.book = k ∧ g.frame = f ∧ (g.phase == .writing) = w := by
  simp only [Library.fileKey, Option.map_eq_some_iff, Prod.mk.injEq]
  constructor
  · rintro ⟨⟨x, g⟩, h, h1, h2, h3⟩; exact ⟨x, g, h, h1, h2, h3⟩
  · rintro ⟨x, g, h, h1, h2, h3⟩; exact ⟨⟨x, g⟩, h, h1, h2, h3⟩

theorem FilePhase.beq_writing {p : FilePhase} : (p == .writing) = true ↔ p = .writing := beq_iff_eq

theorem Library.fileKey_of_fileOf {t : Tag} {x : Entry} {g : Filing} (h : l.fileOf t = some (x, g)) :
    l.fileKey t = some (g.book, g.frame, g.phase == .writing) := by
  rw [Library.fileKey, h]; rfl

/-- The book of a FILE that has not ended. -/
def Library.inBook (l : Library) (k : Book) (t : Tag) : Bool := (l.fileKey t).any fun p => p.1 == k

theorem Library.liveFiles_eq (l : Library) (k : Book) : l.liveFiles k = (allTags.filter (l.inBook k)).length := by
  unfold Library.liveFiles
  congr 2
  funext t
  simp only [Library.inBook, Library.fileKey]
  cases l.fileOf t <;> rfl

theorem Library.liveFiles_congr (h : ∀ t, m.fileKey t = l.fileKey t) (k : Book) : m.liveFiles k = l.liveFiles k := by
  rw [Library.liveFiles_eq, Library.liveFiles_eq]
  congr 2
  funext t
  simp only [Library.inBook, h]

theorem mem_allTags (t : Tag) : t ∈ allTags := List.mem_finRange t

theorem nodup_allTags : allTags.Nodup := List.nodup_finRange _

/-- A count over a list without duplicates in which one element joins. -/
theorem length_filter_join {α : Type} [DecidableEq α] {p q : α → Bool} {x : α} : ∀ {xs : List α}, xs.Nodup → x ∈ xs → p x = false → q x = true →
    (∀ y, y ≠ x → q y = p y) → (xs.filter q).length = (xs.filter p).length + 1
  | y :: xs, hn, hx, hp, hq, h => by
    rw [List.nodup_cons] at hn
    rcases List.mem_cons.mp hx with rfl | hx
    · have hsame : xs.filter q = xs.filter p := List.filter_congr fun z hz => h z fun e => hn.1 (e ▸ hz)
      rw [List.filter_cons_of_pos hq, List.filter_cons_of_neg (by simp [hp]), hsame]
      rfl
    · have hne : y ≠ x := fun e => hn.1 (e ▸ hx)
      have ih := length_filter_join hn.2 hx hp hq h
      rw [List.filter_cons, List.filter_cons, h y hne]
      split
      · simp only [List.length_cons, ih]
      · exact ih

/-- A FILE that joins a book counts there. -/
theorem Library.liveFiles_join {t : Tag} {k : Book} {f : Nat} {w : Bool} (hl : l.fileKey t = none) (hm : m.fileKey t = some (k, f, w))
    (h : ∀ u, u ≠ t → m.fileKey u = l.fileKey u) (c : Book) : m.liveFiles c = l.liveFiles c + if c = k then 1 else 0 := by
  rw [Library.liveFiles_eq, Library.liveFiles_eq]
  split
  next hc =>
    subst hc
    exact length_filter_join nodup_allTags (mem_allTags t) (by simp [Library.inBook, hl]) (by simp [Library.inBook, hm])
      fun u hu => by simp only [Library.inBook, h u hu]
  next hc =>
    congr 2
    funext u
    by_cases hu : u = t
    · subst hu; simp [Library.inBook, hl, hm, Ne.symm hc]
    · simp only [Library.inBook, h u hu]

theorem Library.FilesCalm.marksFine (h : l.FilesCalm m) (hl : l.MarksFine) : m.MarksFine where
  twin k := h.twinTop k (hl.twin k)
  filing k := by rw [h.filing, h.intake]; exact hl.filing k
  top k := by rw [h.intake]; exact hl.top k
  alone k hk := by
    obtain ⟨h1, h2⟩ := h.alone k hk
    rw [h2, h.filing]
    exact hl.alone k h1
  unassigned k hk := by rw [h.intake]; exact hl.unassigned k (h.state k ▸ hk)

theorem Library.FilesCalm.writesFine (h : l.FilesCalm m) (hl : l.WritesFine) : m.WritesFine where
  writes d v t k f hv hc := by
    obtain ⟨v', hv', hc'⟩ := h.write d v t k f hv hc
    rw [h.files]
    exact hl.writes d v' t k f hv' hc'
  single d d' v v' t k f k' f' hv hv' hc hc' := by
    obtain ⟨u, hu, hcu⟩ := h.write d v t k f hv hc
    obtain ⟨u', hu', hcu'⟩ := h.write d' v' t k' f' hv' hc'
    exact hl.single d d' u u' t k f k' f' hu hu' hcu hcu'

theorem Library.FilesCalm.fine (h : l.FilesCalm m) (hl : l.Fine) : m.Fine :=
  { h.marksFine hl.toMarksFine, h.writesFine hl.toWritesFine with
    frames := fun t k f w => by rw [h.files, h.filing, h.intake]; exact hl.frames t k f w
    distinct := fun t u k f w v => by rw [h.files, h.files]; exact hl.distinct t u k f w v
    tags := h.tags hl.tags
    ended := h.ended hl.tags hl.ended
    live := fun k => by rw [h.intake, h.filing, Library.liveFiles_congr h.files]; exact hl.live k }

/-! ## The invariant as the obligation states it -/

/-- R10: the directories are BLANK exactly at and above the filing marks. -/
def Env.Filled (e : Env) (l : Library) : Prop := ∀ k f, f < Config.framesPerBook → (e.frame k f = .blank ↔ (l.book k).filing ≤ f)

theorem State.BooksSound.fine {s : State} (h : s.BooksSound) (hs : s.env.startUp = none) : s.lib.Fine ∧ s.env.Filled s.lib := by
  have hf := h.files
  refine ⟨?_, fun k => (h.marks k).directory⟩
  exact
    { twin := fun k => (h.marks k).twin
      filing := fun k => (h.marks k).filing
      top := fun k => (h.marks k).top
      alone := fun k => (h.marks k).alone
      unassigned := fun k => (h.marks k).unassigned
      writes := fun d v t k f hv hc => by
        obtain ⟨x, g, hg, h1, h2, h3⟩ := hf.writes d v t k f hv hc
        exact Library.fileKey_eq_some.mpr ⟨x, g, hg, h1, h2, FilePhase.beq_writing.mpr h3⟩
      single := hf.single
      frames := fun t k f w ht => by
        obtain ⟨x, g, hg, rfl, rfl, rfl⟩ := Library.fileKey_eq_some.mp ht
        obtain ⟨h1, h2, h3⟩ := hf.frames t x g hg
        exact ⟨h1, h2, fun hw => h3 (FilePhase.beq_writing.mp hw)⟩
      distinct := fun t u k f w v ht hu => by
        obtain ⟨x, g, hg, rfl, rfl, -⟩ := Library.fileKey_eq_some.mp ht
        obtain ⟨y, g', hg', h1, h2, -⟩ := Library.fileKey_eq_some.mp hu
        exact hf.distinct t u x y g g' hg hg' h1.symm h2.symm
      tags := hf.tags
      ended := hf.ended
      live := fun k => (h.marks k).live hs }

theorem Library.Fine.booksSound {s : State} (h : s.lib.Fine) (hd : s.env.Filled s.lib) (hs : s.env.startUp = none) : s.BooksSound where
  marks k := ⟨h.twin k, h.filing k, h.top k, h.alone k, h.unassigned k, fun _ => h.live k, hd k⟩
  files :=
    { tags := h.tags
      frames := fun t x g hg => by
        obtain ⟨h1, h2, h3⟩ := h.frames t _ _ _ (Library.fileKey_of_fileOf hg)
        exact ⟨h1, h2, fun hw => h3 (FilePhase.beq_writing.mpr hw)⟩
      distinct := fun t u x y g g' hg hg' hb hf => by
        have hu := Library.fileKey_of_fileOf hg'
        rw [← hb, ← hf] at hu
        exact h.distinct t u _ _ _ _ (Library.fileKey_of_fileOf hg) hu
      writes := fun d v t k f hv hc => by
        obtain ⟨x, g, hg, h1, h2, h3⟩ := Library.fileKey_eq_some.mp (h.writes d v t k f hv hc)
        exact ⟨x, g, hg, h1, h2, FilePhase.beq_writing.mp h3⟩
      single := h.single
      ended := h.ended }
  starting hx := by rw [hs] at hx; cases hx

/-! ## A FILE is accepted -/

theorem Library.fileKey_setEntry (t u : Tag) (y : Option Entry) : (l.setEntry t y).fileKey u = if t = u then y.bind Entry.fileKey else l.fileKey u := by
  rw [Library.fileKey_eq, Library.fileKey_eq, Library.setEntry_entry]
  split <;> rfl

/-- R35: what the checks of a FILE that passes have found. -/
theorem Library.fileCheck_none {e : Env} {r : RequestRecord} {b : Book} (h : l.fileCheck e r b = none) :
    (l.book b).state = .opened ∧ frameOf r.addr.val = (l.book b).intake ∧ frameOf r.addr.val < Config.framesPerBook := by
  have first {c : Prop} [Decidable c] {o : Outcome} {x : Option Outcome} : (if c then some o else x) = none ↔ ¬ c ∧ x = none := by
    split <;> simp [*]
  simp only [Library.fileCheck, first] at h
  obtain ⟨-, -, hu, hc, -, hm, -⟩ := h
  rw [not_or, not_not, not_le] at hm
  refine ⟨?_, hm⟩
  cases hb : (l.book b).state with
  | unassigned => exact absurd hb hu
  | opened => rfl
  | closed => exact absurd hb hc

theorem Library.Fine.accepts (h : l.Fine) {e : Env} {r : RequestRecord} {b : Book} (hfree : l.entry r.tag = none) (hcheck : l.fileCheck e r b = none) :
    (l.takeFile e r b).Fine := by
  obtain ⟨hstate, hframe, htop⟩ := Library.fileCheck_none hcheck
  have hkey (u : Tag) : (l.takeFile e r b).fileKey u = if r.tag = u then some (b, (l.book b).intake, false) else l.fileKey u := by
    show (l.setEntry r.tag _).fileKey u = _
    rw [Library.fileKey_setEntry, ← hframe]
    rfl
  have hnone : l.fileKey r.tag = none := by rw [Library.fileKey_eq, hfree]; rfl
  have hbook (k : Book) : (l.takeFile e r b).book k = if b = k then { l.book b with intake := (l.book b).intake + 1 } else l.book k :=
    Library.setBook_book ..
  have hlive := Library.liveFiles_join (m := l.takeFile e r b) hnone ((hkey r.tag).trans (if_pos rfl)) fun u hu => (hkey u).trans (if_neg (Ne.symm hu))
  have hentry (u : Tag) : (l.takeFile e r b).entry u = if r.tag = u then some (newEntry r (.file (l.newFiling e r b))) else l.entry u :=
    Library.setEntry_entry ..
  constructor
  · constructor
    · intro k; rw [hbook]; have := h.twin k; split <;> grind
    · intro k; rw [hbook]; have := h.filing k; split <;> grind
    · intro k; rw [hbook]; have := h.top k; split <;> grind
    · intro k; rw [hbook]; have := h.alone k; split <;> grind
    · intro k; rw [hbook]; have := h.unassigned k; split <;> grind
  · constructor
    · intro d v t k f hv hc
      have hk := h.writes d v t k f hv hc
      rw [hkey, if_neg]
      · exact hk
      · rintro rfl; rw [hnone] at hk; cases hk
    · exact h.single
  · constructor
    · intro t k f w; rw [hkey, hbook]; have := h.frames t k f w; have := h.filing b; (repeat' split) <;> grind
    · intro t u k f w v; rw [hkey, hkey]
      have := h.distinct t u k f w v; have h1 := h.frames t k f w; have h2 := h.frames u k f v
      (repeat' split) <;> grind
  · intro t x
    rw [hentry]
    split
    next ht => rintro ⟨⟩; exact ht
    next => exact h.tags t x
  · obtain ⟨hn, hr⟩ := h.ended
    refine ⟨hn, fun p hp => ?_⟩
    obtain ⟨x, hx, hx'⟩ := hr p hp
    rw [hentry, if_neg]
    · exact ⟨x, hx, hx'⟩
    · intro ht; rw [← ht, hfree] at hx; cases hx
  · intro k
    rw [hlive, hbook]
    have := h.live k
    split <;> grind

end Sys2Proof.Machine
end

section
-- One declaration after the other: the stacks of the threads that wait for each other count against the check's memory limit.
set_option Elab.async false
namespace Sys2Proof.Machine

variable {l m : Library}

/-! ## The end of a FILE -/

theorem Library.entry_liveness {t : Tag} {k : Book} {f : Nat} {w : Bool} (h : l.fileKey t = some (k, f, w)) :
    ∃ x g, l.entry t = some x ∧ x.ended = none ∧ x.job = .file g ∧ g.book = k ∧ g.frame = f ∧ (g.phase == .writing) = w := by
  obtain ⟨x, g, hg, h1, h2, h3⟩ := Library.fileKey_eq_some.mp h
  obtain ⟨hx, hl, hj⟩ := Library.fileOf_some hg
  exact ⟨x, g, hx, Entry.live_iff.mp hl, hj, h1, h2, h3⟩

/-- R44: what the end of a FILE leaves of the books, the FILEs, the drives and the responses. -/
structure Library.FileEnds (l m : Library) (t : Tag) : Prop where
  book : ∀ k, m.book k = l.book k
  files : ∀ u, m.fileKey u = if t = u then none else l.fileKey u
  write : ∀ d v u k f, (m.drive d).service = some v → v.command = .primaryWrite u k f →
    ∃ v', (l.drive d).service = some v' ∧ v'.command = .primaryWrite u k f
  tags : l.TagsSound → m.TagsSound
  ended : l.TagsSound → l.EndedSound → m.EndedSound

/-- A FILE has no windows, so that its end touches no drive. -/
theorem endRequest_of_file {t : Tag} {x : Entry} {g : Filing} (hx : l.entry t = some x) (hj : x.job = .file g) (o : Outcome) (moved discard : Nat) :
    l.endRequest t o moved discard = (l.withdrawAll (ItemKind.ofTag t)).closeEntry t (x.end_ o moved discard) o := by
  have hw : x.windows = [] := by unfold Entry.windows; rw [hj]; split <;> rfl
  unfold Library.endRequest
  rw [hx]
  dsimp only
  rw [hw]
  rfl

theorem fileEnds_endRequest {t : Tag} {x : Entry} {g : Filing} (hx : l.entry t = some x) (hl : x.ended = none) (hj : x.job = .file g)
    (o : Outcome) (moved discard : Nat) : l.FileEnds (l.endRequest t o moved discard) t := by
  rw [endRequest_of_file hx hj]
  have hm : (l.withdrawAll (ItemKind.ofTag t)).entry t = some x := hx
  have hc := (calm_withdrawAll l (ItemKind.ofTag t)).toFilesCalm
  exact
    { book := fun k => rfl
      files := fun u => by
        rw [Library.fileKey_eq, Library.entry_closeEntry, Library.fileKey_eq]
        split
        next hu => rw [Option.bind_some, Entry.end_fileKey]
        next => rfl
      write := fun d v u k f hv hc => ⟨v, hv, hc⟩
      tags := fun h => tagsSound_closeEntry _ hm o moved discard (hc.tags h)
      ended := fun h he => endedSound_closeEntry _ hm hl o moved discard (hc.tags h) (hc.ended h he) }

/-- R83, R85, R86: the frame at the filing mark is filed or spent, and its FILE ends. -/
theorem Library.Fine.advances {n n' : Library} (h : l.Fine) {t : Tag} {b : Book} {f : Nat} (hfile : l.fileKey t = some (b, f, true))
    (hidle : ∀ d v k g, (l.drive d).service = some v → v.command ≠ .primaryWrite t k g)
    (hn : n = l.raiseFiling b) (hcalm : n.FilesCalm n') (hend : n'.FileEnds m t) : m.Fine := by
  obtain ⟨hlow, hhigh, hat⟩ := h.frames t b f true hfile
  have hf := hat rfl
  have hbook (k : Book) : n.book k = if b = k then { l.book b with
      filing := (l.book b).filing + 1
      twinMark := if (l.book b).twin.isNone then (l.book b).filing + 1 else (l.book b).twinMark } else l.book k := by
    rw [hn]; exact Library.setBook_book ..
  have hmarks : n.MarksFine := by
    constructor
    · intro k; rw [hbook]; have := h.twin k; split <;> grind
    · intro k; rw [hbook]; have := h.filing k; split <;> grind
    · intro k; rw [hbook]; have := h.top k; split <;> grind
    · intro k; rw [hbook]; have := h.alone k; split <;> grind
    · intro k; rw [hbook]; have := h.unassigned k; split <;> grind
  have hkey (u : Tag) : m.fileKey u = if t = u then none else l.fileKey u := by
    rw [hend.files, hcalm.files, hn]; rfl
  have hwrite (d : Drive) (v : InService) (u : Tag) (k : Book) (g : Nat) (hv : (m.drive d).service = some v) (hc : v.command = .primaryWrite u k g) :
      ∃ v', (l.drive d).service = some v' ∧ v'.command = .primaryWrite u k g := by
    obtain ⟨v1, hv1, hc1⟩ := hend.write d v u k g hv hc
    obtain ⟨v2, hv2, hc2⟩ := hcalm.write d v1 u k g hv1 hc1
    rw [hn] at hv2
    exact ⟨v2, hv2, hc2⟩
  have hfilings (k : Book) : (m.book k).filing = if b = k then (l.book b).filing + 1 else (l.book k).filing := by
    rw [hend.book, hcalm.filing, hbook]; split <;> rfl
  have hintakes (k : Book) : (m.book k).intake = (l.book k).intake := by
    rw [hend.book, hcalm.intake, hbook]
    split
    next hk => rw [hk]
    next => rfl
  have hlive := Library.liveFiles_join (l := m) (m := l) (t := t) ((hkey t).trans (if_pos rfl)) hfile fun u hu => ((hkey u).trans (if_neg (Ne.symm hu))).symm
  have hm := hcalm.marksFine hmarks
  constructor
  · exact ⟨fun k => by rw [hend.book]; exact hm.twin k, fun k => by rw [hend.book]; exact hm.filing k, fun k => by rw [hend.book]; exact hm.top k,
      fun k => by rw [hend.book]; exact hm.alone k, fun k => by rw [hend.book]; exact hm.unassigned k⟩
  · constructor
    · intro d v u k g hv hc
      obtain ⟨v', hv', hc'⟩ := hwrite d v u k g hv hc
      rw [hkey, if_neg]
      · exact h.writes d v' u k g hv' hc'
      · rintro rfl; exact hidle d v' k g hv' hc'
    · intro d d' v v' u k g k' g' hv hv' hc hc'
      obtain ⟨x, hx, hcx⟩ := hwrite d v u k g hv hc
      obtain ⟨y, hy, hcy⟩ := hwrite d' v' u k' g' hv' hc'
      exact h.single d d' x y u k g k' g' hx hy hcx hcy
  · constructor
    · intro u k g w
      rw [hkey, hfilings, hintakes]
      have h1 := h.frames u k g w
      have h2 := h.distinct t u k g true w
      split <;> grind
    · intro u u' k g w v
      rw [hkey, hkey]
      have := h.distinct u u' k g w v
      (repeat' split) <;> grind
  · have hn0 : n.TagsSound := by rw [hn]; exact h.tags
    exact hend.tags (hcalm.tags hn0)
  · have hn0 : n.TagsSound := by rw [hn]; exact h.tags
    have hn1 : n.EndedSound := by rw [hn]; exact h.ended
    exact hend.ended (hcalm.tags hn0) (hcalm.ended hn0 hn1)
  · intro k
    rw [hfilings, hintakes, h.live k, hlive]
    split <;> grind

/-- No other drive writes the FILE of a command that has ended. -/
theorem Library.Fine.idle {s : Library} (h : s.Fine) (hcalm : s.FilesCalm l) {d : Drive} {v : InService} {t : Tag} {b : Book} {f : Nat}
    (hv : (s.drive d).service = some v) (hc : v.command = .primaryWrite t b f) (hd : (l.drive d).service = none) :
    ∀ d' v' k g, (l.drive d').service = some v' → v'.command ≠ .primaryWrite t k g := fun d' v' k g hv' hc' => by
  obtain ⟨u, hu, hcu⟩ := hcalm.write d' v' t k g hv' hc'
  have hdd := h.single d d' v u t b f k g hv hu hc hcu
  subst hdd
  rw [hd] at hv'
  cases hv'

theorem Library.Fine.filed {s : Library} (h : s.Fine) (hcalm : s.Calm l) {e : Env} {d : Drive} {v : InService} {t : Tag} {b : Book} {f : Nat} {x : Entry} {g : Filing}
    (hv : (s.drive d).service = some v) (hc : v.command = .primaryWrite t b f) (hg : s.fileOf t = some (x, g)) (hd : (l.drive d).service = none) :
    (l.filed e t g).Fine ∧ ∀ k, ((l.filed e t g).book k).filing = if b = k then (s.book b).filing + 1 else (s.book k).filing := by
  have hkey := h.writes d v t b f hv hc
  have hgkey := Library.fileKey_of_fileOf hg
  rw [hkey] at hgkey
  obtain ⟨rfl, -⟩ : b = g.book ∧ _ := by
    obtain ⟨h1, h2⟩ := Prod.mk.inj (Option.some.inj hgkey); exact ⟨h1, h2⟩
  have hl := hcalm.toFilesCalm.fine h
  have hkl : l.fileKey t = some (g.book, f, true) := by rw [hcalm.files]; exact hkey
  have hkeep := (calm_keepFiled e (l.raiseFiling g.book) g.book g.frame g.received).toFilesCalm
  obtain ⟨y, g', hy, hyl, hyj, -⟩ := Library.entry_liveness (l := (l.raiseFiling g.book).keepFiled e g.book g.frame g.received)
    ((hkeep.files t).trans (show (l.raiseFiling g.book).fileKey t = _ from hkl))
  have hend := fileEnds_endRequest hy hyl hyj .done g.len 0
  refine ⟨hl.advances hkl (h.idle hcalm.toFilesCalm hv hc hd) rfl hkeep hend, fun k => ?_⟩
  rw [show (l.filed e t g).book k = _ from hend.book k, hkeep.filing, show (l.raiseFiling g.book).book k = _ from Library.setBook_book ..]
  split
  next => exact congrArg (· + 1) (hcalm.filing g.book)
  next => exact hcalm.toFilesCalm.filing k

theorem Library.Fine.spent {s : Library} (h : s.Fine) (hcalm : s.Calm l) {e : Env} {d d' : Drive} {v : InService} {t : Tag} {b : Book} {f : Nat} {x : Entry} {g : Filing}
    {side : Side} {count : Bool} (hv : (s.drive d).service = some v) (hc : v.command = .primaryWrite t b f) (hg : s.fileOf t = some (x, g))
    (hd : (l.drive d).service = none) :
    (l.spent e t g side d' count).Fine
      ∧ ∀ k, ((l.spent e t g side d' count).book k).filing = if b = k then (s.book b).filing + 1 else (s.book k).filing := by
  have hkey := h.writes d v t b f hv hc
  have hgkey := Library.fileKey_of_fileOf hg
  rw [hkey] at hgkey
  obtain ⟨rfl, -⟩ : b = g.book ∧ _ := by
    obtain ⟨h1, h2⟩ := Prod.mk.inj (Option.some.inj hgkey); exact ⟨h1, h2⟩
  have hl := hcalm.toFilesCalm.fine h
  have hkl : l.fileKey t = some (g.book, f, true) := by rw [hcalm.files]; exact hkey
  have hkeep := (calm_countSpent e (l.raiseFiling g.book) t g side d' count).toFilesCalm
  obtain ⟨y, g', hy, hyl, hyj, -⟩ := Library.entry_liveness (l := (l.raiseFiling g.book).countSpent e t g side d' count)
    ((hkeep.files t).trans (show (l.raiseFiling g.book).fileKey t = _ from hkl))
  have hend := fileEnds_endRequest hy hyl hyj .fileFailed 0 0
  rw [Library.spent_eq]
  refine ⟨hl.advances hkl (h.idle hcalm.toFilesCalm hv hc hd) rfl hkeep hend, fun k => ?_⟩
  rw [hend.book k, hkeep.filing, show (l.raiseFiling g.book).book k = _ from Library.setBook_book ..]
  split
  next => exact congrArg (· + 1) (hcalm.filing g.book)
  next => exact hcalm.toFilesCalm.filing k

/-! ## A FILE is issued -/

/-- R82: a FILE at the filing mark enters WRITING with its drive's command. -/
theorem Library.Fine.issues (h : l.Fine) {e : Env} {d : Drive} {s : Side} {i : Item} {t : Tag} {x : Entry} {g : Filing} {o : Output}
    (hg : l.fileOf t = some (x, g)) (hphase : g.phase ≠ .writing) (hframe : g.frame = (l.book g.book).filing) :
    (((l.withdraw s i.kind).setEntry t (some { x with job := .file { g with phase := .writing } })).startCommand e d s i (.primaryWrite t g.book g.frame) o).Fine := by
  obtain ⟨hx, hl, hj⟩ := Library.fileOf_some hg
  have hlive := Entry.live_iff.mp hl
  have hgkey := Library.fileKey_of_fileOf hg
  rw [show (g.phase == .writing) = false from by cases hp : g.phase <;> first | rfl | exact absurd hp hphase] at hgkey
  have hkey (u : Tag) : (((l.withdraw s i.kind).setEntry t (some { x with job := .file { g with phase := .writing } })).startCommand e d s i
      (.primaryWrite t g.book g.frame) o).fileKey u = if t = u then some (g.book, g.frame, true) else l.fileKey u := by
    show ((l.withdraw s i.kind).setEntry t _).fileKey u = _
    rw [Library.fileKey_setEntry, Option.bind_some]
    refine congrArg (if t = u then · else _) ?_
    simp [Entry.fileKey, Entry.live, hlive]
  have hdrive (d' : Drive) : ((((l.withdraw s i.kind).setEntry t (some { x with job := .file { g with phase := .writing } })).startCommand e d s i
      (.primaryWrite t g.book g.frame) o).drive d').service = if d = d' then some ⟨i, s, .primaryWrite t g.book g.frame, e.now⟩ else (l.drive d').service := by
    show ((Library.setDrive _ d _).drive d').service = _
    rw [Library.setDrive_drive]
    split <;> rfl
  have hbook (k : Book) : (((l.withdraw s i.kind).setEntry t (some { x with job := .file { g with phase := .writing } })).startCommand e d s i
      (.primaryWrite t g.book g.frame) o).book k = l.book k := rfl
  have hentry (u : Tag) : (((l.withdraw s i.kind).setEntry t (some { x with job := .file { g with phase := .writing } })).startCommand e d s i
      (.primaryWrite t g.book g.frame) o).entry u = if t = u then some { x with job := .file { g with phase := .writing } } else l.entry u :=
    Library.setEntry_entry ..
  have hresponses : (((l.withdraw s i.kind).setEntry t (some { x with job := .file { g with phase := .writing } })).startCommand e d s i
      (.primaryWrite t g.book g.frame) o).front.responses = l.front.responses := rfl
  have hendings : (((l.withdraw s i.kind).setEntry t (some { x with job := .file { g with phase := .writing } })).startCommand e d s i
      (.primaryWrite t g.book g.frame) o).front.ending = l.front.ending := rfl
  generalize (((l.withdraw s i.kind).setEntry t (some { x with job := .file { g with phase := .writing } })).startCommand e d s i
      (.primaryWrite t g.book g.frame) o) = m at *
  have hno (d' : Drive) (v : InService) (k : Book) (f : Nat) (hv : (l.drive d').service = some v) (hc : v.command = .primaryWrite t k f) : False := by
    have := h.writes d' v t k f hv hc
    rw [hgkey] at this
    cases this
  constructor
  · exact ⟨fun k => by rw [hbook]; exact h.twin k, fun k => by rw [hbook]; exact h.filing k, fun k => by rw [hbook]; exact h.top k,
      fun k => by rw [hbook]; exact h.alone k, fun k => by rw [hbook]; exact h.unassigned k⟩
  · constructor
    · intro d' v u k f hv hc
      rw [hdrive] at hv
      rw [hkey]
      split at hv
      next =>
        cases hv
        cases hc
        rw [if_pos rfl]
      next =>
        rw [if_neg]
        · exact h.writes d' v u k f hv hc
        · rintro rfl; exact hno d' v k f hv hc
    · intro d1 d2 v1 v2 u k f k' f' hv1 hv2 hc1 hc2
      rw [hdrive] at hv1 hv2
      split at hv1 <;> split at hv2
      next h1 h2 => rw [← h1, ← h2]
      next h1 h2 => cases hv1; cases hc1; exact (hno d2 v2 k' f' hv2 hc2).elim
      next h1 h2 => cases hv2; cases hc2; exact (hno d1 v1 k f hv1 hc1).elim
      next h1 h2 => exact h.single d1 d2 v1 v2 u k f k' f' hv1 hv2 hc1 hc2
  · constructor
    · intro u k f w
      rw [hkey, hbook]
      have h1 := h.frames u k f w
      have h2 := h.frames t _ _ _ hgkey
      split <;> grind
    · intro u u' k f w v
      rw [hkey, hkey]
      have h1 := h.distinct u u' k f w v
      have h2 := h.distinct t u' k f false v
      have h3 := h.distinct u t k f w false
      (repeat' split) <;> grind
  · intro u y
    rw [hentry]
    split
    next hu => rintro ⟨⟩; exact hu ▸ h.tags t x hx
    next => exact h.tags u y
  · obtain ⟨hn, hr⟩ := h.ended
    unfold Library.EndedSound
    rw [hresponses, hendings]
    refine ⟨hn, fun p hp => ?_⟩
    obtain ⟨y, hy, hy'⟩ := hr p hp
    rw [hentry, if_neg]
    · exact ⟨y, hy, hy'⟩
    · intro ht
      rw [← ht, hx] at hy
      cases hy
      exact hy' hlive
  · intro k
    have hsame : m.liveFiles k = l.liveFiles k := by
      rw [Library.liveFiles_eq, Library.liveFiles_eq]
      congr 2
      funext u
      simp only [Library.inBook, hkey]
      split
      next hu => rw [← hu, hgkey]; rfl
      next => rfl
    rw [hbook, hsame]
    exact h.live k

theorem Library.firstServable_some {s : Side} {i : Item} (h : l.firstServable s = some i) : l.canServe s i = true := List.find?_some h

theorem fine_issue (e : Env) (h : l.Fine) {d : Drive} {s : Side} {i : Item} (hi : l.canServe s i = true) : (l.issue e d s i).2.Fine := by
  rcases issue_cases e l d s i with hc | ⟨t, x, g, hk, hg, -, heq⟩
  · exact hc.toFilesCalm.fine h
  · rw [heq]
    unfold Library.canServe at hi
    rw [hk] at hi
    simp only [hg, Option.any_some, Bool.and_eq_true, beq_iff_eq] at hi
    exact h.issues hg (by rw [hi.1]; nofun) hi.2

theorem fine_handOut (e : Env) {d : Drive} {s : Side} : ∀ (n : Nat) {l : Library}, l.Fine → (Library.handOut e d s n l).Fine
  | 0, _, h => h
  | n + 1, l, h => by
    unfold Library.handOut
    split
    next i hi =>
      have hf := fine_issue e h (d := d) (Library.firstServable_some hi)
      split
      next m hm => rw [hm] at hf; exact hf
      next m hm => rw [hm] at hf; exact fine_handOut e n hf
    next => exact h

theorem fine_serveDrive (e : Env) (h : l.Fine) (d : Drive) : (l.serveDrive e d).Fine := by
  unfold Library.serveDrive
  dsimp only
  split
  · split
    · split
      · split
        · exact (calm_sendSpinUp e l d).toFilesCalm.fine h
        · exact h
      · split
        · exact h
        · exact fine_handOut e 64 h
      · exact h
    · exact h
  · exact h

theorem fine_direct (e : Env) (h : l.Fine) : (l.direct e).Fine :=
  List.foldlRecOn (motive := Library.Fine) allDrives _
    ((((calm_decide e l).trans (calm_tryMoves e 16 _)).trans (calm_examineCursor e _)).toFilesCalm.fine h) fun _ hm d _ => fine_serveDrive e hm d

end Sys2Proof.Machine
end

section
-- One declaration after the other: the stacks of the threads that wait for each other count against the check's memory limit.
set_option Elab.async false
namespace Sys2Proof.Machine

variable {l m n : Library}

/-! ## The unwinding of FILEs

While the FILEs of a book unwind in ascending tag order, those that are still to unwind may name frames at and above the intake mark (R88). -/

/-- R88: the invariant of the FILEs and the marks while the FILEs of the books `bad` unwind. -/
structure Library.Unwinds (bad : Book → Prop) (l : Library) : Prop extends Library.MarksFine l, Library.WritesFine l where
  frames : ∀ t k f w, l.fileKey t = some (k, f, w) → (l.book k).filing ≤ f ∧ (f < (l.book k).intake ∨ bad k) ∧ (w = true → f = (l.book k).filing)
  distinct : ∀ t u k f w v, l.fileKey t = some (k, f, w) → l.fileKey u = some (k, f, v) → t = u
  tags : l.TagsSound
  ended : l.EndedSound
  live : ∀ k, (l.book k).intake = (l.book k).filing + l.liveFiles k

/-- R88: the FILE of a tag is not to unwind, or not any more. -/
def Library.Stays (l : Library) (bad : Book → Prop) (t : Tag) : Prop := ∀ k f w, l.fileKey t = some (k, f, w) → bad k → w = true

theorem Library.Fine.unwinds (h : l.Fine) (bad : Book → Prop) : l.Unwinds bad :=
  { h with frames := fun t k f w ht => ⟨(h.frames t k f w ht).1, .inl (h.frames t k f w ht).2.1, (h.frames t k f w ht).2.2⟩ }

theorem Library.liveFiles_pos {t : Tag} {k : Book} {f : Nat} {w : Bool} (h : l.fileKey t = some (k, f, w)) : 0 < l.liveFiles k := by
  rw [Library.liveFiles_eq]
  exact List.length_pos_of_mem (List.mem_filter.mpr ⟨mem_allTags t, by simp [Library.inBook, h]⟩)

theorem Library.Unwinds.fine {bad : Book → Prop} (h : l.Unwinds bad) (hs : ∀ t, l.Stays bad t) : l.Fine :=
  { h with
    frames := fun t k f w ht => by
      obtain ⟨h1, h2, h3⟩ := h.frames t k f w ht
      refine ⟨h1, ?_, h3⟩
      rcases h2 with h2 | h2
      · exact h2
      · rw [h3 (hs t k f w ht h2), h.live k]
        exact Nat.lt_add_of_pos_right (Library.liveFiles_pos ht) }

theorem Library.lowerIntake_book (b k : Book) : (n.lowerIntake b).book k =
    if b = k then { n.book b with intake := (n.book b).filing + n.liveFiles b } else n.book k := Library.setBook_book ..

/-- R88: a FILE that has not started its write ends, and the intake mark of its book counts those that are left. -/
theorem Library.Unwinds.step {bad : Book → Prop} (h : l.Unwinds bad) {t : Tag} {b : Book} {f : Nat} (hfile : l.fileKey t = some (b, f, false)) (hbad : bad b)
    (hend : l.FileEnds n t) : (n.lowerIntake b).Unwinds bad := by
  have hkey (u : Tag) : (n.lowerIntake b).fileKey u = if t = u then none else l.fileKey u := hend.files u
  have hcount (c : Book) : l.liveFiles c = n.liveFiles c + if c = b then 1 else 0 :=
    Library.liveFiles_join (l := n) (m := l) ((hend.files t).trans (if_pos rfl)) hfile (fun u hu => ((hend.files u).trans (if_neg (Ne.symm hu))).symm) c
  have hbook (k : Book) : (n.lowerIntake b).book k = if b = k then { l.book b with intake := (l.book b).filing + n.liveFiles b } else l.book k := by
    rw [Library.lowerIntake_book, hend.book, hend.book]
  have hlow := hcount b
  rw [if_pos rfl] at hlow
  have hliveb := h.live b
  constructor
  · constructor
    · intro k; rw [hbook]; have := h.twin k; split <;> grind
    · intro k; rw [hbook]; have := h.filing k; split <;> grind
    · intro k; rw [hbook]; have := h.top k; split <;> grind
    · intro k; rw [hbook]; have := h.alone k; split <;> grind
    · intro k; rw [hbook]; have := h.unassigned k; split <;> grind
  · constructor
    · intro d v u k g hv hc
      obtain ⟨v', hv', hc'⟩ := hend.write d v u k g hv hc
      have hu := h.writes d v' u k g hv' hc'
      rw [hkey, if_neg]
      · exact hu
      · rintro rfl; rw [hfile] at hu; cases hu
    · intro d d' v v' u k g k' g' hv hv' hc hc'
      obtain ⟨x, hx, hcx⟩ := hend.write d v u k g hv hc
      obtain ⟨y, hy, hcy⟩ := hend.write d' v' u k' g' hv' hc'
      exact h.single d d' x y u k g k' g' hx hy hcx hcy
  · intro u k g w
    rw [hkey, hbook]
    have := h.frames u k g w
    (repeat' split) <;> grind
  · intro u u' k g w v
    rw [hkey, hkey]
    have := h.distinct u u' k g w v
    (repeat' split) <;> grind
  · exact hend.tags h.tags
  · exact hend.ended h.tags h.ended
  · intro k
    rw [hbook, show (n.lowerIntake b).liveFiles k = n.liveFiles k from rfl]
    have := hcount k
    have := h.live k
    split <;> grind

/-- A step that unwinds the FILE of a tag where it is to unwind, and does nothing else. -/
def Library.UnwindsAt (bad : Book → Prop) (l m : Library) (t : Tag) : Prop :=
  (m = l ∧ l.Stays bad t) ∨ ∃ b f, l.fileKey t = some (b, f, false) ∧ bad b ∧ ∃ n, l.FileEnds n t ∧ m = n.lowerIntake b

theorem Library.UnwindsAt.keeps {bad : Book → Prop} {t : Tag} (h : l.UnwindsAt bad m t) (hl : l.Unwinds bad) :
    m.Unwinds bad ∧ m.Stays bad t ∧ ∀ u, l.Stays bad u → m.Stays bad u := by
  rcases h with ⟨rfl, hs⟩ | ⟨b, f, hf, hb, n, hn, rfl⟩
  · exact ⟨hl, hs, fun _ => id⟩
  · have hkey (u : Tag) : (n.lowerIntake b).fileKey u = if t = u then none else l.fileKey u := hn.files u
    refine ⟨hl.step hf hb hn, fun k g w => ?_, fun u hu k g w => ?_⟩
    · rw [hkey, if_pos rfl]; rintro ⟨⟩
    · rw [hkey]
      split
      · rintro ⟨⟩
      · exact hu k g w

/-- R88, R89: all the FILEs that are to unwind do so, one by one. -/
theorem fine_unwinding {bad : Book → Prop} {P : Library → Prop} {step : Library → Tag → Library}
    (h : ∀ l t, P l → l.Unwinds bad → l.UnwindsAt bad (step l t) t ∧ P (step l t)) (hl : l.Fine) (hp : P l) : (allTags.foldl step l).Fine := by
  have key : ∀ (xs : List Tag) (l : Library), P l → l.Unwinds bad →
      (xs.foldl step l).Unwinds bad ∧ (∀ u, u ∈ xs ∨ l.Stays bad u → (xs.foldl step l).Stays bad u) := by
    intro xs
    induction xs with
    | nil => exact fun l _ hl => ⟨hl, fun u hu => hu.resolve_left (List.not_mem_nil)⟩
    | cons t xs ih =>
      intro l hp hl
      obtain ⟨hu, hp'⟩ := h l t hp hl
      obtain ⟨hm, ht, hk⟩ := hu.keeps hl
      obtain ⟨h1, h2⟩ := ih (step l t) hp' hm
      refine ⟨h1, fun u hu => h2 u ?_⟩
      rcases hu with hu | hu
      · rcases List.mem_cons.mp hu with rfl | hu
        · exact .inr ht
        · exact .inl hu
      · exact .inr (hk u hu)
  obtain ⟨h1, h2⟩ := key allTags l hp (hl.unwinds bad)
  exact h1.fine fun u => h2 u (.inl (mem_allTags u))

theorem unwindFile_of_file {t : Tag} {x : Entry} {g : Filing} (hg : l.fileOf t = some (x, g)) (hp : g.phase ≠ .writing) (o : Outcome) :
    ∃ discard, l.unwindFile t o = l.endRequest t o 0 discard := by
  unfold Library.unwindFile
  rw [hg]
  exact ⟨_, if_neg hp⟩

theorem stays_of_writing {bad : Book → Prop} {t : Tag} {x : Entry} {g : Filing} (hg : l.fileOf t = some (x, g)) (hp : g.phase = .writing) : l.Stays bad t := by
  intro k f w ht _
  rw [Library.fileKey_of_fileOf hg] at ht
  cases ht
  exact FilePhase.beq_writing.mpr hp

theorem fileKey_waiting {t : Tag} {x : Entry} {g : Filing} (hg : l.fileOf t = some (x, g)) (hp : g.phase ≠ .writing) :
    l.fileKey t = some (g.book, g.frame, false) := by
  rw [Library.fileKey_of_fileOf hg, show (g.phase == .writing) = false from beq_eq_false_iff_ne.mpr hp]

theorem stays_of_none {bad : Book → Prop} {t : Tag} (hg : l.fileOf t = none) : l.Stays bad t := fun k f w ht => by
  rw [Library.fileKey, hg] at ht; cases ht

/-- The end of a FILE and the lowering of its book's intake mark, where the FILE has not started its write. -/
theorem unwindsAt_unwindFile {bad : Book → Prop} {t : Tag} {x : Entry} {g : Filing} (hg : l.fileOf t = some (x, g)) (hp : g.phase ≠ .writing) (hb : bad g.book)
    (o : Outcome) : l.UnwindsAt bad ((l.unwindFile t o).lowerIntake g.book) t := by
  obtain ⟨hx, hl, hj⟩ := Library.fileOf_some hg
  obtain ⟨discard, hu⟩ := unwindFile_of_file hg hp o
  exact .inr ⟨g.book, g.frame, fileKey_waiting hg hp, hb, _, fileEnds_endRequest hx (Entry.live_iff.mp hl) hj o 0 discard, by rw [hu]⟩

/-- R88: the books without an available primary side. -/
def Library.stranded (e : Env) (l : Library) (k : Book) : Bool :=
  match (l.book k).primary with
  | some s => !l.available e s
  | none => true

theorem Library.strandedBook_eq (e : Env) {t : Tag} {x : Entry} {g : Filing} (hg : l.fileOf t = some (x, g)) :
    l.strandedBook e t = if g.phase = .writing then none else if l.stranded e g.book then some g.book else none := by
  unfold Library.strandedBook Library.stranded
  rw [hg]
  dsimp only
  split
  · rfl
  · cases (l.book g.book).primary with
    | none => rfl
    | some s =>
      dsimp only
      by_cases ha : l.available e s = true <;> simp [ha]

theorem Library.strandedBook_none (e : Env) {t : Tag} (hg : l.fileOf t = none) : l.strandedBook e t = none := by
  unfold Library.strandedBook; rw [hg]

/-- R88: the end of a FILE makes no side available or unavailable. -/
theorem stranded_unwindFile (e : Env) {t : Tag} {x : Entry} {g : Filing} (hg : l.fileOf t = some (x, g)) (hp : g.phase ≠ .writing) (o : Outcome) (k : Book) :
    ((l.unwindFile t o).lowerIntake g.book).stranded e k = l.stranded e k := by
  obtain ⟨hx, hl, hj⟩ := Library.fileOf_some hg
  obtain ⟨discard, hu⟩ := unwindFile_of_file hg hp o
  have hprimary : ((l.unwindFile t o).lowerIntake g.book).book k = { l.book k with intake := (((l.unwindFile t o).lowerIntake g.book).book k).intake } := by
    rw [Library.lowerIntake_book, hu, (fileEnds_endRequest hx (Entry.live_iff.mp hl) hj o 0 discard).book, (fileEnds_endRequest hx (Entry.live_iff.mp hl) hj o 0 discard).book]
    split
    next hk => rw [hk]
    next => rfl
  unfold Library.stranded
  rw [hprimary, hu, endRequest_of_file hx hj]
  rfl

theorem fine_unwindStranded (e : Env) (h : l.Fine) : (l.unwindStranded e).Fine := by
  refine fine_unwinding (bad := fun k => l.stranded e k = true) (P := fun m => ∀ k, m.stranded e k = l.stranded e k) (fun m t hp _ => ?_) h fun _ => rfl
  cases hg : m.fileOf t with
  | none => rw [Library.strandedBook_none e hg]; exact ⟨.inl ⟨rfl, stays_of_none hg⟩, hp⟩
  | some p =>
    obtain ⟨x, g⟩ := p
    rw [Library.strandedBook_eq e hg]
    by_cases hw : g.phase = .writing
    · rw [if_pos hw]
      exact ⟨.inl ⟨rfl, stays_of_writing hg hw⟩, hp⟩
    · rw [if_neg hw, hp]
      by_cases hb : l.stranded e g.book = true
      · rw [if_pos hb]
        exact ⟨unwindsAt_unwindFile hg hw hb _, fun k => (stranded_unwindFile e hg hw _ k).trans (hp k)⟩
      · rw [if_neg hb]
        refine ⟨.inl ⟨rfl, fun k f w ht hk => ?_⟩, hp⟩
        rw [fileKey_waiting hg hw] at ht
        cases ht
        exact absurd hk hb

theorem Library.lowerIntake_self {b : Book} (h : (l.book b).intake = (l.book b).filing + l.liveFiles b) : l.lowerIntake b = l := by
  have hb : ({ l.book b with intake := (l.book b).filing + l.liveFiles b } : BookEntry) = l.book b := by rw [← h]
  unfold Library.lowerIntake Library.setBook
  dsimp only
  rw [hb]
  exact congrArg (fun v => { l with books := v }) (put_look_self ..)

theorem fine_unwindAll (h : l.Fine) : l.unwindAll.Fine := by
  refine fine_unwinding (bad := fun _ => True) (P := fun _ => True) (fun m t _ hm => ⟨?_, trivial⟩) h trivial
  cases hg : m.fileOf t with
  | none => exact .inl ⟨rfl, stays_of_none hg⟩
  | some p =>
    obtain ⟨x, g⟩ := p
    by_cases hw : g.phase = .writing
    · have hu : m.unwindFile t .powerHold = m := by unfold Library.unwindFile; rw [hg]; exact if_pos hw
      dsimp only
      rw [hu, Library.lowerIntake_self (hm.live g.book)]
      exact .inl ⟨rfl, stays_of_writing hg hw⟩
    · exact unwindsAt_unwindFile hg hw trivial _

end Sys2Proof.Machine
end

section
-- One declaration after the other: the stacks of the threads that wait for each other count against the check's memory limit.
set_option Elab.async false
namespace Sys2Proof.Machine

variable {l m n : Library}

/-! ## The reactions keep the FILEs and the marks -/

theorem fine_work (e : Env) (h : l.Fine) : (l.work e).Fine := by
  unfold Library.work
  dsimp only
  have h1 := (Library.Calm.foldl (fun l t => calm_turnWindows e l t) allTags l).toFilesCalm.fine h
  have h2 := fine_unwindStranded e h1
  have h3 := (Library.Calm.foldl (fun l t => calm_resolvePending e l t) allTags _).toFilesCalm.fine h2
  exact (filesCalm_rescueReaction e _).fine ((calm_stage e _).toFilesCalm.fine h3)

theorem fine_passes (e : Env) : ∀ (n : Nat) (was : Library) {l : Library}, l.Fine → (Library.passes e n was l).Fine
  | 0, _, _, h => h
  | n + 1, was, l, h => by
    unfold Library.passes Library.pass
    dsimp only
    exact fine_passes e n _ (fine_direct e ((calm_registerEvents e _ was).toFilesCalm.fine (fine_work e h)))

theorem fine_settle (e : Env) (h : l.Fine) (was : Library) : (l.settle e was).Fine :=
  (calm_finish _).toFilesCalm.fine ((calm_orderReservations _ was).toFilesCalm.fine (fine_passes e 6 was h))

/-! ## The filing marks through the reactions, which no reaction moves -/

theorem filing_settle (e : Env) (l was : Library) (k : Book) : ((l.settle e was).book k).filing = (l.book k).filing := (settle_settled e l was).filing k

theorem State.EndsAs.fine {s t : State} (h : s.EndsAs t m) (hm : m.Fine) : t.lib.Fine ∧ ∀ k, (t.lib.book k).filing = (m.book k).filing := by
  rcases h with ⟨rfl, -⟩ | h | ⟨was, h⟩
  · exact ⟨hm, fun _ => rfl⟩
  · rw [h]; exact ⟨(calm_finish m).toFilesCalm.fine hm, (calm_finish m).toFilesCalm.filing⟩
  · rw [h]; exact ⟨fine_settle _ hm was, filing_settle _ _ _⟩

/-! ## The book table's writes -/

/-- A change of the book table that leaves the filing and the intake marks. -/
theorem Library.Fine.rebook (h : l.Fine) (front : m.front = l.front) (drives : m.drives = l.drives) (filing : ∀ k, (m.book k).filing = (l.book k).filing)
    (intake : ∀ k, (m.book k).intake = (l.book k).intake) (marks : m.MarksFine) : m.Fine := by
  have hentry (t : Tag) : m.entry t = l.entry t := by unfold Library.entry; rw [front]
  have hkey (t : Tag) : m.fileKey t = l.fileKey t := Library.fileKey_congr (hentry t)
  have hdrive (d : Drive) : m.drive d = l.drive d := by unfold Library.drive; rw [drives]
  exact
    { marks with
      writes := fun d v t k f => by rw [hdrive, hkey]; exact h.writes d v t k f
      single := fun d d' v v' t k f k' f' => by rw [hdrive, hdrive]; exact h.single d d' v v' t k f k' f'
      frames := fun t k f w => by rw [hkey, filing, intake]; exact h.frames t k f w
      distinct := fun t u k f w v => by rw [hkey, hkey]; exact h.distinct t u k f w v
      tags := fun t x => by rw [hentry]; exact h.tags t x
      ended := by
        have he := h.ended
        unfold Library.EndedSound at he ⊢
        rw [front]
        simp only [hentry]
        exact he
      live := fun k => by rw [filing, intake, Library.liveFiles_congr hkey]; exact h.live k }

/-- A change of one book's entry, after one of the sides. -/
theorem Library.Fine.setsBook (h : l.Fine) {b : Book} {k : BookEntry} (front : n.front = l.front) (drives : n.drives = l.drives) (books : ∀ c, n.book c = l.book c)
    (filing : k.filing = (l.book b).filing) (intake : k.intake = (l.book b).intake) (twin : k.twinMark ≤ k.filing) (alone : k.twin = none → k.twinMark = k.filing)
    (unassigned : k.state = .unassigned → k.intake = 0) : (n.setBook b k).Fine := by
  have hbook (c : Book) : (n.setBook b k).book c = if b = c then k else l.book c := by rw [Library.setBook_book, books]
  refine h.rebook (m := n.setBook b k) front drives (fun c => ?_) (fun c => ?_) ⟨fun c => ?_, fun c => ?_, fun c => ?_, fun c => ?_, fun c => ?_⟩ <;> rw [hbook]
  · split
    next hc => rw [← hc, filing]
    next => rfl
  · split
    next hc => rw [← hc, intake]
    next => rfl
  · have := h.twin c; split <;> grind
  · have := h.filing c; split <;> grind
  · have := h.top c; split <;> grind
  · have := h.alone c; split <;> grind
  · have := h.unassigned c; split <;> grind

theorem Library.takeSides_front (l : Library) (b : Book) (p : Side) (q : Option Side) :
    (l.takeSides b p q).front = l.front ∧ (l.takeSides b p q).drives = l.drives := by
  cases q <;> exact ⟨rfl, rfl⟩

/-- R6: an UNASSIGNED book has no FILE, so that its marks are 0 already. -/
theorem fine_assignSides (e : Env) (h : l.Fine) {b : Book} (p : Side) (q : Option Side) (hb : (l.book b).state = .unassigned) :
    (l.assignSides e b p q).Fine ∧ (l.assignSides e b p q).front = l.front ∧ ∀ k, ((l.assignSides e b p q).book k).filing = (l.book k).filing := by
  have hintake := h.unassigned b hb
  have hfiling : (l.book b).filing = 0 := Nat.le_zero.mp (hintake ▸ h.filing b)
  obtain ⟨hf, hd⟩ := l.takeSides_front b p q
  have hset := h.setsBook (n := l.takeSides b p q) (b := b) (k := .fresh p q) hf hd (fun c => Library.takeSides_book l b c p q) hfiling.symm hintake.symm
    (Nat.le_refl 0) (fun _ => rfl) nofun
  have hcalm := (calm_setTwin ((l.takeSides b p q).setBook b (.fresh p q)) b .none).trans (calm_examine e _ b)
  rw [Library.assignSides_eq]
  refine ⟨hcalm.toFilesCalm.fine hset, (front_examine e _ b).trans hf, fun k => ?_⟩
  rw [hcalm.toFilesCalm.filing, Library.setBook_book, Library.takeSides_book]
  split
  next hk => rw [← hk]; exact hfiling.symm
  next => rfl

theorem fine_addTwin (e : Env) (h : l.Fine) {b : Book} {t : Nat} (ha : l.addTwin e b t = some m) :
    m.Fine ∧ m.front = l.front ∧ ∀ k, (m.book k).filing = (l.book k).filing := by
  obtain ⟨s, -, hadd, rfl⟩ := Library.addTwin_eq_some e l ha
  have hstate : (l.book b).state ≠ .unassigned := by
    unfold Library.twinAddable at hadd
    simp only [Bool.and_eq_true, bne_iff_ne] at hadd
    exact hadd.1.1.1.1.1
  have hset := h.setsBook (n := l.takeSide s (.twin b)) (b := b) (k := { l.book b with twin := some s, twinMark := 0 }) rfl rfl (fun _ => rfl) rfl rfl
    (Nat.zero_le _) nofun fun hu => absurd hu hstate
  have hcalm := (calm_setTwin ((l.takeSide s (.twin b)).setBook b { l.book b with twin := some s, twinMark := 0 }) b .none).trans (calm_examine e _ b)
  refine ⟨hcalm.toFilesCalm.fine hset, front_examine e _ b, fun k => ?_⟩
  rw [hcalm.toFilesCalm.filing, Library.setBook_book]
  split
  next hk => rw [← hk]
  next => rfl

theorem fine_closeBook (h : l.Fine) {b : Book} (hc : l.closeBook b = some m) : m.Fine ∧ m.front = l.front ∧ ∀ k, (m.book k).filing = (l.book k).filing := by
  unfold Library.closeBook at hc
  dsimp only at hc
  split at hc
  · cases hc
  · cases hc
    refine ⟨h.setsBook (n := l) (b := b) rfl rfl (fun _ => rfl) rfl rfl (h.twin b) (h.alone b) nofun, rfl, fun k => ?_⟩
    rw [Library.setBook_book]
    split
    next hk => rw [← hk]
    next => rfl
  · cases hc; exact ⟨h, rfl, fun _ => rfl⟩

theorem kept_untwinWindows (e : Env) (l : Library) (t : Tag) (b : Book) : Kept e l (l.untwinWindows t b) := by
  refine kept_eachWindow e l t _ fun l w => ?_
  split
  · split
    · exact (kept_withdraw e l _ _).trans (kept_holdFallback e _ t w)
    · exact .refl e l
  · exact .refl e l

/-- The request of a tag is no FETCH and no FILE. -/
theorem Kept.entry_same {e : Env} {a b : Library} (h : Kept e a b) {t : Tag} {x : Entry} (hx : a.entry t = some x) (hf : ∀ g, x.job ≠ .fetch g)
    (hg : ∀ g, x.job ≠ .file g) : b.entry t = some x := by
  obtain ⟨y, hy, hk⟩ := h.entry t x hx
  rw [hy, hk.other hf hg]

theorem front_leaveHold (l : Library) (gone : HoldEntry → Bool) : (l.leaveHold gone).front = l.front := by
  unfold Library.leaveHold Library.testEscalation
  dsimp only
  split <;> rfl

/-- R8: a twin removal keeps every request but FETCHes. -/
theorem afterRemoval_entry (e : Env) (l : Library) (b : Book) (s : Side) {t : Tag} {x : Entry} (hx : l.entry t = some x) (hf : ∀ g, x.job ≠ .fetch g)
    (hg : ∀ g, x.job ≠ .file g) : (l.afterRemoval e b s).entry t = some x := by
  unfold Library.afterRemoval
  dsimp only
  refine (Kept.foldl (fun l t => kept_untwinWindows e l t b) allTags _).entry_same (t := t) ?_ hf hg
  unfold Library.entry
  rw [front_examine]
  split <;> exact (congrArg (fun v : Front => look v.table t) (front_leaveHold _ _)).trans hx

theorem fine_removeTwin (e : Env) (h : l.Fine) {b : Book} (hr : l.removeTwin e b = some m) :
    m.Fine ∧ (∀ k, (m.book k).filing = (l.book k).filing)
      ∧ ∀ t x, l.entry t = some x → (∀ g, x.job ≠ .fetch g) → (∀ g, x.job ≠ .file g) → m.entry t = some x := by
  obtain ⟨s, hs, hm⟩ := Library.removeTwin_eq_some e l hr
  have hset := h.setsBook (n := l.setRole s (.retired b)) (b := b) (k := { l.book b with twin := none, twinMark := (l.book b).filing }) rfl rfl (fun _ => rfl) rfl rfl
    (Nat.le_refl _) (fun _ => rfl) (h.unassigned b)
  have hcomes := comes_afterRemoval e ((l.setRole s (.retired b)).setBook b { l.book b with twin := none, twinMark := (l.book b).filing }) b s
  have hsame (t : Tag) : ((l.setRole s (.retired b)).setBook b { l.book b with twin := none, twinMark := (l.book b).filing }).entry t = l.entry t := rfl
  rw [hm]
  refine ⟨hcomes.toFilesCalm.fine hset, fun k => ?_, fun t x hx hf hg => afterRemoval_entry e _ b s ((hsame t).trans hx) hf hg⟩
  rw [hcomes.toFilesCalm.filing, Library.setBook_book]
  split
  next hk => rw [← hk]
  next => rfl

end Sys2Proof.Machine
end

section
-- One declaration after the other: the stacks of the threads that wait for each other count against the check's memory limit.
set_option Elab.async false
namespace Sys2Proof.Machine

variable {l m n : Library}

/-! ## The directories follow the filing marks -/

theorem Env.Filled.same {e e' : Env} (h : e.Filled l) (he : e.SameBlank e') (hf : ∀ k, (m.book k).filing = (l.book k).filing) : e'.Filled m := fun k f hk => by
  rw [he k f, hf]; exact h k f hk

/-- R83, R85: the frame at the filing mark has its entry, and the mark passes it. -/
theorem Env.Filled.advances {e : Env} (h : e.Filled l) {b : Book} {f : Nat} {x : Frame} (hf : f = (l.book b).filing) (htop : f < Config.framesPerBook)
    (hx : x ≠ .blank) (hm : ∀ k, (m.book k).filing = if b = k then (l.book b).filing + 1 else (l.book k).filing) : (e.setFrame b f x).Filled m := fun k g hg => by
  rw [frame_setFrame e x htop hg, hm]
  have hk := h k g hg
  by_cases hb : b = k
  · subst hb
    rw [if_pos rfl]
    by_cases hgf : g = f
    · rw [if_pos ⟨rfl, hgf⟩, hgf, hf]
      simp [hx]
    · rw [if_neg fun hc => hgf hc.2, hk]
      omega
  · rw [if_neg hb, if_neg fun hc => hb hc.1.symm]
    exact hk

theorem Env.filedEntry_ne_blank (e : Env) (g : Filing) : e.filedEntry g ≠ .blank := fun h => by
  have hf := e.filedEntry_filed g
  rw [h] at hf
  cases hf

/-- R6: the entries of an assigned book are BLANK, and those of the others stay. -/
theorem Env.Filled.cleared {e : Env} (h : e.Filled l) {b : Book} (hb : (l.book b).filing = 0) (hm : ∀ k, (m.book k).filing = (l.book k).filing) :
    ({ e with directory := dirClear e.directory b } : Env).Filled m := fun k f hf => by
  have hk := h k f hf
  have hdiv : frameKey k f / Config.framesPerBook = k.val := by
    unfold frameKey
    simp only [Config.framesPerBook] at *
    omega
  rw [hm, ← hk]
  unfold Env.frame
  rw [dirGet_dirClear, hdiv]
  split
  next hkb =>
    obtain rfl : k = b := Fin.ext hkb
    have : (l.book k).filing ≤ f := hb ▸ Nat.zero_le f
    exact ⟨fun _ => hk.mpr this, fun _ => rfl⟩
  next => rfl

/-! ## The service writes -/

/-- What a service write leaves: the invariant, the directories in agreement, and the requests of service writes. -/
structure State.WritesFine (s u : State) : Prop where
  fine : u.lib.Fine
  filled : u.env.Filled u.lib
  entry : ∀ t x, s.lib.entry t = some x → (∀ g, x.job ≠ .fetch g) → (∀ g, x.job ≠ .file g) → u.lib.entry t = some x

theorem State.WritesFine.of_front {s u : State} (hd : s.env.Filled s.lib) (hm : u.lib.Fine ∧ u.lib.front = s.lib.front ∧ ∀ k, (u.lib.book k).filing = (s.lib.book k).filing)
    (he : s.env.SameBlank u.env) : s.WritesFine u where
  fine := hm.1
  filled := hd.same he hm.2.2
  entry t x hx _ _ := (congrArg (fun v : Front => look v.table t) hm.2.1).trans hx

theorem State.WritesFine.of_comes {s u : State} (h : s.lib.Fine) (hd : s.env.Filled s.lib) (hm : s.lib.Comes u.lib) (hf : u.lib.front = s.lib.front)
    (he : u.env.directory = s.env.directory) : s.WritesFine u :=
  .of_front hd ⟨hm.toFilesCalm.fine h, hf, hm.toFilesCalm.filing⟩ (.of_directory he)

theorem front_setRoles (r : Role) : ∀ (xs : List Side) (l : Library), (xs.foldl (fun l s => l.setRole s r) l).front = l.front
  | [], _ => rfl
  | x :: xs, l => front_setRoles r xs (l.setRole x r)

theorem front_addToPool {xs : List Nat} (h : l.addToPool xs = some m) : m.front = l.front := by
  unfold Library.addToPool at h
  split at h
  · split at h
    · cases h; exact front_setRoles _ _ l
    · cases h
  · cases h

theorem front_takeFromPool {xs : List Nat} (h : l.takeFromPool xs = some m) : m.front = l.front := by
  unfold Library.takeFromPool at h
  split at h
  · split at h
    · cases h; exact front_setRoles _ _ l
    · cases h
  · cases h

theorem front_askReturn (l : Library) (d : Drive) (r : ReturnReason) : (l.askReturn d r).front = l.front := by
  unfold Library.askReturn
  (repeat' split) <;> rfl

theorem front_askWaiting (l : Library) (d : Drive) : (l.askWaiting d).front = l.front := by
  unfold Library.askWaiting
  dsimp only
  split
  · exact front_askReturn l d _
  · rfl

theorem front_askWaitings (l : Library) : (allDrives.foldl Library.askWaiting l).front = l.front :=
  foldl_same _ Library.front front_askWaiting allDrives l

theorem front_clearPicker (l : Library) : l.clearPicker.front = l.front := by
  unfold Library.clearPicker
  split
  · dsimp only
    rw [Library.callDecision_front, front_askWaitings, front_returnHeld]
  · rfl

theorem applyWrite_fine {s u : State} {w : ServiceWrite} (h : s.lib.Fine) (hd : s.env.Filled s.lib) (hw : s.applyWrite w = some u) : s.WritesFine u := by
  have same (e : Env) (f : Fee) (m : Library) (hm : s.lib.Calm m) (hf : m.front = s.lib.front) (he : e.directory = s.env.directory) :
      s.WritesFine { s with env := e, fee := f, lib := m } := .of_comes h hd hm.comes hf he
  cases w with
  | readOnly => cases hw
  | unknown keyed => cases hw
  | dayClose day =>
    simp only [State.applyWrite] at hw
    split at hw
    · cases hw; exact same _ _ _ (calm_callPatrol s.lib) rfl rfl
    · cases hw
  | clearFaults =>
    cases hw
    exact .of_front hd ⟨h.rebook (m := { s.lib with log := ⟨none, 0, 0⟩ }) rfl rfl (fun _ => rfl) (fun _ => rfl) ⟨h.twin, h.filing, h.top, h.alone, h.unassigned⟩,
      rfl, fun _ => rfl⟩ (.of_directory rfl)
  | setMask m => cases hw; exact same _ _ _ (.refl _) rfl rfl
  | clearCauses => cases hw; exact same _ _ _ (.refl _) rfl rfl
  | pickerClear => cases hw; exact same _ _ _ (calm_clearPicker s.lib) (front_clearPicker s.lib) rfl
  | orderClose st => cases hw; exact same _ _ _ (.refl _) rfl rfl
  | schedule d => obtain rfl := Option.some.inj hw; exact same _ _ _ (.refl _) rfl rfl
  | poolAdd xs => obtain ⟨m, hm, rfl⟩ := State.withLib_eq_some hw; exact .of_comes h hd (comes_addToPool hm) (front_addToPool hm) rfl
  | poolRemove xs => obtain ⟨m, hm, rfl⟩ := State.withLib_eq_some hw; exact .of_comes h hd (comes_takeFromPool hm) (front_takeFromPool hm) rfl
  | threshold v => cases hw; exact same _ _ _ (.refl _) rfl rfl
  | assign b p t =>
    obtain ⟨x, y, -, -, ha, rfl⟩ := State.assignBook_eq_some hw
    have hb := Library.assignable_unassigned ha
    have hzero : (s.lib.book b).filing = 0 := Nat.le_zero.mp (h.unassigned b hb ▸ h.filing b)
    obtain ⟨hfine, hfront, hfiling⟩ := fine_assignSides { s.env with directory := dirClear s.env.directory b } h x y hb
    exact ⟨hfine, hd.cleared hzero hfiling, fun t z hz _ _ => (congrArg (fun v : Front => look v.table t) hfront).trans hz⟩
  | addTwin b t => obtain ⟨m, hm, rfl⟩ := State.withLib_eq_some hw; exact .of_front hd (fine_addTwin _ h hm) (.of_directory rfl)
  | removeTwin b =>
    obtain ⟨m, hm, rfl⟩ := State.withLib_eq_some hw
    obtain ⟨hfine, hfiling, hentry⟩ := fine_removeTwin _ h hm
    exact ⟨hfine, hd.same (.of_directory rfl) hfiling, hentry⟩
  | close b => obtain ⟨m, hm, rfl⟩ := State.withLib_eq_some hw; exact .of_front hd (fine_closeBook h hm) (.of_directory rfl)

end Sys2Proof.Machine
end

section
-- One declaration after the other: the stacks of the threads that wait for each other count against the check's memory limit.
set_option Elab.async false
namespace Sys2Proof.Machine

variable {l m n : Library}

/-! ## Every own effect keeps the books and the FILEs -/

/-- R28: a response that is sent leaves the responses of the others, and its entry is no FILE. -/
theorem fine_sendResponse (h : l.Fine) {r : Response} {rest : List Response} (hr : l.front.responses = r :: rest) : (l.sendResponse r rest).Fine := by
  obtain ⟨hn, he⟩ := h.ended
  rw [hr] at hn he
  obtain ⟨x, hx, hended⟩ := he r (List.mem_append_left _ List.mem_cons_self)
  have hentry (u : Tag) : (l.sendResponse r rest).entry u = if r.tag = u then none else l.entry u := Library.entry_setEntry ..
  have hnone : l.fileKey r.tag = none := by
    rw [Library.fileKey_eq, hx, Option.bind_some]
    cases ho : x.ended with
    | none => exact absurd ho hended
    | some o => simp [Entry.fileKey, Entry.live, ho]
  have hkey (u : Tag) : (l.sendResponse r rest).fileKey u = l.fileKey u := by
    rw [Library.fileKey_eq, hentry]
    split
    next hu => rw [← hu, hnone]; rfl
    next => exact (Library.fileKey_eq l u).symm
  exact
    { h.toMarksFine with
      writes := fun d v t k f => by rw [hkey]; exact h.writes d v t k f
      single := h.single
      frames := fun t k f w => by rw [hkey]; exact h.frames t k f w
      distinct := fun t u k f w v => by rw [hkey, hkey]; exact h.distinct t u k f w v
      tags := fun t y => by
        rw [hentry]
        split
        · rintro ⟨⟩
        · exact h.tags t y
      ended := by
        rw [List.cons_append, List.map_cons, List.nodup_cons] at hn
        refine ⟨hn.2, fun p hp => ?_⟩
        rw [hentry, if_neg]
        · exact he p (List.mem_cons_of_mem _ hp)
        · intro hpr
          exact hn.1 (hpr ▸ List.mem_map_of_mem hp)
      live := fun k => by rw [Library.liveFiles_congr hkey]; exact h.live k }

theorem fileKey_of_job {x : Entry} (h : ∀ g, x.job ≠ .file g) : x.fileKey = none := by
  unfold Entry.fileKey
  split
  · split
    next g hg => exact absurd hg (h g)
    next => rfl
  · rfl

theorem State.Effect.fine {s t : State} {c : Instr} (h : s.Effect t c m) (hs : s.lib.Fine) (hd : s.env.Filled s.lib) : m.Fine ∧ t.env.Filled m := by
  have hbegin : s.begin.lib.Fine := (Library.Calm.of_same : s.lib.Calm s.begin.lib).toFilesCalm.fine hs
  have hdb : s.begin.env.Filled s.begin.lib := hd
  cases h with
  | comes _ h hb => exact ⟨h.toFilesCalm.fine hs, hd.same hb h.toFilesCalm.filing⟩
  | loses l r side h hr ht hb =>
    have hc := h.toFilesCalm.trans (filesCalm_loseTarget l r side)
    exact ⟨hc.fine hs, hd.same hb hc.filing⟩
  | accepts r b l h hfree hbook hcheck he =>
    subst h
    have hl := (calm_emit s.begin.lib (.accept r.tag)).toFilesCalm
    refine ⟨(hl.fine hbegin).accepts hfree hcheck, ?_⟩
    rw [he]
    exact fun k f hk => by
      rw [show (Library.book _ k).filing = (s.lib.book k).filing from ?_]
      · exact hd k f hk
      · rw [show (Library.takeFile s.env (s.begin.lib.emit (.accept r.tag)) r b).book k = _ from Library.setBook_book ..]
        split
        next hb => rw [← hb]; rfl
        next => rfl
  | files d v tag b f x g l hrun hc hg hcalm hidle he =>
    obtain ⟨hfine, hfiling⟩ := hs.filed hcalm (e := t.env) hrun.service hc hg hidle
    obtain ⟨-, hhigh, hat⟩ := hs.frames tag b f true (hs.writes d v tag b f hrun.service hc)
    refine ⟨hfine, ?_⟩
    rw [he] at hfiling ⊢
    exact hd.advances (hat rfl) (Nat.lt_of_lt_of_le hhigh (hs.top b)) (s.env.filedEntry_ne_blank g) hfiling
  | spends d v tag b f x g l _ e count hrun hc hg hcalm hidle he hafter =>
    obtain ⟨hfine, hfiling⟩ := hs.spent hcalm (e := e) (d' := d) (side := v.side) (count := count) hrun.service hc hg hidle
    obtain ⟨-, hhigh, hat⟩ := hs.frames tag b f true (hs.writes d v tag b f hrun.service hc)
    refine ⟨hafter.toFilesCalm.fine hfine, ?_⟩
    have hsame : (s.env.setFrame b f .void).SameBlank t.env := .of_directory (by rw [he]; rfl)
    exact (hd.advances (hat rfl) (Nat.lt_of_lt_of_le hhigh (hs.top b)) (by nofun) hfiling).same hsame hafter.toFilesCalm.filing
  | holds l h he =>
    refine ⟨fine_unwindAll (h.toFilesCalm.fine hs), ?_⟩
    exact hd.same (.of_directory (by rw [he]; rfl)) fun k => ((kept_unwindAll t.env l).filing k).trans (h.toFilesCalm.filing k)
  | responds r rest x hr hx he =>
    refine ⟨fine_sendResponse hbegin hr, ?_⟩
    rw [he]; exact hd
  | writes tag key x w u hspelt haw hallow hw he =>
    obtain ⟨hfine, hfilled, hentry⟩ := applyWrite_fine hbegin hdb hw
    have hj := haw.job
    have hx := hentry tag x haw.entry (by rw [hj]; nofun) (by rw [hj]; nofun)
    have hcalm := (calm_endRequest u.lib hx haw.live (fileKey_of_job (by rw [hj]; nofun)) .done 1 0).toFilesCalm
    refine ⟨hcalm.fine hfine, ?_⟩
    rw [he]
    exact hfilled.same (.of_directory rfl) hcalm.filing

end Sys2Proof.Machine
end

section
-- One declaration after the other: the stacks of the threads that wait for each other count against the check's memory limit.
set_option Elab.async false
namespace Sys2Proof.Machine

variable {l m n : Library}

/-! ## Start-up, which finds no request -/

/-- R183: no request, no primary write and no response; the marks are in order and the directories follow them. -/
structure State.Still (s : State) : Prop where
  marks : s.lib.MarksFine
  free : ∀ t, s.lib.entry t = none
  idle : ∀ d v t k f, (s.lib.drive d).service = some v → v.command ≠ .primaryWrite t k f
  ended : s.lib.EndedSound
  filled : s.env.Filled s.lib

theorem Library.fileOf_of_free (h : ∀ t, l.entry t = none) (t : Tag) : l.fileOf t = none := by
  unfold Library.fileOf; rw [h]

theorem Library.fileKey_of_free (h : ∀ t, l.entry t = none) (t : Tag) : l.fileKey t = none := by
  rw [Library.fileKey, Library.fileOf_of_free h]; rfl

theorem Library.liveFiles_of_free (h : ∀ t, l.entry t = none) (k : Book) : l.liveFiles k = 0 := by
  rw [Library.liveFiles_eq, List.length_eq_zero_iff, List.filter_eq_nil_iff]
  intro t _
  simp [Library.inBook, Library.fileKey_of_free h]

theorem State.Still.calm {s u : State} (h : s.Still) (hc : s.lib.FilesCalm u.lib) (hf : ∀ t, u.lib.entry t = none) (he : u.env.directory = s.env.directory) :
    u.Still where
  marks := hc.marksFine h.marks
  free := hf
  idle d v t k f hv hcmd := by
    obtain ⟨v', hv', hc'⟩ := hc.write d v t k f hv hcmd
    exact h.idle d v' t k f hv' hc'
  ended := hc.ended (fun t x hx => by rw [h.free t] at hx; cases hx) h.ended
  filled := h.filled.same (.of_directory he) hc.filing

theorem State.Still.front {s u : State} (h : s.Still) (hc : s.lib.FilesCalm u.lib) (hf : u.lib.front = s.lib.front) (he : u.env.directory = s.env.directory) :
    u.Still :=
  h.calm hc (fun t => (congrArg (fun v : Front => look v.table t) hf).trans (h.free t)) he

theorem State.Still.booksSound {s : State} (h : s.Still) (hs : s.env.startUp.isSome = true) : s.BooksSound where
  marks b := ⟨h.marks.twin b, h.marks.filing b, h.marks.top b, h.marks.alone b, h.marks.unassigned b, (fun hn => by rw [hn] at hs; cases hs), h.filled b⟩
  files :=
    { tags := fun t x hx => by rw [h.free t] at hx; cases hx
      frames := fun t x g hg => by rw [Library.fileOf_of_free h.free] at hg; cases hg
      distinct := fun t u x y g g' hg => by rw [Library.fileOf_of_free h.free] at hg; cases hg
      writes := fun d v t b f hv hc => absurd hc (h.idle d v t b f hv)
      single := fun d d' v v' t b f b' f' hv _ hc _ => absurd hc (h.idle d v t b f hv)
      ended := h.ended }
  starting _ := h.free

theorem State.BooksSound.still {s : State} (h : s.BooksSound) (hs : s.env.startUp.isSome = true) : s.Still where
  marks := ⟨fun k => (h.marks k).twin, fun k => (h.marks k).filing, fun k => (h.marks k).top, fun k => (h.marks k).alone, fun k => (h.marks k).unassigned⟩
  free := h.starting hs
  idle d v t k f hv hc := by
    obtain ⟨x, g, hg, -⟩ := h.files.writes d v t k f hv hc
    rw [Library.fileOf_of_free (h.starting hs)] at hg
    cases hg
  ended := h.files.ended
  filled k := (h.marks k).directory

/-- R3: every intake mark stands at its filing mark. -/
def Library.Emptied (l : Library) : Prop := ∀ k, (l.book k).intake = (l.book k).filing

theorem Library.FilesCalm.emptied (h : l.FilesCalm m) (hl : l.Emptied) : m.Emptied := fun k => by rw [h.intake, h.filing]; exact hl k

theorem State.Still.fine {s : State} (h : s.Still) (he : s.lib.Emptied) : s.lib.Fine :=
  { h.marks with
    writes := fun d v t k f hv hc => absurd hc (h.idle d v t k f hv)
    single := fun d d' v v' t b f b' f' hv _ hc _ => absurd hc (h.idle d v t b f hv)
    frames := fun t k f w ht => by rw [Library.fileKey_of_free h.free] at ht; cases ht
    distinct := fun t u k f w v ht => by rw [Library.fileKey_of_free h.free] at ht; cases ht
    tags := fun t x hx => by rw [h.free t] at hx; cases hx
    ended := h.ended
    live := fun k => by rw [Library.liveFiles_of_free h.free]; exact he k }

theorem Library.resetIntake_book (l : Library) (k : Book) : l.resetIntake.book k = { l.book k with intake := (l.book k).filing } := look_map ..

theorem emptied_resetIntake (l : Library) : l.resetIntake.Emptied := fun k => by rw [Library.resetIntake_book]

theorem State.Still.resetsIntake {s : State} (h : s.Still) : ({ s with lib := s.lib.resetIntake } : State).Still where
  marks := by
    constructor <;> intro k <;> rw [Library.resetIntake_book]
    · exact h.marks.twin k
    · exact Nat.le_trans (h.marks.filing k) (h.marks.top k)
    · exact h.marks.alone k
    · exact fun hu => Nat.le_zero.mp (h.marks.unassigned k hu ▸ h.marks.filing k)
  free := h.free
  idle := h.idle
  ended := h.ended
  filled := h.filled.same (.of_directory rfl) fun k => by rw [Library.resetIntake_book]

theorem free_startCare (e : Env) (h : ∀ t, l.entry t = none) (t : Tag) : (l.startCare e).entry t = none := by
  have hk : Kept e l (((l.callRescue.callPatrol).rescueReaction e).examineCursor e) :=
    (((kept_callRescue e l).trans (kept_callPatrol e _)).trans (kept_rescueReaction e _)).trans (kept_examineCursor e _)
  unfold Library.startCare Library.callPlacement
  split
  · exact hk.free t (h t)
  · exact hk.free t (h t)

/-- What the changes of start-up keep, with the intake marks where they have been reset. -/
structure State.StillTo (s u : State) : Prop where
  still : s.Still → u.Still
  emptied : s.lib.Emptied → u.lib.Emptied
  startUp : u.env.startUp = s.env.startUp

theorem LastChange.still {warning : Bool} {c : State → State} (h : LastChange warning c) (s : State) : s.StillTo (c s) := by
  have of {f : Env → Library → Library} (hc : s.lib.FilesCalm (f s.env s.lib)) (hf : (f s.env s.lib).front = s.lib.front) : s.StillTo (State.onLib f s) :=
    ⟨fun hs => hs.front (u := State.onLib f s) hc hf rfl, hc.emptied, rfl⟩
  cases h with
  | compare k => exact of (comes_comparePresence s.env s.lib k).toFilesCalm (front_comparePresence s.env s.lib k)
  | intake => exact ⟨State.Still.resetsIntake, fun _ => emptied_resetIntake s.lib, rfl⟩
  | drive d => exact of (calm_resetDrive s.env s.lib d).toFilesCalm (front_resetDrive s.env s.lib d)
  | miss k => exact of (calm_missUnconfigured s.env s.lib k).toFilesCalm (front_missUnconfigured s.env s.lib k)
  | held => exact of (calm_returnHeld s.lib .startUp).toFilesCalm (front_returnHeld s.lib .startUp)
  | examine b => exact of (calm_examine s.env s.lib b).toFilesCalm (front_examine s.env s.lib b)
  | care =>
    have hc : s.lib.FilesCalm (s.lib.startCare s.env) :=
      (((calm_callRescue s.lib).trans (calm_callPatrol _)).toFilesCalm.trans (filesCalm_rescueReaction s.env _)).trans (calm_startCare s.env s.lib).toFilesCalm
    exact ⟨fun hs => hs.calm (u := State.onLib (fun e l => l.startCare e) s) hc (free_startCare s.env hs.free) rfl, hc.emptied, rfl⟩
  | hold =>
    dsimp only
    split
    · have hc := (calm_fault s.env s.lib (FaultRecord.of s.env .powerWarning)).toFilesCalm
      exact ⟨fun hs => hs.front (u := s.enterHold) hc (Library.fault_front ..) rfl, hc.emptied, rfl⟩
    · exact ⟨id, id, rfl⟩

theorem take_still {warning : Bool} {cs : List (State → State)} (h : ∀ c ∈ cs, c ∈ lastChanges warning) (s : State) : s.StillTo (s.take cs) :=
  State.take_keeps (P := fun u => s.StillTo u)
    (fun c hc u hu => by
      have hcu := (lastChange_of_mem (h c hc)).still u
      exact ⟨hcu.still ∘ hu.still, hcu.emptied ∘ hu.emptied, hcu.startUp.trans hu.startUp⟩) ⟨id, id, rfl⟩

/-- R3: the intake marks have been reset among the changes of steps 5 to 11. -/
theorem take_lastChanges_emptied (warning : Bool) (s : State) : (s.take (lastChanges warning)).lib.Emptied := by
  have hsplit : ∃ xs ys, lastChanges warning = xs ++ (State.onLib fun _ l => l.resetIntake) :: ys := by
    unfold lastChanges
    simp only [List.append_assoc, List.cons_append]
    exact ⟨_, _, rfl⟩
  obtain ⟨xs, ys, hxy⟩ := hsplit
  rw [hxy, State.take_append, State.take_cons]
  refine (take_still (warning := warning) (cs := ys) (fun c hc => ?_) _).emptied (emptied_resetIntake _)
  rw [hxy]
  exact List.mem_append_right _ (List.mem_cons_of_mem _ hc)

theorem endStart_booksSound {s : State} (hs : s.Still) (warning : Bool) (cut : Option Nat) : (s.endStart warning cut).BooksSound := by
  have hr : s.resume.Still := ⟨hs.marks, hs.free, hs.idle, hs.ended, hs.filled⟩
  cases cut with
  | none =>
    have ht := take_still (warning := warning) (fun _ h => h) s.resume
    have hfine := (ht.still hr).fine (take_lastChanges_emptied warning s.resume)
    exact Library.Fine.booksSound (s := s.finishStart warning) (fine_settle _ hfine _)
      ((ht.still hr).filled.same (.of_directory rfl) (filing_settle _ _ _)) (ht.startUp.trans rfl)
  | some n =>
    have ht := take_still (cs := (lastChanges warning).take (n - 4)) (fun c h => List.mem_of_mem_take h) s.resume
    have hu := ht.still hr
    exact State.Still.booksSound (s := (s.resume.take ((lastChanges warning).take (n - 4))).awaitReset warning n)
      ⟨hu.marks, hu.free, hu.idle, hu.ended, hu.filled⟩ rfl

theorem resumeStart_booksSound {s : State} (hs : s.Still) (w : StartUp) (seated : Bool) : (s.resumeStart w seated).BooksSound := by
  unfold State.resumeStart
  split
  next m _ =>
    exact endStart_booksSound (hs.front (u := { s with lib := s.lib.settleRecord m false seated }) (calm_settleRecord _ m false seated).toFilesCalm
      (front_settleRecord _ _ _ _) rfl) _ _
  next => exact endStart_booksSound hs _ _

theorem settleStart_booksSound {s : State} (hs : s.Still) (i : ResetInputs) : (s.settleStart i).BooksSound := by
  unfold State.settleStart
  split
  · exact endStart_booksSound hs _ _
  next m _ =>
    have ha := hs.front (u := { s with lib := s.lib.askReports m }) (calm_askReports s.lib m).toFilesCalm (front_askReports s.lib m) rfl
    dsimp only
    split
    next d _ =>
      exact State.Still.booksSound (s := { s with lib := s.lib.askReports m, env := { s.env with startUp := some ⟨some d, i.warning, i.cut⟩ } })
        ⟨ha.marks, ha.free, ha.idle, ha.ended, ha.filled⟩ rfl
    next =>
      exact endStart_booksSound (ha.front (u := { s with lib := (s.lib.askReports m).settleRecord m i.grip false })
        (calm_settleRecord _ m i.grip false).toFilesCalm (front_settleRecord _ _ _ _) rfl) _ _

/-- R183: a reset leaves no request and no command in progress. -/
theorem beginStart_still {s : State} (h : s.BooksSound) (i : ResetInputs) : (s.beginStart i).Still where
  marks := ⟨fun k => (h.marks k).twin, fun k => (h.marks k).filing, fun k => (h.marks k).top, fun k => (h.marks k).alone, fun k => (h.marks k).unassigned⟩
  free t := look_replicate ..
  idle d v t k f hv := by
    rw [show (s.beginStart i).lib.drive d = .empty s.env.now from look_replicate ..] at hv
    cases hv
  ended := ⟨List.nodup_nil, fun r hr => absurd hr List.not_mem_nil⟩
  filled k := (h.marks k).directory

/-- R22: without the marker every mark is 0 and every directory BLANK. -/
theorem State.Still.blanked {s : State} (h : s.Still) (presence : Vector Bool 64) : (s.readMarker false presence).Still := by
  have hbook (k : Book) : (s.readMarker false presence).lib.book k = .unassigned := look_replicate ..
  exact
    { marks := by constructor <;> intro k <;> rw [hbook] <;> simp [BookEntry.unassigned]
      free := h.free
      idle := h.idle
      ended := h.ended
      filled := fun k f _ => by rw [hbook]; exact ⟨fun _ => Nat.zero_le f, fun _ => rfl⟩ }

theorem firstChanges_still {found : Bool} {cause : ResetCause} {presence : Vector Bool 64} {c : State → State}
    (h : c ∈ firstChanges found cause presence) {s : State} (hs : s.Still) : (c s).Still := by
  simp only [firstChanges, List.mem_cons, List.not_mem_nil, or_false] at h
  rcases h with rfl | rfl | rfl
  · cases found with
    | true => exact ⟨hs.marks, hs.free, hs.idle, hs.ended, hs.filled⟩
    | false => exact hs.blanked presence
  · exact ⟨hs.marks, hs.free, hs.idle, hs.ended, hs.filled⟩
  · cases found with
    | true => exact hs
    | false =>
      exact hs.front (u := { s with lib := s.lib.fault s.env (FaultRecord.of s.env .recordMemoryBlank) }) (calm_fault s.env s.lib _).toFilesCalm
        (Library.fault_front ..) rfl

theorem startUp_booksSound {s : State} (hs : s.BooksSound) (cause : ResetCause) (i : ResetInputs) : (s.startUp cause i).BooksSound := by
  have hfirst (cs : List (State → State)) (h : ∀ c ∈ cs, c ∈ firstChanges (s.markerFound i) cause i.presence) : ((s.beginStart i).take cs).Still :=
    State.take_keeps (P := State.Still) (fun c hc u hu => firstChanges_still (h c hc) hu) (beginStart_still hs i)
  unfold State.startUp
  dsimp only
  split
  · exact settleStart_booksSound (hfirst _ fun _ h => h) i
  next n _ =>
    split
    · have hu := hfirst ((firstChanges (s.markerFound i) cause i.presence).take n) fun c hc => List.mem_of_mem_take hc
      exact State.Still.booksSound (s := State.awaitReset _ i.warning n) ⟨hu.marks, hu.free, hu.idle, hu.ended, hu.filled⟩ rfl
    · exact settleStart_booksSound (hfirst _ fun _ h => h) i

/-! ## Every step -/

/-- The passing of a second, and a command that is no event, touch neither books nor FILEs. -/
theorem State.BooksSound.same {s u : State} (h : s.BooksSound) (hc : s.lib.FilesCalm u.lib) (hf : u.lib.front = s.lib.front)
    (he : u.env.directory = s.env.directory) (hs : u.env.startUp.isSome = s.env.startUp.isSome) : u.BooksSound := by
  cases hsome : s.env.startUp.isSome with
  | true => exact ((h.still hsome).front hc hf he).booksSound (hs.trans hsome)
  | false =>
    rw [Option.isSome_eq_false_iff, Option.isNone_iff_eq_none] at hsome
    obtain ⟨hfine, hfilled⟩ := h.fine hsome
    refine (hc.fine hfine).booksSound (hfilled.same (.of_directory he) hc.filing) ?_
    rw [hsome] at hs
    exact Option.isNone_iff_eq_none.mp (Option.isSome_eq_false_iff.mp hs)

/-- Settles O20: the books and the FILEs through every own effect, every reaction and start-up. -/
theorem stepKeepsBooksSound : Obligations.StepKeepsBooksSound := by
  intro s t hs h
  rcases step_cases h with rfl | ⟨c, rest, hc⟩
  · exact hs.same (.of_same : s.lib.FilesCalm s.tick.lib) rfl rfl rfl
  · have hs : ({ s with pending := rest } : State).BooksSound := hs.same (.of_same : s.lib.FilesCalm s.lib) rfl rfl rfl
    generalize ({ s with pending := rest } : State) = s at hs hc
    have hbegin : s.begin.BooksSound := hs.same (.of_same : s.lib.FilesCalm s.begin.lib) rfl rfl rfl
    rcases exec_takes hc with hi | ⟨hstart, htstart, m, he, hm⟩ | ⟨d, seated, w, -, hw, rfl⟩ | ⟨cause, i, -, rfl⟩
    · exact hs.same hi.calm.1.toFilesCalm hi.calm.2 hi.directory hi.start
    · obtain ⟨hfine, hfilled⟩ := hs.fine hstart
      obtain ⟨hmfine, hmfilled⟩ := hm.fine hfine hfilled
      obtain ⟨htfine, htfiling⟩ := he.fine hmfine
      exact htfine.booksSound (hmfilled.same (.of_directory rfl) htfiling) htstart
    · exact resumeStart_booksSound (hbegin.still (by rw [show s.begin.env.startUp = some w from hw]; rfl)) w seated
    · exact startUp_booksSound hbegin cause i

end Sys2Proof.Machine
end

section
-- One declaration after the other: the stacks of the threads that wait for each other count against the check's memory limit.
set_option Elab.async false
namespace Sys2Proof.Machine

/-! # The commands that wait behind a command

R38, R112: every command answers a next state, and no part of any command touches the queue. -/

variable {s t u : State}

theorem State.event_pending {f : State → State} (h : s.event f = .next t) (hf : (f s.begin).pending = s.pending) : t.pending = s.pending := by
  rcases State.event_eq h with rfl | ⟨-, rfl⟩
  · rfl
  · exact hf

theorem State.outcome_pending {d : Drive} {f : State → InService → State} (h : s.outcome d f = .next t)
    (hf : ∀ v, (f s.begin v).pending = s.pending) : t.pending = s.pending :=
  State.event_pending h (by
    split
    · rfl
    · split
      · exact hf _
      · rfl)

theorem State.atCommand_pending {d : Drive} {f : State → InService → State} (h : s.atCommand d f = .next t)
    (hf : ∀ v, (f s.begin v).pending = s.pending) : t.pending = s.pending :=
  State.event_pending h (by
    split
    · exact hf _
    · rfl)

theorem takeRecord_pending (s : State) (r : RequestRecord) (check : Option Outcome) {proceed : State → State}
    (hp : ∀ u, (proceed u).pending = u.pending) : (s.takeRecord r check proceed).pending = s.pending := by
  unfold State.takeRecord
  dsimp only
  (repeat' split) <;> first | rfl | exact hp _

theorem acceptFetch_pending (s : State) (r : RequestRecord) : (s.acceptFetch r).pending = s.pending := by
  unfold State.acceptFetch
  split <;> rfl

theorem acceptFile_pending (s : State) (r : RequestRecord) : (s.acceptFile r).pending = s.pending := by
  unfold State.acceptFile
  split <;> rfl

theorem applyWrite_pending {w : ServiceWrite} (h : s.applyWrite w = some u) : u.pending = s.pending := by
  cases w with
  | dayClose day =>
    simp only [State.applyWrite] at h
    split at h
    · cases h; rfl
    · cases h
  | schedule d => obtain rfl := Option.some.inj h; rfl
  | poolAdd xs => obtain ⟨m, -, rfl⟩ := State.withLib_eq_some h; rfl
  | poolRemove xs => obtain ⟨m, -, rfl⟩ := State.withLib_eq_some h; rfl
  | assign b p q => obtain ⟨x, y, -, -, -, rfl⟩ := State.assignBook_eq_some h; rfl
  | addTwin b t => obtain ⟨m, -, rfl⟩ := State.withLib_eq_some h; rfl
  | removeTwin b => obtain ⟨m, -, rfl⟩ := State.withLib_eq_some h; rfl
  | close b => obtain ⟨m, -, rfl⟩ := State.withLib_eq_some h; rfl
  | _ => cases h <;> rfl

theorem endWrite_pending (s : State) (tag : Tag) (w : ServiceWrite) (key : KeyPosition) : (s.endWrite tag w key).pending = s.pending := by
  rcases s.endWrite_eq tag w key with ⟨o, -, h⟩ | ⟨u, -, hu, h⟩ <;> rw [h]
  · rfl
  · have hp := applyWrite_pending hu
    split <;> exact hp

theorem serviceArrival_pending (s : State) (tag : Tag) (key : KeyPosition) (read : Block → Option ServiceWrite) :
    (s.serviceArrival tag key read).pending = s.pending := by
  rcases s.serviceArrival_eq tag key read with h | ⟨x, -, -, -, -, -, h⟩ | ⟨x, w, -, -, h⟩ <;> rw [h]
  · rfl
  · rfl
  · exact endWrite_pending s.begin tag w key

theorem arrive_pending (s : State) (t : Tag) (x : Entry) (data : Sector) (key : KeyPosition) : (s.arrive t x data key).pending = s.pending := by
  unfold State.arrive
  split
  · split
    · split <;> rfl
    · exact endWrite_pending s t _ key
    · rfl
  · split <;> rfl

theorem offer_pending (s : State) (o : Option Offer) : (s.offer o).pending = s.pending := by cases o <;> rfl

theorem deliver_pending (s : State) (t : Tag) (x : Entry) (w : Window) (xs : List SectorState) : (s.deliver t x w xs).pending = s.pending := by
  unfold State.deliver
  dsimp only
  split
  · rfl
  · exact offer_pending _ _

theorem deliverPages_pending (s now : State) (t : Tag) (x : Entry) (n : Nat) : (s.deliverPages now t x n).pending = s.pending := by
  unfold State.deliverPages
  dsimp only
  split <;> rfl

theorem rescueOutcome_pending (s : State) (side : Side) (f : Nat) (ss : List Nat) (rs : List ReadResult) :
    (s.rescueOutcome side f ss rs).pending = s.pending := by
  unfold State.rescueOutcome
  (repeat' split) <;> first | rfl | (dsimp only; split <;> rfl)

theorem commandReturned_pending (s : State) (d : Drive) (v : InService) : (s.commandReturned d v).pending = s.pending := by
  unfold State.commandReturned
  (repeat' split) <;> rfl

theorem failCommand_pending (s : State) (d : Drive) : (s.failCommand d).pending = s.pending := by
  unfold State.failCommand
  dsimp only
  split
  · exact commandReturned_pending _ d _
  · rfl

theorem driveFailure_pending (s : State) (d : Drive) : (s.driveFailure d).pending = s.pending := failCommand_pending s d

theorem finishTransfer_pending (s now : State) (t : Tag) (x : Entry) (n : Nat) : (s.finishTransfer now t x n).pending = s.pending := by
  unfold State.finishTransfer
  (repeat' split) <;> first | rfl | exact deliver_pending s t x _ _ | exact deliverPages_pending s now t x n

theorem assertWarning_pending (s : State) (i : Option InTransfer) : (s.assertWarning i).pending = s.pending := by
  cases i with
  | none => rfl
  | some i =>
    show (s.holdOver i).pending = s.pending
    rcases holdOver_cases s i with ⟨-, h⟩ | ⟨t, x, -, ⟨-, h⟩ | ⟨-, h⟩⟩ <;> rw [h]
    · rfl
    · exact finishTransfer_pending s s t x (i.sent + 1)
    · exact finishTransfer_pending s.beginHold s t x (i.sent + 1)

/-! ## Start-up -/

theorem take_lastChanges_pending {warning : Bool} {cs : List (State → State)} (h : ∀ c ∈ cs, c ∈ lastChanges warning) (s : State) :
    (s.take cs).pending = s.pending := by
  refine State.take_keeps (P := fun u => u.pending = s.pending) (fun c hc u hu => ?_) rfl
  rcases lastChanges_cases (h c hc) with ⟨f, rfl⟩ | rfl
  · exact hu
  · dsimp only
    split <;> exact hu

theorem endStart_pending (s : State) (warning : Bool) (cut : Option Nat) : (s.endStart warning cut).pending = s.pending := by
  cases cut with
  | none => exact take_lastChanges_pending (warning := warning) (fun _ h => h) s.resume
  | some n => exact take_lastChanges_pending (warning := warning) (cs := (lastChanges warning).take (n - 4)) (fun _ h => List.mem_of_mem_take h) s.resume

theorem resumeStart_pending (s : State) (w : StartUp) (seated : Bool) : (s.resumeStart w seated).pending = s.pending := by
  unfold State.resumeStart
  split <;> exact endStart_pending _ _ _

theorem settleStart_pending (s : State) (i : ResetInputs) : (s.settleStart i).pending = s.pending := by
  unfold State.settleStart
  split
  · exact endStart_pending _ _ _
  · dsimp only
    split
    · rfl
    · exact endStart_pending _ _ _

theorem firstChanges_pending {found : Bool} {cause : ResetCause} {presence : Vector Bool 64} {c : State → State}
    (h : c ∈ firstChanges found cause presence) (s : State) : (c s).pending = s.pending := by
  simp only [firstChanges, List.mem_cons, List.not_mem_nil, or_false] at h
  rcases h with rfl | rfl | rfl <;> cases found <;> rfl

theorem startUp_pending (s : State) (cause : ResetCause) (i : ResetInputs) : (s.startUp cause i).pending = s.pending := by
  have hfirst (cs : List (State → State)) (h : ∀ c ∈ cs, c ∈ firstChanges (s.markerFound i) cause i.presence) : ((s.beginStart i).take cs).pending = s.pending :=
    State.take_keeps (P := fun u => u.pending = s.pending) (fun c hc u hu => (firstChanges_pending (h c hc) u).trans hu) rfl
  unfold State.startUp
  dsimp only
  split
  · exact (settleStart_pending _ i).trans (hfirst _ fun _ h => h)
  · split
    · exact hfirst _ fun c hc => List.mem_of_mem_take hc
    · exact (settleStart_pending _ i).trans (hfirst _ fun _ h => h)

end Sys2Proof.Machine
end

section
-- One declaration after the other: the stacks of the threads that wait for each other count against the check's memory limit.
set_option Elab.async false
namespace Sys2Proof.Machine

variable {s t u : State}

/-- R38: no command touches the queue. -/
theorem exec_pending {c : Instr} (h : exec c s = .next t) : t.pending = s.pending := by
  cases hr : serviceRow c with
  | some r =>
    cases (exec_serviceRow (tag := r.1) (key := r.2.1) (read := r.2.2) hr s).symm.trans h
    exact serviceArrival_pending s _ _ _
  | none =>
    cases c with
    | fetchRequest r =>
      exact State.event_pending (show execFetchRequest r s = _ from h) (takeRecord_pending s.begin r _ fun u => acceptFetch_pending u r)
    | fileRequest r =>
      exact State.event_pending (show execFileRequest r s = _ from h) (takeRecord_pending s.begin r _ fun u => acceptFile_pending u r)
    | pull =>
      exact State.event_pending (show execPull s = _ from h) (by (repeat' split) <;> rfl)
    | fileBurstArrival tag data key =>
      refine State.event_pending (show execFileBurstArrival tag data key s = _ from h) ?_
      split
      · split
        · exact arrive_pending s.begin _ _ _ _
        · rfl
      · rfl
    | burstSent n =>
      refine State.event_pending (show execBurstSent n s = _ from h) ?_
      (repeat' split) <;> first | rfl | exact deliver_pending s.begin _ _ _ _ | exact deliverPages_pending s.begin _ _ _ _
    | responseSent =>
      exact State.event_pending (show execResponseSent s = _ from h) (by (repeat' split) <;> rfl)
    | fetchReadOutcome d rs =>
      exact State.outcome_pending (show execFetchReadOutcome d rs s = _ from h) fun v => by (repeat' split) <;> rfl
    | primaryWriteOk d =>
      exact State.outcome_pending (show execPrimaryWriteOk d s = _ from h) fun v => by (repeat' split) <;> rfl
    | primaryWriteFail d =>
      exact State.outcome_pending (show execPrimaryWriteFail d s = _ from h) fun v => by (repeat' split) <;> rfl
    | twinWriteVerified d =>
      exact State.outcome_pending (show execTwinWriteVerified d s = _ from h) fun v => by (repeat' split) <;> rfl
    | twinWriteFail d =>
      exact State.outcome_pending (show execTwinWriteFail d s = _ from h) fun v => by (repeat' split) <;> rfl
    | rereadOutcome d rs =>
      exact State.outcome_pending (show execRereadOutcome d rs s = _ from h) fun v => by (repeat' split) <;> rfl
    | rescueReadOutcome d rs =>
      refine State.outcome_pending (show execRescueReadOutcome d rs s = _ from h) fun v => ?_
      split
      · split
        · dsimp only
          split
          · exact rescueOutcome_pending _ _ _ _ _
          · rfl
        · rfl
      · rfl
    | rescueWriteVerified d =>
      exact State.outcome_pending (show execRescueWriteVerified d s = _ from h) fun v => by (repeat' split) <;> rfl
    | rescueWriteFail d =>
      exact State.outcome_pending (show execRescueWriteFail d s = _ from h) fun v => by split <;> rfl
    | patrolVerifyOutcome d rs =>
      exact State.outcome_pending (show execPatrolVerifyOutcome d rs s = _ from h) fun v => by (repeat' split) <;> rfl
    | commandLimitExpiry d =>
      exact State.atCommand_pending (show execCommandLimitExpiry d s = _ from h) fun v => driveFailure_pending _ d
    | hardwareFaultReport d =>
      refine State.event_pending (show execHardwareFaultReport d s = _ from h) ?_
      split
      · exact driveFailure_pending s.begin d
      · rfl
    | spinUpLimitExpiry d =>
      refine State.event_pending (show execSpinUpLimitExpiry d s = _ from h) ?_
      split
      · exact driveFailure_pending _ d
      · rfl
    | spinDownLimitExpiry d =>
      refine State.event_pending (show execSpinDownLimitExpiry d s = _ from h) ?_
      split
      · exact driveFailure_pending _ d
      · rfl
    | readyReport d => exact State.event_pending (show execReadyReport d s = _ from h) (by split <;> rfl)
    | stoppedReport d => exact State.event_pending (show execStoppedReport d s = _ from h) (by split <;> rfl)
    | idleSpinDown d => exact State.event_pending (show execIdleSpinDown d s = _ from h) (by split <;> rfl)
    | caddyReport d seated =>
      cases (show execCaddyReport d seated s = _ from h)
      split
      · split
        · exact resumeStart_pending _ _ _
        · rfl
      · split <;> rfl
    | moveCompletion =>
      exact State.event_pending (show execMoveCompletion s = _ from h) (by (repeat' split) <;> rfl)
    | moveLimitExpiry grip caddy =>
      exact State.event_pending (show execMoveLimitExpiry grip caddy s = _ from h) (by (repeat' split) <;> rfl)
    | pickerFaultReport grip caddy =>
      exact State.event_pending (show execPickerFaultReport grip caddy s = _ from h) (by (repeat' split) <;> rfl)
    | presenceChange k seated =>
      cases (show execPresenceChange k seated s = _ from h)
      split
      · rfl
      · split <;> rfl
    | dwellExpiry d => exact State.event_pending (show execDwellExpiry d s = _ from h) (by (repeat' split) <;> rfl)
    | demandAgeLimit k n => exact State.event_pending (show execDemandAgeLimit k n s = _ from h) (by (repeat' split) <;> rfl)
    | patrolIdleTime => exact State.event_pending (show execPatrolIdleTime s = _ from h) (by (repeat' split) <;> rfl)
    | orderTimerExpiry k => exact State.event_pending (show execOrderTimerExpiry k s = _ from h) (by (repeat' split) <;> rfl)
    | powerWarning i =>
      cases (show execPowerWarning i s = _ from h)
      split
      · rfl
      · split
        · rfl
        · exact assertWarning_pending s.begin i
    | holdEnd =>
      cases (show execHoldEnd s = _ from h)
      (repeat' split) <;> rfl
    | reset cause i =>
      cases (show execReset cause i s = _ from h)
      exact startUp_pending s.begin cause i
    | _ => cases hr

/-- Settles O3: no command is refused and none touches the queue. -/
theorem everyCommandCompletes : Obligations.EveryCommandCompletes := by
  intro c s
  have h : ∃ t, exec c s = .next t := by cases c <;> exact ⟨_, rfl⟩
  obtain ⟨t, ht⟩ := h
  exact ⟨t, ht, exec_pending ht⟩

/-- Settles O1. -/
theorem stepRunsFrontCommand : Obligations.StepRunsFrontCommand := fun _ _ _ => rfl

/-- Settles O2: an empty queue is the tick of the clock. -/
theorem emptyQueuePassesOneSecond : Obligations.EmptyQueuePassesOneSecond := by
  intro s h
  unfold step
  split
  next => rfl
  next c rest hc => cases h.symm.trans hc

/-- The reset state has no request and empty books. -/
theorem reset_still : State.reset.Still := by
  have hbook (k : Book) : State.reset.lib.book k = .unassigned := look_replicate ..
  exact
    { marks := by constructor <;> intro k <;> rw [hbook] <;> simp [BookEntry.unassigned]
      free := fun t => look_replicate ..
      idle := fun d v t k f hv => by
        rw [show State.reset.lib.drive d = .empty 0 from look_replicate ..] at hv
        cases hv
      ended := ⟨List.nodup_nil, fun r hr => absurd hr List.not_mem_nil⟩
      filled := fun k f _ => by rw [hbook]; exact ⟨fun _ => Nat.zero_le f, fun _ => rfl⟩ }

theorem reset_rolesSound : State.reset.lib.RolesSound :=
  have h := rolesSound_defaults State.reset.lib (Vector.replicate 64 false)
  ⟨h.primary, h.twin, h.target, h.source, h.assigned, h.unassigned, h.sides, h.apart⟩

/-- Settles O54: each invariant holds of empty records. -/
theorem resetMeetsInvariants : Obligations.ResetMeetsInvariants := by
  refine ⟨⟨rfl, Nat.le_refl 1, by decide, by decide⟩, Fee.sound_blank, fun _ k => look_replicate .., ⟨by decide, List.nodup_nil, by decide, rfl, rfl⟩,
    reset_rolesSound, (reset_still.fine fun k => ?_).booksSound reset_still.filled rfl⟩
  rw [show State.reset.lib.book k = .unassigned from look_replicate ..]
  rfl

end Sys2Proof.Machine
end

section
-- One declaration after the other: the stacks of the threads that wait for each other count against the check's memory limit.
set_option Elab.async false
namespace Sys2Proof.Machine

/-! # Service writes

The arrival of the awaited sector: a write that is applied and ends without reactions, one that is applied with reactions, and one that is refused. -/

section Awaited

variable {s t : State} {c : Instr} {tag : Tag} {x : Entry} {k : Block} {w : ServiceWrite} {key : KeyPosition} {o : Outcome}
  {read : Block → Option ServiceWrite}

theorem State.checkWrite_refused (h : w.refusal key = some o) : s.checkWrite w key = (o, s) := by
  unfold State.checkWrite; rw [h]

theorem State.checkWrite_applied (hr : w.refusal key = none) (ha : s.applyWrite w = some t) : s.checkWrite w key = (.done, t) := by
  unfold State.checkWrite; rw [hr, ha]

theorem State.checkWrite_ownerRefused (hr : w.refusal key = none) (ha : s.applyWrite w = none) : s.checkWrite w key = (w.ownerRefusal, s) := by
  unfold State.checkWrite; rw [hr, ha]

/-- R186: a write that is applied and calls for no reactions. -/
theorem AwaitsWrite.applied (h : AwaitsWrite s tag x k) (hc : serviceRow c = some (tag, key, read)) (hr : read k = some w) (hk : w.refusal key = none)
    (ha : s.begin.applyWrite w = some t) (hq : w.reacts = false) (hf : t.lib.front = s.lib.front) (ho : t.lib.out = []) :
    ∃ u, exec c s = .next u ∧ WriteEnds s u tag x .done 1 ∧ u.env = t.env ∧ u.fee = t.fee ∧ SameBlocks t.lib u.lib := by
  obtain ⟨u, hu, hends⟩ := h.ends hr (State.checkWrite_applied hk ha) (fun _ => hq) (applyWrite_pending (s := s.begin) ha) hf ho
  exact ⟨u, by rw [exec_serviceRow hc, hu], hends⟩

/-- R186: a write that is refused changes nothing but its request. -/
theorem AwaitsWrite.refused (h : AwaitsWrite s tag x k) (hc : serviceRow c = some (tag, key, read)) (hr : read k = some w)
    (hcheck : s.begin.checkWrite w key = (o, s.begin)) (ho : o ≠ .done) :
    ∃ u, exec c s = .next u ∧ WriteEnds s u tag x o 0 ∧ u.env = s.env ∧ u.fee = s.fee ∧ SameBlocks s.lib u.lib := by
  obtain ⟨u, hu, hends, he, hf, hl⟩ := h.ends hr hcheck (fun h => absurd h ho) rfl rfl rfl
  rw [if_neg ho] at hends
  exact ⟨u, by rw [exec_serviceRow hc, hu], hends, he, hf, s.begin_sameBlocks.trans hl⟩

/-- R186: a write that is applied with the reactions to it. -/
theorem AwaitsWrite.reacted (h : AwaitsWrite s tag x k) (hc : serviceRow c = some (tag, key, read)) (hr : read k = some w) (hk : w.refusal key = none)
    (ha : s.begin.applyWrite w = some t) (hq : w.reacts = true) (he : t.lib.entry tag = some x) :
    ∃ u, exec c s = .next u ∧ Reacted s u t.env t.fee (t.lib.endRequest tag .done 1 0) ∧ RequestEnds u.lib tag x .done 1 := by
  have hw : s.begin.endWrite tag w key = State.react { t with lib := t.lib.endRequest tag .done 1 0 } s.begin.lib := by
    unfold State.endWrite
    rw [State.checkWrite_applied hk ha, hq]
    rfl
  have hreacted : Reacted s (State.react { t with lib := t.lib.endRequest tag .done 1 0 } s.begin.lib) t.env t.fee (t.lib.endRequest tag .done 1 0) :=
    have hp : t.pending = s.pending := applyWrite_pending (s := s.begin) ha
    State.react_reacted hp
  exact ⟨_, by rw [exec_serviceRow hc, h.arrival hr, hw], hreacted, (endRequest_ends he .done 1 0).settled hreacted.lib⟩

end Awaited

/-! ## The fault block and the threshold -/

/-- R178: the bits of a mask are those of the fault kinds' codes. -/
theorem KindSet.has_setWidth (m : BitVec 16) (k : FaultKind) : KindSet.has (m.setWidth 11) k = m.getLsbD (k.code - 1) := by
  unfold KindSet.has
  rw [BitVec.getLsbD_setWidth]
  cases k <;> rfl

theorem KindSet.has_zero (k : FaultKind) : KindSet.has 0 k = false := by cases k <;> rfl

/-- Settles O37. -/
theorem faultAndThresholdWrites : Obligations.FaultAndThresholdWrites := by
  refine ⟨fun s tag x h => ⟨?_, fun m => ?_, ?_⟩, fun s tag x v h => ?_⟩
  · obtain ⟨u, hu, hends, he, hf, hl⟩ := h.applied (c := .clearFaults tag) rfl rfl rfl rfl rfl rfl rfl
    have hlog : u.lib.log = ⟨none, 0, 0⟩ := hl.log
    refine ⟨u, hu, hends, he, hf, by rw [hlog], fun k => by rw [hlog]; exact KindSet.has_zero k, by rw [hlog], ?_, ?_⟩
    · unfold Library.attn; rw [hlog]; rfl
    · rw [hlog]; exact ⟨hl.books, hl.roles, hl.hold, hl.escalation, hl.twins, hl.drives, hl.picker, hl.care, hlog⟩
  · obtain ⟨u, hu, hends, he, hf, hl⟩ := h.applied (c := .setMask tag m) rfl rfl rfl rfl rfl rfl rfl
    exact ⟨u, hu, hends, by rw [he]; rfl, fun k => by rw [he]; exact KindSet.has_setWidth m k, hf, s.begin_sameBlocks.trans hl⟩
  · obtain ⟨u, hu, hends, he, hf, hl⟩ := h.applied (c := .clearCauses tag) rfl rfl rfl rfl rfl rfl rfl
    exact ⟨u, hu, hends, he, hf, s.begin_sameBlocks.trans hl⟩
  · obtain ⟨u, hu, hends, he, hf, hl⟩ := h.applied (c := .thresholdWrite tag .opened v) rfl rfl rfl rfl rfl rfl rfl
    refine ⟨u, hu, hends, he.trans ?_, hf, s.begin_sameBlocks.trans hl⟩
    have hmax : max 1 v = if v = 0 then 1 else v := by split <;> omega
    show ({ s.env with threshold := max 1 v } : Env) = _
    rw [hmax]

/-- Settles O40. -/
theorem closeWriteClosesBook : Obligations.CloseWriteClosesBook := by
  intro s tag x b h
  have happly {m : Library} (hm : s.begin.lib.closeBook b = some m) : s.begin.applyWrite (.close b) = some { s.begin with lib := m } := by
    simp only [State.applyWrite, State.withLib, hm, Option.map_some]
  refine ⟨fun hb => ?_, fun hb => ?_, fun hb => ?_⟩
  · have hm : s.begin.lib.closeBook b = some (s.begin.lib.setBook b { s.lib.book b with state := .closed }) := by
      unfold Library.closeBook; simp [hb]
    obtain ⟨u, hu, hends, he, hf, hl⟩ := h.applied (c := .closeBook tag .opened) rfl rfl rfl (happly hm) rfl rfl rfl
    have hbook (c : Book) : u.lib.book c = (s.begin.lib.setBook b { s.lib.book b with state := .closed }).book c :=
      congrArg (fun v : Vector BookEntry 127 => look v c) hl.books
    exact ⟨u, hu, hends, he, hf, by rw [hbook, Library.setBook_book_same], fun c hc => by rw [hbook, Library.setBook_book, if_neg (Ne.symm hc)]; rfl,
      rfl, hl.roles, hl.hold, hl.escalation, hl.twins, hl.drives, hl.picker, hl.care, hl.log⟩
  · have hm : s.begin.lib.closeBook b = some s.begin.lib := by unfold Library.closeBook; simp [hb]
    obtain ⟨u, hu, hends, he, hf, hl⟩ := h.applied (c := .closeBook tag .opened) rfl rfl rfl (happly hm) rfl rfl rfl
    exact ⟨u, hu, hends, he, hf, s.begin_sameBlocks.trans hl⟩
  · have hm : s.begin.lib.closeBook b = none := by unfold Library.closeBook; simp [hb]
    exact h.refused (c := .closeBook tag .opened) rfl rfl (State.checkWrite_ownerRefused rfl (by simp only [State.applyWrite, State.withLib, hm, Option.map_none])) nofun

end Sys2Proof.Machine
end

section
-- One declaration after the other: the stacks of the threads that wait for each other count against the check's memory limit.
set_option Elab.async false
namespace Sys2Proof.Machine

/-! # What the blocks take -/

section Awaited

variable {s t : State} {c : Instr} {tag : Tag} {x : Entry} {k : Block} {w : ServiceWrite} {key key' : KeyPosition} {o : Outcome}
  {read : Block → Option ServiceWrite}

/-- R186: checks 1 to 3 refuse a write. -/
theorem AwaitsWrite.refusedAs (h : AwaitsWrite s tag x k) (hc : serviceRow c = some (tag, key, read)) (hr : read k = some w)
    (hw : w.refusal key = some o) :
    ∃ u, exec c s = .next u ∧ WriteEnds s u tag x o 0 ∧ u.env = s.env ∧ u.fee = s.fee ∧ SameBlocks s.lib u.lib :=
  h.refused hc hr (State.checkWrite_refused hw) fun ho => w.refusal_ne_done key (ho ▸ hw)

theorem AwaitsWrite.row (h : AwaitsWrite s tag x k) (hc : serviceRow c = some (tag, key, read)) (hr : read k = some w) :
    exec c s = .next (s.begin.endWrite tag w key) := by
  rw [exec_serviceRow hc, h.arrival hr]

/-- R186: the sector of a FILE burst is taken as what its block reads in it. -/
theorem AwaitsWrite.burst (h : AwaitsWrite s tag x k) (data : Sector) (key : KeyPosition) :
    exec (.fileBurstArrival tag data key) s = .next (s.begin.endWrite tag (readWrite k data) key) := by
  have hl : s.begin.lib.linkOpen tag = true := h.linkOpen
  show execFileBurstArrival tag data key s = _
  unfold execFileBurstArrival
  rw [State.event_next _ h.started]
  rw [if_pos hl, State.begin_entry, h.entry]
  unfold State.arrive
  simp only [Entry.live, h.live, Option.isNone_none, if_true, h.job]
  rw [show x.block = k from h.block]

theorem ServiceWrite.refusal_unkeyed (hw : w.keyed = false) : w.refusal key = w.refusal key' := by
  unfold ServiceWrite.refusal
  simp [hw]

theorem State.endWrite_unkeyed (hw : w.keyed = false) : s.endWrite tag w key = s.endWrite tag w key' := by
  unfold State.endWrite State.checkWrite
  rw [ServiceWrite.refusal_unkeyed hw]

/-- R188 to R190: a sector and the command that its bytes spell are one event. -/
theorem AwaitsWrite.spelt {data : Sector} (h : AwaitsWrite s tag x k) (hc : serviceRow c = some (tag, key', read)) (hr : read k = some (readWrite k data))
    (hk : key' = key ∨ (readWrite k data).keyed = false) : exec (.fileBurstArrival tag data key) s = exec c s := by
  rw [h.burst, h.row hc hr]
  rcases hk with rfl | hk
  · rfl
  · rw [State.endWrite_unkeyed hk]

end Awaited

/-! ## The bytes of a write -/

theorem readFaultCommand_unknown {data : Sector} (h : bytesAt data 0 1 = 0 ∨ 3 < bytesAt data 0 1) : readFaultCommand data = .unknown false := by
  unfold readFaultCommand
  split <;> first | omega | rfl

theorem readBookChange_unknown {data : Sector} (b : Book) (h : bytesAt data 0 1 = 0 ∨ 4 < bytesAt data 0 1) : readBookChange b data = .unknown true := by
  unfold readBookChange
  split <;> first | omega | rfl

theorem readPoolWrite_unknown {data : Sector} (h : bytesAt data 0 1 = 0 ∨ 2 < bytesAt data 0 1) : readPoolWrite data = .unknown true := by
  unfold readPoolWrite
  dsimp only
  split <;> first | omega | rfl

/-- Table 11-1: the blocks that take no write. -/
def Block.readOnly : Block → Bool
  | .status => true
  | .tally => true
  | .closedTally => true
  | .sides _ => true
  | .directory _ _ => true
  | .other => true
  | _ => false

theorem poolWrite_ne_readOnly (add : Bool) (n : Nat) (xs : List Nat) : poolWrite add n xs ≠ .readOnly := by
  rcases poolWrite_cases add n xs with ⟨ys, h⟩ | ⟨ys, h⟩ | h <;> rw [h] <;> nofun

theorem readWrite_readOnly {k : Block} {data : Sector} : readWrite k data = .readOnly ↔ k.readOnly = true := by
  cases k with
  | fault => simp only [readWrite, readFaultCommand, Block.readOnly]; split <;> simp
  | pool => simp only [readWrite, readPoolWrite, Block.readOnly]; split <;> simp [poolWrite_ne_readOnly]
  | book b => simp only [readWrite, readBookChange, Block.readOnly]; split <;> simp
  | _ => simp [readWrite, Block.readOnly]

theorem asIndex_eq_none {n x : Nat} : asIndex n x = none ↔ n ≤ x := by
  unfold asIndex
  split <;> simp <;> omega

theorem asIndex_val {n : Nat} (i : Fin n) : asIndex n i.val = some i := dif_pos i.isLt

theorem blockOf_order (k : Station) : blockOf (16 + k.val) = .order k := by
  have hk := k.isLt
  unfold blockOf
  rw [if_neg (by omega), if_neg (by omega), if_neg (by omega), if_neg (by omega), if_neg (by omega), if_neg (by omega), if_neg (by omega), if_neg (by omega),
    if_neg (by omega), if_neg (by omega), if_pos (by omega), show 16 + k.val - 16 = k.val by omega, asIndex_val]

theorem blockOf_book (b : Book) : blockOf (64 + b.val) = .book b := by
  have hb := b.isLt
  unfold blockOf
  rw [if_neg (by omega), if_neg (by omega), if_neg (by omega), if_neg (by omega), if_neg (by omega), if_neg (by omega), if_neg (by omega), if_neg (by omega),
    if_neg (by omega), if_neg (by omega), if_neg (by omega), if_pos (by omega), show 64 + b.val - 64 = b.val by omega, asIndex_val]

theorem Block.readOnly_ite {c : Prop} [Decidable c] (a b : Block) : (if c then a else b).readOnly = if c then a.readOnly else b.readOnly := apply_ite _ c a b

/-- Table 11-1: the blocks above the book table's are directories or have no page. -/
theorem blockOf_high {n : Nat} (h : 191 ≤ n) : (blockOf n).readOnly = true := by
  unfold blockOf
  rw [if_neg (by omega), if_neg (by omega), if_neg (by omega), if_neg (by omega), if_neg (by omega), if_neg (by omega), if_neg (by omega), if_neg (by omega),
    if_neg (by omega), if_neg (by omega), if_neg (by omega), if_neg (by omega), Block.readOnly_ite]
  cases asIndex 127 ((n - 1024) / 8) <;> simp [Block.readOnly]

theorem blockOf_readOnly {n : Nat} : (blockOf n).readOnly = true ↔ n ≤ 2 ∨ (6 ≤ n ∧ n ≤ 15) ∨ (35 ≤ n ∧ n ≤ 63) ∨ 191 ≤ n := by
  rcases Nat.lt_or_ge n 64 with h | h
  · interval_cases n <;> simp [blockOf, Block.readOnly, asIndex]
  · rcases Nat.lt_or_ge n 191 with h1 | h1
    · obtain ⟨i, rfl⟩ : ∃ i : Book, n = 64 + i.val := ⟨⟨n - 64, by omega⟩, by simp; omega⟩
      rw [blockOf_book]
      simp only [Block.readOnly, Bool.false_eq_true, false_iff]
      omega
    · exact iff_of_true (blockOf_high h1) (by omega)

theorem refusedWrite_unknown {k : Block} {data : Sector} {keyed : Bool} (h : readWrite k data = .unknown keyed) : refusedWrite k data = some (.unknown keyed) := by
  unfold refusedWrite; rw [h]

theorem refusedWrite_readOnly {k : Block} {data : Sector} (h : readWrite k data = .readOnly) : refusedWrite k data = some .readOnly := by
  unfold refusedWrite; rw [h]

theorem poolWrite_locked (add : Bool) (n : Nat) (xs : List Nat) : (poolWrite add n xs).refusal .locked = some .protected_ := by
  rcases poolWrite_cases add n xs with ⟨ys, h⟩ | ⟨ys, h⟩ | h <;> rw [h] <;> rfl

/-- Settles O45: the keyed writes with the key locked, the sectors that their block does not know, and Table 11-1's map. -/
theorem refusedWritesChangeNothing : Obligations.RefusedWritesChangeNothing := by
  refine ⟨fun s tag x k c h hc => ?_, fun s tag x k key data h => ⟨fun hw => ?_, fun hkey hw => ?_, ?_, ?_, ?_⟩, fun s tag x n key data h hn => ?_,
    fun n data => ?_, rfl, rfl, rfl, blockOf_order, rfl, rfl, rfl, blockOf_book⟩
  · rcases hc with ⟨rfl, v, rfl⟩ | ⟨rfl, n, sides, rfl | rfl⟩ | ⟨rfl, v, rfl⟩ | ⟨b, rfl, ⟨p, t, rfl⟩ | ⟨t, rfl⟩ | rfl | rfl⟩
    · exact h.refusedAs rfl rfl rfl
    · exact h.refusedAs rfl rfl (poolWrite_locked true n sides)
    · exact h.refusedAs rfl rfl (poolWrite_locked false n sides)
    · exact h.refusedAs rfl rfl rfl
    · exact h.refusedAs rfl rfl rfl
    · exact h.refusedAs rfl rfl rfl
    · exact h.refusedAs rfl rfl rfl
    · exact h.refusedAs rfl rfl rfl
  · rcases hw with hw | hw | ⟨rfl, hw⟩
    · exact h.refusedAs (c := .serviceWriteRefused tag key data) rfl (refusedWrite_readOnly hw) rfl
    · exact h.refusedAs (c := .serviceWriteRefused tag key data) rfl (refusedWrite_unknown hw) rfl
    · exact h.refusedAs (c := .serviceWriteRefused tag .opened data) rfl (refusedWrite_unknown hw) rfl
  · subst hkey
    exact h.refusedAs (c := .serviceWriteRefused tag .locked data) rfl (refusedWrite_unknown hw) rfl
  · rintro rfl hb; exact readFaultCommand_unknown hb
  · rintro b rfl hb; exact readBookChange_unknown b hb
  · rintro rfl hb; exact readPoolWrite_unknown hb
  · exact h.refusedAs (c := .serviceWriteRefused tag key data) rfl (refusedWrite_readOnly (readWrite_readOnly.mpr (blockOf_readOnly.mpr hn))) rfl
  · exact readWrite_readOnly.trans blockOf_readOnly

/-- Settles O46: each sector is read as the write that the row of its command names. -/
theorem rawSectorSpellsCommand : Obligations.RawSectorSpellsCommand := by
  intro s tag x k data key h
  refine ⟨?_, ?_, ?_, ?_, ?_, ?_, ?_, ?_⟩
  · rintro rfl; exact h.spelt (c := .dayClose tag _) rfl rfl (.inr rfl)
  · rintro rfl; exact h.spelt (c := .pickerClear tag) rfl rfl (.inr rfl)
  · rintro st rfl; exact h.spelt (c := .orderClose tag) rfl rfl (.inr rfl)
  · rintro rfl; exact h.spelt (c := .thresholdWrite tag key _) rfl rfl (.inl rfl)
  · rintro rfl; exact h.spelt (c := .scheduleWrite tag key _) rfl rfl (.inl rfl)
  · rintro rfl
    have read {w : ServiceWrite} (hw : readFaultCommand data = w) : readWrite .fault data = w := hw
    refine ⟨fun hb => ?_, fun hb => ?_, fun hb => ?_, fun hb => ?_⟩
    · have hw := read (w := .clearFaults) (by unfold readFaultCommand; rw [hb]; rfl)
      exact h.spelt (c := .clearFaults tag) rfl (by rw [hw]) (.inr (by rw [hw]; rfl))
    · have hw := read (w := .setMask (BitVec.ofNat 16 (bytesAt data 16 2))) (by unfold readFaultCommand; rw [hb]; rfl)
      exact h.spelt (c := .setMask tag _) rfl (by rw [hw]) (.inr (by rw [hw]; rfl))
    · have hw := read (w := .clearCauses) (by unfold readFaultCommand; rw [hb]; rfl)
      exact h.spelt (c := .clearCauses tag) rfl (by rw [hw]) (.inr (by rw [hw]; rfl))
    · have hw := read (readFaultCommand_unknown hb)
      exact h.spelt (c := .serviceWriteRefused tag key data) rfl (by rw [hw]; exact refusedWrite_unknown hw) (.inl rfl)
  · rintro b rfl
    have read {w : ServiceWrite} (hw : readBookChange b data = w) : readWrite (.book b) data = w := hw
    refine ⟨fun hb => ?_, fun hb => ?_, fun hb => ?_, fun hb => ?_, fun hb => ?_⟩
    · have hw := read (w := .assign b (bytesAt data 1 1) (bytesAt data 2 1)) (by unfold readBookChange; rw [hb]; rfl)
      exact h.spelt (c := .assignment tag key _ _) rfl (by rw [hw]) (.inl rfl)
    · have hw := read (w := .addTwin b (bytesAt data 2 1)) (by unfold readBookChange; rw [hb]; rfl)
      exact h.spelt (c := .twinAddition tag key _) rfl (by rw [hw]) (.inl rfl)
    · have hw := read (w := .removeTwin b) (by unfold readBookChange; rw [hb]; rfl)
      exact h.spelt (c := .twinRemoval tag key) rfl (by rw [hw]) (.inl rfl)
    · have hw := read (w := .close b) (by unfold readBookChange; rw [hb]; rfl)
      exact h.spelt (c := .closeBook tag key) rfl (by rw [hw]) (.inl rfl)
    · have hw := read (readBookChange_unknown b hb)
      exact h.spelt (c := .serviceWriteRefused tag key data) rfl (by rw [hw]; exact refusedWrite_unknown hw) (.inl rfl)
  · rintro rfl
    have read {w : ServiceWrite} (hw : readPoolWrite data = w) : readWrite .pool data = w := hw
    refine ⟨fun hb => ?_, fun hb => ?_, fun hb => ?_⟩
    · have hw := read (w := poolWrite true (bytesAt data 1 1) ((List.range (bytesAt data 1 1)).map fun i => bytesAt data (2 + i) 1))
        (by unfold readPoolWrite; dsimp only; rw [hb]; rfl)
      exact h.spelt (c := .poolAddition tag key _ _) rfl (by rw [hw]) (.inl rfl)
    · have hw := read (w := poolWrite false (bytesAt data 1 1) ((List.range (bytesAt data 1 1)).map fun i => bytesAt data (2 + i) 1))
        (by unfold readPoolWrite; dsimp only; rw [hb]; rfl)
      exact h.spelt (c := .poolRemoval tag key _ _) rfl (by rw [hw]) (.inl rfl)
    · have hw := read (readPoolWrite_unknown hb)
      exact h.spelt (c := .serviceWriteRefused tag key data) rfl (by rw [hw]; exact refusedWrite_unknown hw) (.inl rfl)

end Sys2Proof.Machine
end

section
-- One declaration after the other: the stacks of the threads that wait for each other count against the check's memory limit.
set_option Elab.async false
namespace Sys2Proof.Machine

/-! # The schedule, the day and the pool -/

theorem clampSchedule_line (v : ScheduleData) (c : FeeClass) :
    look (clampSchedule v).lines c
      = ⟨min (look v.lines c).fee 9999, min (look v.lines c).threshold 255, min (look v.lines c).rate 100, min (look v.lines c).cap 999999⟩ := look_map ..

theorem Order.overdue_iff {c : Schedule} {now : Nat} {o : Order} : o.overdue c now = true ↔ o.lastCharge + c.timeout * 60 < now := by
  exact decide_eq_true_iff

theorem State.applyWrite_schedule (s : State) (d : ScheduleData) :
    s.applyWrite (.schedule d) = some { s with fee := s.fee.writeSchedule s.env.now d } := rfl

/-- Settles O38: each station's order by itself, as `Fee.writeSchedule_station` says. -/
theorem scheduleWriteReplacesSchedule : Obligations.ScheduleWriteReplacesSchedule := by
  intro s tag x v h
  obtain ⟨u, hu, hends, he, hf, hl⟩ := h.applied (c := .scheduleWrite tag .opened v) rfl rfl rfl (s.begin.applyWrite_schedule v) rfl rfl rfl
  have hfee : u.fee = s.fee.writeSchedule s.env.now v := by
    rw [hf, State.begin_fee, State.begin_env]
  obtain ⟨hsched, htal, hclosed, hday⟩ := s.fee.writeSchedule_rest s.env.now v
  refine ⟨u, hu, hends, he, s.begin_sameBlocks.trans hl, fun c => by rw [hfee, hsched, clampSchedule_line], by rw [hfee, hsched]; rfl, by rw [hfee, hsched]; rfl,
    by rw [hfee, htal], by rw [hfee, hclosed], by rw [hfee, hday], fun k => ?_⟩
  obtain ⟨ho, hr⟩ := s.fee.writeSchedule_station s.env.now v k
  rw [hfee, ho, hr]
  refine ⟨fun hk => by simp [hk], fun o hk => ?_⟩
  rw [hk]
  have hover := Order.overdue_iff (c := clampSchedule v) (now := s.env.now) (o := o)
  rw [show (clampSchedule v).timeout = max 1 (min v.timeout 60) from rfl] at hover
  refine ⟨fun hlate => ?_, fun hearly => ?_⟩
  · have hx := hover.mpr hlate
    simp [Order.retimed, hx]
  · have hx : ¬ o.overdue (clampSchedule v) s.env.now = true := fun hx => absurd (hover.mp hx) (by omega)
    have hcap : (o.capTo (clampSchedule v)).amount
        = if min (look v.lines o.cls).cap 999999 = 0 then o.amount else min o.amount (min (look v.lines o.cls).cap 999999) := by
      unfold Order.capTo
      rw [clampSchedule_line]
      exact ite_not _ _ _
    simp only [Option.bind_some, Order.retimed, if_neg hx, Option.any_some, ← hcap]
    exact ⟨rfl, trivial⟩

/-- Settles O39. -/
theorem dayCloseMovesDayOn : Obligations.DayCloseMovesDayOn := by
  intro s tag x day h
  refine ⟨fun hday => ?_, fun hday => ?_⟩
  · have ha : s.begin.applyWrite (.dayClose day) = some s.begin.closeDay := if_pos hday
    obtain ⟨u, hu, hr, hends⟩ := h.reacted (c := .dayClose tag day) rfl rfl rfl ha rfl h.entry
    have hfee : u.fee = s.fee.closeDay s.env.day := hr.fee
    refine ⟨u, hu, ⟨hr.pending, hr.env, rfl, hr.reacts, hr.lib⟩, hends, fun k => ?_, by rw [hfee]; rfl, by rw [hfee]; rfl, by rw [hfee]; rfl, by rw [hfee]; rfl⟩
    rw [hfee]
    exact ⟨look_replicate .., look_replicate ..⟩
  · have ha : s.begin.applyWrite (.dayClose day) = none := if_neg hday
    exact h.refused (c := .dayClose tag day) rfl rfl (State.checkWrite_ownerRefused rfl ha) nofun

/-! ## The blank pool -/

theorem sideField_eq_some {k : Nat} {i : Side} : sideField k = some i ↔ i.val = k := by
  unfold sideField asIndex
  split
  next h => simp [Fin.ext_iff, eq_comm]
  next h => simp; have := i.isLt; omega

theorem poolSides_eq_some {xs : List Nat} {ss : List Side} : poolSides xs = some ss ↔ ss.map Fin.val = xs := by
  induction xs generalizing ss with
  | nil => exact ⟨fun h => by cases h; rfl, fun h => by rw [List.map_eq_nil_iff.mp h]; rfl⟩
  | cons x xs ih =>
    unfold poolSides at ih ⊢
    cases ss with
    | nil => simp [List.mapM_cons, Option.bind_eq_some_iff]
    | cons i ss => simp [List.mapM_cons, Option.bind_eq_some_iff, sideField_eq_some, ih]

theorem exists_sides {xs : List Nat} (h : ∀ k ∈ xs, k < 128) : ∃ ss : List Side, ss.map Fin.val = xs := by
  induction xs with
  | nil => exact ⟨[], rfl⟩
  | cons x xs ih =>
    obtain ⟨ss, hss⟩ := ih fun k hk => h k (.tail _ hk)
    exact ⟨⟨x, h x (.head _)⟩ :: ss, by rw [List.map_cons, hss]⟩

variable {l : Library}

theorem Library.poolAddable_iff {ss : List Side} :
    l.poolAddable ss = true ↔ ss.Nodup ∧ ∀ i ∈ ss, l.role i = .unlisted ∧ l.location (slotOf i) ≠ .absent := by
  simp [Library.poolAddable]

theorem Library.poolRemovable_iff {ss : List Side} : l.poolRemovable ss = true ↔ ss.Nodup ∧ ∀ i ∈ ss, l.role i = .blank := by
  simp [Library.poolRemovable]

/-- R15: the sides of a pool write have their new role, and nothing else changes. -/
def Library.giveRole (l : Library) (r : Role) (ss : List Side) : Library := ss.foldl (fun l s => l.setRole s r) l

theorem Library.giveRole_rest (l : Library) (r : Role) (ss : List Side) :
    (l.giveRole r ss).books = l.books ∧ (l.giveRole r ss).care = l.care ∧ (l.giveRole r ss).picker = l.picker ∧ (l.giveRole r ss).log = l.log :=
  ⟨foldl_same (fun l i => Library.setRole l i r) Library.books (fun _ _ => rfl) ss l, foldl_same (fun l i => Library.setRole l i r) Library.care (fun _ _ => rfl) ss l, foldl_same (fun l i => Library.setRole l i r) Library.picker (fun _ _ => rfl) ss l,
    foldl_same (fun l i => Library.setRole l i r) Library.log (fun _ _ => rfl) ss l⟩

theorem Library.giveRole_role (l : Library) (r : Role) {ss : List Side} {xs : List Nat} (h : ss.map Fin.val = xs) (i : Side) :
    (l.giveRole r ss).role i = if i.val ∈ xs then r else l.role i := by
  have hmem : i.val ∈ xs ↔ i ∈ ss := by
    rw [← h, List.mem_map]
    exact ⟨fun ⟨j, hj, hji⟩ => Fin.ext hji ▸ hj, fun hi => ⟨i, hi, rfl⟩⟩
  rw [Library.giveRole, Library.setRoles_role]
  simp only [hmem]

theorem Library.addToPool_eq {ss : List Side} {xs : List Nat} (h : ss.map Fin.val = xs) :
    l.addToPool xs = if l.poolAddable ss then some (l.giveRole .blank ss).callRescue else none := by
  unfold Library.addToPool
  rw [poolSides_eq_some.mpr h]
  rfl

theorem Library.takeFromPool_eq {ss : List Side} {xs : List Nat} (h : ss.map Fin.val = xs) :
    l.takeFromPool xs = if l.poolRemovable ss then some (l.giveRole .unlisted ss) else none := by
  unfold Library.takeFromPool
  rw [poolSides_eq_some.mpr h]
  rfl

theorem nodup_sides {ss : List Side} {xs : List Nat} (h : ss.map Fin.val = xs) : ss.Nodup ↔ xs.Nodup := by
  rw [← h, List.nodup_map_iff Fin.val_injective]

theorem poolWrite_add {n : Nat} (h1 : 1 ≤ n) (h2 : n ≤ 128) (xs : List Nat) : poolWrite true n xs = .poolAdd (xs.take n) := if_pos ⟨h1, h2⟩

theorem poolWrite_remove {n : Nat} (h1 : 1 ≤ n) (h2 : n ≤ 128) (xs : List Nat) : poolWrite false n xs = .poolRemove (xs.take n) := if_pos ⟨h1, h2⟩

theorem poolWrite_refused {n : Nat} (h : n = 0 ∨ 128 < n) (add : Bool) (xs : List Nat) : poolWrite add n xs = .unknown true := if_neg (by omega)

section Awaited

variable {s : State} {tag : Tag} {x : Entry} {c : Instr} {w : ServiceWrite} {xs : List Nat} {a : Library} {read : Block → Option ServiceWrite}

/-- R15: a pool write whose checks pass. -/
theorem AwaitsWrite.pools (h : AwaitsWrite s tag x .pool) (hc : serviceRow c = some (tag, .opened, read)) (hr : read .pool = some w)
    (hw : w.refusal .opened = none) (hq : w.reacts = true) (ha : s.begin.applyWrite w = some { s.begin with lib := a }) (hf : a.front = s.lib.front) :
    ∃ u, exec c s = .next u ∧ Reacted s u s.env s.fee (a.endRequest tag .done 1 0) ∧ RequestEnds u.lib tag x .done 1 :=
  h.reacted hc hr hw ha hq ((congrArg (fun v : Front => look v.table tag) hf).trans h.entry)

theorem State.applyWrite_poolAdd (s : State) (xs : List Nat) : s.applyWrite (.poolAdd xs) = (s.lib.addToPool xs).map fun l => { s with lib := l } := rfl

theorem State.applyWrite_poolRemove (s : State) (xs : List Nat) : s.applyWrite (.poolRemove xs) = (s.lib.takeFromPool xs).map fun l => { s with lib := l } := rfl

end Awaited

/-- R15: a pool addition with a side that fails its checks. -/
theorem Library.addToPool_none {xs : List Nat}
    (h : ¬ xs.Nodup ∨ ∃ k ∈ xs, ∀ hk : k < 128, l.role ⟨k, hk⟩ ≠ .unlisted ∨ l.location (slotOf ⟨k, hk⟩) = .absent) : l.addToPool xs = none := by
  cases hp : poolSides xs with
  | none => unfold Library.addToPool; rw [hp]
  | some ss =>
    have hmap := poolSides_eq_some.mp hp
    rw [Library.addToPool_eq hmap, if_neg]
    rw [Library.poolAddable_iff]
    rintro ⟨hn, hall⟩
    rcases h with h | ⟨k, hk, h⟩
    · exact h ((nodup_sides hmap).mp hn)
    · rw [← hmap, List.mem_map] at hk
      obtain ⟨i, hi, rfl⟩ := hk
      obtain ⟨h1, h2⟩ := hall i hi
      rcases h i.isLt with h | h
      · exact h h1
      · exact h2 h

theorem Library.takeFromPool_none {xs : List Nat} (h : ¬ xs.Nodup ∨ ∃ k ∈ xs, ∀ hk : k < 128, l.role ⟨k, hk⟩ ≠ .blank) : l.takeFromPool xs = none := by
  cases hp : poolSides xs with
  | none => unfold Library.takeFromPool; rw [hp]
  | some ss =>
    have hmap := poolSides_eq_some.mp hp
    rw [Library.takeFromPool_eq hmap, if_neg]
    rw [Library.poolRemovable_iff]
    rintro ⟨hn, hall⟩
    rcases h with h | ⟨k, hk, h⟩
    · exact h ((nodup_sides hmap).mp hn)
    · rw [← hmap, List.mem_map] at hk
      obtain ⟨i, hi, rfl⟩ := hk
      exact h i.isLt (hall i hi)

/-- Settles O41. -/
theorem poolWritesChangeRoles : Obligations.PoolWritesChangeRoles := by
  intro s tag x sides n h
  refine ⟨fun h1 h2 hn hall => ?_, fun h1 h2 hn hall => ?_, fun h1 h2 hbad => ?_, fun h1 h2 hbad => ?_, fun hbad c hc => ?_⟩
  · obtain ⟨ss, hss⟩ := exists_sides fun k hk => (hall k hk).1
    have hadd : s.begin.lib.addToPool (sides.take n) = some (s.begin.lib.giveRole .blank ss).callRescue := by
      rw [Library.addToPool_eq hss, if_pos]
      refine Library.poolAddable_iff.mpr ⟨(nodup_sides hss).mpr hn, fun i hi => (hall i.val ?_).2⟩
      rw [← hss]
      exact List.mem_map_of_mem hi
    obtain ⟨hb, hcare, hp, hlog⟩ := s.begin.lib.giveRole_rest .blank ss
    obtain ⟨u, hu, hr, hends⟩ := h.pools (c := .poolAddition tag .opened n sides) rfl (congrArg some (poolWrite_add h1 h2 sides)) rfl rfl
      (by rw [State.applyWrite_poolAdd, hadd]; rfl) ((front_addToPool hadd).trans rfl)
    refine ⟨u, _, hu, hadd, hr, hends, fun i => s.begin.lib.giveRole_role .blank hss i, hb, ?_, hp, hlog⟩
    show ({ (s.begin.lib.giveRole .blank ss).care with seekDue := true } : Care) = _
    rw [hcare]
    rfl
  · obtain ⟨ss, hss⟩ := exists_sides fun k hk => (hall k hk).1
    have htake : s.begin.lib.takeFromPool (sides.take n) = some (s.begin.lib.giveRole .unlisted ss) := by
      rw [Library.takeFromPool_eq hss, if_pos]
      refine Library.poolRemovable_iff.mpr ⟨(nodup_sides hss).mpr hn, fun i hi => (hall i.val ?_).2⟩
      rw [← hss]
      exact List.mem_map_of_mem hi
    obtain ⟨hb, hcare, hp, hlog⟩ := s.begin.lib.giveRole_rest .unlisted ss
    obtain ⟨u, hu, hr, hends⟩ := h.pools (c := .poolRemoval tag .opened n sides) rfl (congrArg some (poolWrite_remove h1 h2 sides)) rfl rfl
      (by rw [State.applyWrite_poolRemove, htake]; rfl) ((front_takeFromPool htake).trans rfl)
    exact ⟨u, _, hu, htake, hr, hends, fun i => s.begin.lib.giveRole_role .unlisted hss i, hb, hcare, hp, hlog⟩
  · refine h.refused (c := .poolAddition tag .opened n sides) rfl (congrArg some (poolWrite_add h1 h2 sides)) (State.checkWrite_ownerRefused rfl ?_) nofun
    rw [State.applyWrite_poolAdd, Library.addToPool_none (l := s.begin.lib) hbad]
    rfl
  · refine h.refused (c := .poolRemoval tag .opened n sides) rfl (congrArg some (poolWrite_remove h1 h2 sides)) (State.checkWrite_ownerRefused rfl ?_) nofun
    rw [State.applyWrite_poolRemove, Library.takeFromPool_none (l := s.begin.lib) hbad]
    rfl
  · rcases hc with rfl | rfl
    · exact h.refusedAs (c := .poolAddition tag .opened n sides) rfl (congrArg some (poolWrite_refused hbad true sides)) rfl
    · exact h.refusedAs (c := .poolRemoval tag .opened n sides) rfl (congrArg some (poolWrite_refused hbad false sides)) rfl

end Sys2Proof.Machine
end

section
-- One declaration after the other: the stacks of the threads that wait for each other count against the check's memory limit.
set_option Elab.async false
namespace Sys2Proof.Machine

/-! # Responses, idle drives, order timers and availability -/

theorem Finished.entries {a b : Library} (h : Finished a b) (t : Tag) : b.entry t = a.entry t := h.entry t

/-- Settles O15. -/
theorem responseFreesEntry : Obligations.ResponseFreesEntry := by
  intro s r rest x hs hr hx hd he
  have hstep : exec .responseSent s = .next (State.finish { s.begin with lib := s.begin.lib.sendResponse r rest }) := by
    show execResponseSent s = _
    unfold execResponseSent
    rw [State.event_next _ hs]
    simp only [State.begin_front, hr, State.begin_entry, hx, hd, if_true]
    rfl
  have hfin := finish_finished (s.begin.lib.sendResponse r rest)
  have hending : (s.begin.lib.sendResponse r rest).front.ending = [] := he
  have hentry (u : Tag) : (s.begin.lib.sendResponse r rest).entry u = if r.tag = u then none else s.lib.entry u := Library.entry_setEntry ..
  have hsame : SameBlocks s.lib (s.begin.lib.sendResponse r rest) := ⟨rfl, rfl, rfl, rfl, rfl, rfl, rfl, rfl, rfl⟩
  refine ⟨_, hstep, rfl, rfl, rfl, hsame.trans hfin.sameBlocks, ?_, ?_, ?_, fun u hu => ?_⟩
  · rw [State.finish, hfin.out]; rfl
  · obtain ⟨rs, hrs, hp⟩ := hfin.responses
    rw [hending] at hp
    rw [State.finish, hrs, hp.eq_nil, List.append_nil]
    rfl
  · rw [State.finish, hfin.entry, hentry, if_pos rfl]
  · rw [State.finish, hfin.entry, hentry, if_neg (Ne.symm hu)]

/-- R110: what a drive that spins down is sent. -/
theorem Library.driveIdle_eq {l : Library} {d : Drive} (hr : (l.drive d).state = .ready) (hs : (l.drive d).service = none)
    (hi : ∀ i, l.mountedSide d = some i → ∀ x ∈ l.items i, x.kind ≠ .patrol) : l.driveIdle d = true := by
  unfold Library.driveIdle
  simp only [hr, hs, beq_self_eq_true, Option.isNone_none, Bool.true_and]
  cases hm : l.mountedSide d with
  | none => rfl
  | some i =>
    simp only [Bool.not_eq_true', List.any_eq_false]
    intro x hx hp
    refine hi i hm x hx ?_
    cases hk : x.kind <;> rw [hk] at hp <;> first | rfl | cases hp

/-- Settles O27. -/
theorem idleDriveSpinsDown : Obligations.IdleDriveSpinsDown := by
  intro s d hs hr hv hi
  have hidle : s.begin.lib.driveIdle d = true := Library.driveIdle_eq (l := s.begin.lib) hr hv hi
  have hstep : exec (.idleSpinDown d) s = .next (State.react { s.begin.reach ((s.lib.drive d).lastUse + 300) with
      lib := s.begin.lib.sendSpinDown (s.env.reach ((s.lib.drive d).lastUse + 300)) d } s.begin.lib) := by
    show execIdleSpinDown d s = _
    unfold execIdleSpinDown
    rw [State.event_next _ hs]
    exact congrArg Host.Outcome.next (if_pos hidle)
  have hreacted : Reacted s (State.react { s.begin.reach ((s.lib.drive d).lastUse + 300) with
      lib := s.begin.lib.sendSpinDown (s.env.reach ((s.lib.drive d).lastUse + 300)) d } s.begin.lib)
      { s.env with now := max s.env.now ((s.lib.drive d).lastUse + 300) } s.fee
      (({ s.lib with out := [.spinDown d] }).setDrive d
        { s.lib.drive d with state := .spinDown, limitStart := max s.env.now ((s.lib.drive d).lastUse + 300) }) := State.react_reacted rfl
  obtain ⟨os, hos⟩ := hreacted.lib.out
  refine ⟨_, os, hstep, hreacted, ?_, hos⟩
  have hk := (hreacted.lib.drive d).state
  rw [Library.setDrive_drive_same] at hk
  exact hk rfl

/-- Settles O32. -/
theorem orderTimerClosesOrder : Obligations.OrderTimerClosesOrder := by
  intro s k o hs ho
  have hstep : exec (.orderTimerExpiry k) s = .next { s.begin.reach (s.fee.schedule.expiry o) with fee := s.fee.closeOrder k } := by
    show execOrderTimerExpiry k s = _
    unfold execOrderTimerExpiry
    rw [State.event_next _ hs]
    simp only [State.begin_fee, ho]
    rfl
  refine ⟨_, hstep, rfl, rfl, rfl, look_put_same .., look_put_same .., fun j hj => ⟨look_put_ne _ _ (Ne.symm hj), look_put_ne _ _ (Ne.symm hj)⟩, rfl, rfl, rfl, rfl⟩

/-- Settles O50: the four rows of Table 1-7 by the location of the cartridge. -/
theorem availabilityFollowsTable : Obligations.AvailabilityFollowsTable := by
  intro e l i
  unfold Library.available
  cases hl : l.location (slotOf i) with
  | inDrive d g =>
    simp only [Library.reachable, Env.hasDrive, Bool.and_eq_true, Bool.or_eq_true, decide_eq_true_eq, bne_iff_ne, beq_iff_eq, Location.inDrive.injEq]
    grind
  | inSlot =>
    simp only [Library.reachable, Library.moving, Bool.and_eq_true, Bool.or_eq_true, bne_iff_ne]
    cases l.picker.record <;> simp
  | inPicker => simp [Library.reachable]
  | absent => simp [Library.reachable]

end Sys2Proof.Machine
end

section
-- One declaration after the other: the stacks of the threads that wait for each other count against the check's memory limit.
set_option Elab.async false
namespace Sys2Proof.Machine

/-! # What the outcome of a read is counted as -/

section Counted

variable {s u : State} {l : Library} {d : Drive} {side : Side} {b : Book} {f : Nat} {t : Option Tag} {rs : List ReadResult} {patrol : Bool}

/-- R65, R109: the library after a command of a drive has ended and its results have been counted. -/
def State.counted (s : State) (d : Drive) (patrol : Bool) (side : Side) (b : Book) (f : Nat) (t : Option Tag) (rs : List ReadResult) : Library :=
  (s.begin.lib.finishCommand s.env d patrol).countRead s.env d side b f t rs

theorem State.counted_same : SameButCounts s.begin.lib (s.counted d patrol side b f t rs) :=
  (finishCommand_ends s.env s.begin.lib d patrol).1.trans (countRead_counts s.env _ d side b f t rs).1

theorem State.counted_entry (v : Tag) : (s.counted d patrol side b f t rs).entry v = s.lib.entry v := State.counted_same.entry v

theorem State.counted_role (i : Side) : (s.counted d patrol side b f t rs).role i = s.lib.role i := State.counted_same.role i

theorem State.counted_book (k : Book) : (s.counted d patrol side b f t rs).book k = s.lib.book k := State.counted_same.book k

theorem State.counted_drive :
    (s.counted d patrol side b f t rs).drive d = ((s.lib.drive d).after s.env.now).count (countCorrected rs) (countFailed rs) := by
  obtain ⟨-, hd, -⟩ := finishCommand_ends s.env s.begin.lib d patrol
  obtain ⟨-, hc, -⟩ := countRead_counts s.env (s.begin.lib.finishCommand s.env d patrol) d side b f t rs
  rw [State.counted, hc, hd]
  rfl

theorem State.counted_drives {d' : Drive} (h : d' ≠ d) : (s.counted d patrol side b f t rs).drive d' = s.lib.drive d' := by
  obtain ⟨-, -, hd, -⟩ := finishCommand_ends s.env s.begin.lib d patrol
  obtain ⟨-, -, hc, -⟩ := countRead_counts s.env (s.begin.lib.finishCommand s.env d patrol) d side b f t rs
  rw [State.counted, hc d' h, hd d' h]
  rfl

theorem State.finished_health (i : Side) : (s.begin.lib.finishCommand s.env d patrol).health i = s.lib.health i := by
  obtain ⟨-, -, -, hcare, -⟩ := finishCommand_ends s.env s.begin.lib d patrol
  unfold Library.health
  rw [hcare]
  rfl

theorem State.counted_health : (s.counted d patrol side b f t rs).health side = (s.lib.health side).count (countCorrected rs) (countFailed rs) := by
  obtain ⟨-, -, -, hc, -⟩ := countRead_counts s.env (s.begin.lib.finishCommand s.env d patrol) d side b f t rs
  rw [State.counted, hc, State.finished_health]

theorem State.counted_healths {i : Side} (h : i ≠ side) : (s.counted d patrol side b f t rs).health i = s.lib.health i := by
  obtain ⟨-, -, -, -, hc, -⟩ := countRead_counts s.env (s.begin.lib.finishCommand s.env d patrol) d side b f t rs
  rw [State.counted, hc i h, State.finished_health]

theorem Library.untargeted_congr {a c : Library} (hr : c.roles = a.roles) (hc : c.care.rescue = a.care.rescue) {i : Side} : c.untargeted i ↔ a.untargeted i := by
  unfold Library.untargeted Library.role
  rw [hr, hc]

theorem State.counted_untargeted {i : Side} : (s.counted d patrol side b f t rs).untargeted i ↔ s.lib.untargeted i :=
  Library.untargeted_congr (a := s.begin.lib) State.counted_same.roles State.counted_same.rescue

/-- What comes after the counting of a read and keeps the counts. -/
structure KeepsCounts (a c : Library) : Prop where
  drive : ∀ d, (a.drive d).KeptTo (c.drive d)
  health : ∀ i, a.untargeted i → c.untargeted i ∧ (c.health i).corrected = (a.health i).corrected ∧ (c.health i).uncorrectable = (a.health i).uncorrectable
  first : ∀ r, a.log.first = some r → c.log.first = some r

theorem KeepsCounts.trans {a c g : Library} (h : KeepsCounts a c) (k : KeepsCounts c g) : KeepsCounts a g where
  drive d := (h.drive d).trans (k.drive d)
  health i hi := by
    obtain ⟨h1, h2, h3⟩ := h.health i hi
    obtain ⟨k1, k2, k3⟩ := k.health i h1
    exact ⟨k1, k2.trans h2, k3.trans h3⟩
  first r hr := k.first r (h.first r hr)

theorem Settled.keepsCounts {e : Env} {a c : Library} (h : Settled e a c) : KeepsCounts a c where
  drive := h.drive
  health i hi := by
    obtain ⟨h1, h2, h3, -⟩ := h.health i hi
    exact ⟨h1, h2, h3⟩
  first := h.first

theorem Kept.keepsCounts {e : Env} {a c : Library} (h : Kept e a c) : KeepsCounts a c where
  drive := h.drive
  health i hi := by
    obtain ⟨h1, h2, h3, -⟩ := h.health i hi
    exact ⟨h1, h2, h3⟩
  first := h.first

/-- R65, R115, R161: the counts that an outcome leaves, where the rest of its event keeps them. -/
theorem readCounted_of_keeps (h : KeepsCounts (s.counted d patrol side b f t rs) u.lib) : ReadCounted s u d side rs := by
  have hd := h.drive d
  have hdrive := State.counted_drive (s := s) (d := d) (patrol := patrol) (side := side) (b := b) (f := f) (t := t) (rs := rs)
  refine ⟨by rw [hd.failures, hdrive]; rfl, by rw [hd.lastUse, hdrive]; rfl, by rw [hd.corrected, hdrive]; rfl, by rw [hd.uncorrectable, hdrive]; rfl,
    by rw [hd.commandFailures, hdrive]; rfl, fun hs => ?_, fun d' hd' => ?_, fun i hi hs => ?_⟩
  · obtain ⟨-, h2, h3⟩ := h.health side (State.counted_untargeted.mpr hs)
    rw [h2, h3, State.counted_health]
    exact ⟨rfl, rfl⟩
  · have hk := h.drive d'
    rw [State.counted_drives hd'] at hk
    exact hk
  · obtain ⟨-, h2, h3⟩ := h.health i (State.counted_untargeted.mpr hs)
    rw [h2, h3, State.counted_healths hi]
    exact ⟨rfl, rfl⟩

theorem countFailed_pos (h : ∃ r ∈ rs, r = .uncorrectable ∨ r = .blank) : 0 < countFailed rs := by
  obtain ⟨r, hr, hk⟩ := h
  refine List.length_pos_of_mem (a := r) (List.mem_filter.mpr ⟨hr, ?_⟩)
  rcases hk with rfl | rfl <;> rfl

/-- R177: a failed result is the first fault of its event where the record is empty. -/
theorem countRead_first (e : Env) (h : ∃ r ∈ rs, r = .uncorrectable ∨ r = .blank) (hl : l.log.first = none) (hm : KindSet.has e.mask .readUncorrectable = false)
    (hq : l.care.queue.length < 8) :
    (l.countRead e d side b f t rs).log.first = some ⟨.readUncorrectable, some b, some side, some f, some d, none, t, e.day⟩ := by
  have hpos := countFailed_pos h
  unfold Library.countRead
  dsimp only
  rw [if_pos hpos, if_pos (by omega), trigger_log (by exact hq)]
  exact fault_first (by exact hl) hm

theorem failedReadLogged_of_keeps (h : KeepsCounts (s.counted d patrol side b f t rs) u.lib) : FailedReadLogged s u d side b f t rs := fun hr hl hm hq => by
  obtain ⟨-, -, -, hcare, hlog, -⟩ := finishCommand_ends s.env s.begin.lib d patrol
  exact h.first _ (countRead_first s.env hr (by rw [hlog]; exact hl) hm (by rw [hcare]; exact hq))

end Counted

/-- Settles O16: the outcome is counted first; what it does to its window keeps the counts. -/
theorem fetchReadOutcomeCounted : Obligations.FetchReadOutcomeCounted := by
  intro s d v t b f ss live k rs hv hc hn
  have hstep : exec (.fetchReadOutcome d rs) s
      = .next (State.react { s.begin with lib := (s.counted d false v.side b f (some t) rs).fetchOutcome s.env t b f live ss rs } s.begin.lib) := by
    show execFetchReadOutcome d rs s = _
    unfold execFetchReadOutcome
    rw [State.outcome_next _ hv.started hv.state hv.service hv.fresh]
    simp only [hc, hn, if_true]
    rfl
  have hr : Reacted s (State.react { s.begin with lib := (s.counted d false v.side b f (some t) rs).fetchOutcome s.env t b f live ss rs } s.begin.lib) s.env s.fee
      ((s.counted d false v.side b f (some t) rs).fetchOutcome s.env t b f live ss rs) := State.react_reacted rfl
  have hk := (kept_fetchOutcome s.env (s.counted d false v.side b f (some t) rs) t b f live ss rs).keepsCounts.trans hr.lib.keepsCounts
  exact ⟨_, hstep, hr, readCounted_of_keeps hk, failedReadLogged_of_keeps hk⟩

/-! ## The sectors of a window -/

theorem find_zip_none {ss : List Nat} {rs : List ReadResult} {n : Nat} (h : n ∉ ss) : (ss.zip rs).find? (fun p => p.1 == n) = none := by
  rw [List.find?_eq_none]
  intro p hp hn
  have := List.of_mem_zip hp
  rw [beq_iff_eq] at hn
  exact h (hn ▸ this.1)

/-- In a list of sectors without duplicates a sector has one result. -/
theorem find_zip_some : ∀ {ss : List Nat} {rs : List ReadResult} {n i : Nat} {r : ReadResult}, ss.Nodup → ss[i]? = some n → rs[i]? = some r →
    (ss.zip rs).find? (fun p => p.1 == n) = some (n, r)
  | [], _, _, _, _, _, hs, _ => by simp at hs
  | _ :: _, [], _, _, _, _, _, hr => by simp at hr
  | m :: ss, q :: rs, n, 0, r, _, hs, hr => by
    simp only [List.getElem?_cons_zero, Option.some.injEq] at hs hr
    rw [List.zip_cons_cons, List.find?_cons_of_pos (by simp [hs]), hs, hr]
  | m :: ss, q :: rs, n, i + 1, r, hn, hs, hr => by
    rw [List.nodup_cons] at hn
    simp only [List.getElem?_cons_succ] at hs hr
    have hm : m ≠ n := fun h => hn.1 (h ▸ List.mem_of_getElem? hs)
    rw [List.zip_cons_cons, List.find?_cons_of_neg (by simpa using hm)]
    exact find_zip_some hn.2 hs hr

/-- Settles O17: the result that the outcome holds for a sector decides what the sector becomes. -/
theorem readResultsFillWindow : Obligations.ReadResultsFillWindow := by
  intro w ss rs j old hn hs hj
  have hget : (w.receive ss rs).sectors[j]? = _ := (List.getElem?_mapIdx ..).trans (congrArg (Option.map _) hj)
  refine ⟨List.length_mapIdx, fun hnot => ?_, fun i hi => ⟨fun x hx => ?_, fun x hx => ?_, fun hx => ?_⟩⟩
  · rw [hget, Option.map_some, find_zip_none hnot]
  · rw [hget, Option.map_some, find_zip_some hs hi hx]
  · rw [hget, Option.map_some, find_zip_some hs hi hx]
  · rcases hx with hx | hx <;> rw [hget, Option.map_some, find_zip_some hs hi hx]

end Sys2Proof.Machine
end

section
-- One declaration after the other: the stacks of the threads that wait for each other count against the check's memory limit.
set_option Elab.async false
namespace Sys2Proof.Machine

/-! # Patrol verifies and rescue writes -/

section Patrol

variable {e : Env} {l : Library} {i : Side} {f : Nat}

/-- R164: the side's patrol mark has passed the frame verified. -/
def Library.patrolMarked (l : Library) (i : Side) (f : Nat) : Library := l.setHealth i { l.health i with patrolMark := f + 1 }

theorem Library.patrolled_eq (e : Env) (l : Library) (i : Side) (f : Nat) :
    l.patrolled e i f = if (l.patrolMarked i f).patrolGoesOn e i then (l.patrolMarked i f).callPatrol else (l.patrolMarked i f).fullPass e i := rfl

/-- R164: whether the pass goes on depends on the frames of the side's book between its mark and its top. -/
theorem Library.patrolGoesOn_iff {c : Book} (h : (l.role i).holds = some c) :
    (l.patrolMarked i f).patrolGoesOn e i = true ↔ ∃ g, f + 1 ≤ g ∧ g < l.patrolTop i ∧ (e.frame c g).filed = true := by
  unfold Library.patrolGoesOn
  rw [show ((l.patrolMarked i f).role i).holds = some c from h, show (l.patrolMarked i f).health i = { l.health i with patrolMark := f + 1 } from look_put_same ..]
  simp only [List.any_eq_true, List.mem_range'_1]
  rw [show (l.patrolMarked i f).patrolTop i = l.patrolTop i from rfl]
  constructor
  · rintro ⟨g, ⟨h1, h2⟩, h3⟩; exact ⟨g, h1, by omega, h3⟩
  · rintro ⟨g, h1, h2, h3⟩; exact ⟨g, ⟨h1, by omega⟩, h3⟩

theorem Library.dropPatrolMount_rest (l : Library) (i : Side) :
    (l.dropPatrolMount i).scheduler.patrolMount ≠ some i ∧ (l.dropPatrolMount i).drives = l.drives ∧ (l.dropPatrolMount i).care = l.care
      ∧ (l.dropPatrolMount i).log = l.log ∧ (l.dropPatrolMount i).roles = l.roles ∧ (l.dropPatrolMount i).front = l.front
      ∧ (l.dropPatrolMount i).books = l.books := by
  unfold Library.dropPatrolMount
  split
  · exact ⟨nofun, rfl, rfl, rfl, rfl, rfl, rfl⟩
  next h => exact ⟨h, rfl, rfl, rfl, rfl, rfl, rfl⟩

/-- R164: what a full pass leaves. -/
theorem Library.fullPass_rest (e : Env) (l : Library) (i : Side) :
    (l.fullPass e i).scheduler.patrolMount ≠ some i ∧ (l.fullPass e i).drives = l.drives
      ∧ (l.fullPass e i).health = (l.setHealth i { l.health i with patrolMark := 0, lastPass := some e.day }).health
      ∧ (l.fullPass e i).log = l.log ∧ (l.fullPass e i).roles = l.roles ∧ (l.fullPass e i).front = l.front ∧ (l.fullPass e i).books = l.books
      ∧ (l.fullPass e i).care.rescue = l.care.rescue := by
  obtain ⟨h1, h2, h3, h4, h5, h6, h7⟩ := (l.setHealth i { l.health i with patrolMark := 0, lastPass := some e.day }).dropPatrolMount_rest i
  refine ⟨h1, h2, ?_, h4, h5, h6, h7, ?_⟩
  · funext j
    have hj := congrArg (fun c : Care => look c.health j) h3
    exact hj
  · have hr := congrArg Care.rescue h3
    exact hr

/-- What the patrol does after a verify has been counted: the marks of one side, and no request, role, drive or fault. -/
structure PatrolMoves (l a : Library) (i : Side) : Prop where
  front : a.front = l.front
  books : a.books = l.books
  roles : a.roles = l.roles
  rescue : a.care.rescue = l.care.rescue
  drives : a.drives = l.drives
  log : a.log = l.log
  counts : ∀ j, (a.health j).corrected = (l.health j).corrected ∧ (a.health j).uncorrectable = (l.health j).uncorrectable

theorem PatrolMoves.keepsCounts {a : Library} (h : PatrolMoves l a i) : KeepsCounts l a where
  drive d := by
    rw [show a.drive d = l.drive d from congrArg (fun v : Vector DriveRecord 4 => look v d) h.drives]
    exact .refl _
  health j hj := ⟨(Library.untargeted_congr h.roles h.rescue).mpr hj, h.counts j⟩
  first r hr := by rw [h.log]; exact hr

theorem health_patrolMarked (l : Library) (i j : Side) (f : Nat) :
    (l.patrolMarked i f).health j = if i = j then { l.health i with patrolMark := f + 1 } else l.health j := Library.setHealth_health ..

/-- R164: the mark of the frame verified, or the full pass. -/
theorem patrolled_moves (e : Env) (l : Library) (i : Side) (f : Nat) :
    PatrolMoves l (l.patrolled e i f) i
      ∧ ((l.patrolMarked i f).patrolGoesOn e i = true → ((l.patrolled e i f).health i).patrolMark = f + 1
        ∧ ((l.patrolled e i f).health i).lastPass = (l.health i).lastPass)
      ∧ ((l.patrolMarked i f).patrolGoesOn e i ≠ true → ((l.patrolled e i f).health i).patrolMark = 0
        ∧ ((l.patrolled e i f).health i).lastPass = some e.day ∧ (l.patrolled e i f).scheduler.patrolMount ≠ some i) := by
  rw [Library.patrolled_eq]
  split
  next hg =>
    have hh (j : Side) : (l.patrolMarked i f).callPatrol.health j = _ := health_patrolMarked l i j f
    refine ⟨⟨rfl, rfl, rfl, rfl, rfl, rfl, fun j => ?_⟩, fun _ => ?_, fun h => absurd hg h⟩
    · rw [hh]
      split
      next hj => rw [hj]; exact ⟨rfl, rfl⟩
      next => exact ⟨rfl, rfl⟩
    · rw [hh, if_pos rfl]; exact ⟨rfl, rfl⟩
  next hg =>
    obtain ⟨h1, h2, h3, h4, h5, h6, h7, h8⟩ := (l.patrolMarked i f).fullPass_rest e i
    have hh (j : Side) : ((l.patrolMarked i f).fullPass e i).health j
        = if i = j then { (l.patrolMarked i f).health i with patrolMark := 0, lastPass := some e.day } else (l.patrolMarked i f).health j := by
      rw [h3, Library.setHealth_health]
    refine ⟨⟨h6, h7, h5, h8, h2, h4, fun j => ?_⟩, fun h => absurd h hg, fun _ => ?_⟩
    · rw [hh, health_patrolMarked, health_patrolMarked]
      split
      next hj => rw [if_pos rfl, ← hj]; exact ⟨rfl, rfl⟩
      next => exact ⟨rfl, rfl⟩
    · rw [hh, if_pos rfl]; exact ⟨rfl, rfl, h1⟩

/-- Settles O23: the outcome is counted; then the patrol moves on. -/
theorem patrolVerifyAdvances : Obligations.PatrolVerifyAdvances := by
  intro s d v b f n rs hv hc hn
  let l := s.counted d true v.side b f none rs
  have hstep : exec (.patrolVerifyOutcome d rs) s = .next (State.react { s.begin with lib := l.patrolled s.env v.side f } s.begin.lib) := by
    show execPatrolVerifyOutcome d rs s = _
    unfold execPatrolVerifyOutcome
    rw [State.outcome_next _ hv.started hv.state hv.service hv.fresh]
    simp only [hc, hn, if_true]
    rfl
  have hr : Reacted s (State.react { s.begin with lib := l.patrolled s.env v.side f } s.begin.lib) s.env s.fee (l.patrolled s.env v.side f) :=
    State.react_reacted rfl
  obtain ⟨hm, hon, hfull⟩ := patrolled_moves s.env l v.side f
  have hk := hm.keepsCounts.trans hr.lib.keepsCounts
  have htop : l.patrolTop v.side = s.lib.patrolTop v.side := by
    unfold Library.patrolTop
    rw [State.counted_role]
    simp only [l, State.counted_book]
  have hlast : (l.health v.side).lastPass = (s.lib.health v.side).lastPass := by
    simp only [l]
    rw [State.counted_health]
    rfl
  refine ⟨_, hstep, hr, readCounted_of_keeps hk, failedReadLogged_of_keeps hk, fun c hcbook => ?_, fun hu => ?_, fun t x hx => ?_, fun c => ?_⟩
  · have hgoes := Library.patrolGoesOn_iff (e := s.env) (l := l) (i := v.side) (f := f) (c := c) (by rw [State.counted_role]; exact hcbook)
    rw [htop] at hgoes
    refine ⟨fun hex => ?_, fun hall => ?_⟩
    · obtain ⟨h1, h2⟩ := hon (hgoes.mpr hex)
      exact ⟨h1, h2.trans hlast⟩
    · refine hfull fun hg => ?_
      obtain ⟨g, h1, h2, h3⟩ := hgoes.mp hg
      rw [hall g h1 h2] at h3
      cases h3
  · have hua : (l.patrolled s.env v.side f).untargeted v.side := (Library.untargeted_congr hm.roles hm.rescue).mpr (State.counted_untargeted.mpr hu)
    obtain ⟨-, -, -, ⟨h1, h2⟩ | ⟨h1, h2⟩⟩ := hr.lib.health v.side hua
    · rw [h1, h2]
      by_cases hg : (l.patrolMarked v.side f).patrolGoesOn s.env v.side = true
      · exact .inl (hon hg).1
      · exact .inr ⟨(hfull hg).1, (hfull hg).2.1⟩
    · exact .inr ⟨h1, h2⟩
  · have hx' : (l.patrolled s.env v.side f).entry t = some x := by
      rw [show (l.patrolled s.env v.side f).entry t = l.entry t from congrArg (fun w : Front => look w.table t) hm.front]
      exact State.counted_entry t ▸ hx
    exact hr.lib.entry t x hx'
  · rw [hr.lib.filing c, show (l.patrolled s.env v.side f).book c = l.book c from congrArg (fun w : Vector BookEntry 127 => look w c) hm.books, State.counted_book]

end Patrol

end Sys2Proof.Machine
end

section
-- One declaration after the other: the stacks of the threads that wait for each other count against the check's memory limit.
set_option Elab.async false
namespace Sys2Proof.Machine

/-! # Rescue writes -/

section Rescue

variable {s u : State} {d : Drive} {v : InService} {b : Book} {f : Nat} {live : Bool} {l : Library}

/-- R109: the library after a sector command of a drive has ended. -/
theorem State.finishCommand_same (s : State) (d : Drive) :
    SameButCounts s.begin.lib (s.begin.finishCommand d).lib ∧ (s.begin.finishCommand d).lib.care = s.lib.care
      ∧ (s.begin.finishCommand d).lib.log = s.lib.log ∧ (s.begin.finishCommand d).lib.drive d = (s.lib.drive d).after s.env.now
      ∧ ∀ d', d' ≠ d → (s.begin.finishCommand d).lib.drive d' = s.lib.drive d' := by
  obtain ⟨h1, h2, h3, h4, h5, -⟩ := finishCommand_ends s.env s.begin.lib d false
  exact ⟨h1, h4, h5, h2, h3⟩

/-- R173: a verified rescue write with its reactions. -/
theorem exec_rescueWriteVerified (hv : Answered s d v) (hc : v.command = .rescueWrite b f live) :
    exec (.rescueWriteVerified d) s = .next (State.react { s.begin with
      lib := if live = true then (s.begin.finishCommand d).lib.setBatchState f .written else (s.begin.finishCommand d).lib } s.begin.lib) := by
  show execRescueWriteVerified d s = _
  unfold execRescueWriteVerified
  rw [State.outcome_next _ hv.started hv.state hv.service hv.fresh]
  simp only [hc]

/-- R174: what a WRITE_FAIL of a rescue write leaves before the target is given up. -/
def State.rescueWriteCounted (s : State) (d : Drive) (side : Side) (b : Book) (f : Nat) : Library :=
  ((s.begin.finishCommand d).lib.countWriteFail s.env side).faultWrite s.env b side f d none

theorem State.rescueWriteCounted_same (s : State) (d : Drive) (side : Side) (b : Book) (f : Nat) :
    SameButCounts s.begin.lib (s.rescueWriteCounted d side b f) ∧ ((s.rescueWriteCounted d side b f).health side) = (s.lib.health side).count 0 1
      ∧ (s.lib.log.first = none → KindSet.has s.env.mask .writeFailed = false → s.lib.care.queue.length < 8 →
        (s.rescueWriteCounted d side b f).log.first = some ⟨.writeFailed, some b, some side, some f, some d, none, none, s.env.day⟩) := by
  obtain ⟨h1, hcare, hlog, -, -⟩ := s.finishCommand_same d
  obtain ⟨k1, -, k2, -, -, -, k3⟩ := countWriteFail_counts s.env (s.begin.finishCommand d).lib side
  refine ⟨(h1.trans k1).trans (fault_same ..), ?_, fun hl hm hq => ?_⟩
  · show ((s.begin.finishCommand d).lib.countWriteFail s.env side).health side = _
    rw [k2]
    exact congrArg (fun c : Care => (look c.health side).count 0 1) hcare
  · exact fault_first (by rw [k3 (by rw [hcare]; exact hq), hlog]; exact hl) hm

/-- R174: the target of the rescue is given up where the write was to it. -/
def Library.failTarget (l : Library) (side : Side) : Library :=
  match l.care.rescue with
  | some r => if r.target = some side then l.loseTarget r side else l
  | none => l

theorem exec_rescueWriteFail (hv : Answered s d v) (hc : v.command = .rescueWrite b f live) :
    exec (.rescueWriteFail d) s = .next (State.react { s.begin with lib := (s.rescueWriteCounted d v.side b f).failTarget v.side } s.begin.lib) := by
  show execRescueWriteFail d s = _
  unfold execRescueWriteFail
  rw [State.outcome_next _ hv.started hv.state hv.service hv.fresh]
  simp only [hc]
  rfl

theorem Library.failTarget_log (l : Library) (side : Side) : (l.failTarget side).log = l.log := by
  unfold Library.failTarget
  (repeat' split) <;> rfl

/-- R174: no item of the batch stands on any list after it has gone. -/
theorem Library.loseTarget_items (l : Library) (r : RescueRecord) (side i : Side) :
    ∀ x ∈ (l.loseTarget r side).items i, x.kind ≠ .rescueRead ∧ x.kind ≠ .rescueWrite := by
  intro x hx
  have hitems : (l.loseTarget r side).items i = (l.items i).filter fun x => !(x.kind == .rescueRead || x.kind == .rescueWrite) := look_map ..
  rw [hitems, List.mem_filter] at hx
  simpa using hx.2

/-- R174: what else the loss of the target changes, and what it leaves. -/
theorem Library.loseTarget_rest (l : Library) (r : RescueRecord) (i : Side) :
    (l.loseTarget r i).care.rescue = some { r with target := none, copyMark := 0 } ∧ (l.loseTarget r i).care.batch = none
      ∧ (l.loseTarget r i).books = l.books ∧ (∀ t, (l.loseTarget r i).entry t = l.entry t) ∧ (l.loseTarget r i).buffer = l.buffer
      ∧ ∀ j, (l.loseTarget r i).health j = l.health j := ⟨rfl, rfl, rfl, fun _ => rfl, rfl, fun _ => rfl⟩

theorem Library.loseTarget_role (l : Library) (r : RescueRecord) (i j : Side) :
    (l.loseTarget r i).role j = if i = j then .retired r.book else l.role j := Library.setRole_role ..

/-- Settles O22: the outcome is counted; then the frame of the batch is written, or the target given up. -/
theorem rescueWriteOutcomes : Obligations.RescueWriteOutcomes := by
  refine ⟨fun s d v b f live hv hc => ?_, fun s d v b f live hv hc => ?_⟩
  · obtain ⟨hsame, hcare, -, hdrive, -⟩ := s.finishCommand_same d
    have hr : Reacted s (State.react { s.begin with
        lib := if live = true then (s.begin.finishCommand d).lib.setBatchState f .written else (s.begin.finishCommand d).lib } s.begin.lib) s.env s.fee
        (if live = true then (s.begin.finishCommand d).lib.setBatchState f .written else (s.begin.finishCommand d).lib) := State.react_reacted rfl
    have hk := hr.lib.drive d
    have hd : (if live = true then (s.begin.finishCommand d).lib.setBatchState f .written else (s.begin.finishCommand d).lib).drive d
        = (s.lib.drive d).after s.env.now := by split <;> exact hdrive
    refine ⟨_, exec_rescueWriteVerified hv hc, hr, fun hl => ?_, fun hl => ?_, ?_, ?_, ?_, fun t => ?_, by rw [hk.failures, hd]; rfl, by rw [hk.lastUse, hd]; rfl⟩
    · rw [if_pos hl, ← hcare]; rfl
    · rw [if_neg (by simp [hl])]; exact hcare
    · split <;> exact hsame.rescue
    · split <;> exact hsame.roles
    · split <;> exact hsame.books
    · split <;> exact hsame.entry t
  · obtain ⟨hsame, hhealth, hlog⟩ := s.rescueWriteCounted_same d v.side b f
    have hr : Reacted s (State.react { s.begin with lib := (s.rescueWriteCounted d v.side b f).failTarget v.side } s.begin.lib) s.env s.fee
        ((s.rescueWriteCounted d v.side b f).failTarget v.side) := State.react_reacted rfl
    have hrescue : (s.rescueWriteCounted d v.side b f).care.rescue = s.lib.care.rescue := hsame.rescue
    refine ⟨_, exec_rescueWriteFail hv hc, fun r hrec ht => ?_, fun hno => ?_, fun h1 h2 h3 => ?_⟩
    · have heq : (s.rescueWriteCounted d v.side b f).failTarget v.side = (s.rescueWriteCounted d v.side b f).loseTarget r v.side := by
        unfold Library.failTarget
        rw [hrescue, hrec]
        exact if_pos ht
      obtain ⟨h1, h2, h3, h4, h5, h6⟩ := (s.rescueWriteCounted d v.side b f).loseTarget_rest r v.side
      have hrole := (s.rescueWriteCounted d v.side b f).loseTarget_role r v.side
      have hitems := (s.rescueWriteCounted d v.side b f).loseTarget_items r v.side
      rw [heq] at hr ⊢
      refine ⟨hr, (hrole _).trans (if_pos rfl), fun i hi => ?_, h1, h2, hitems, ?_, h3.trans hsame.books,
        fun t => (h4 t).trans (hsame.entry t), (congrArg Buffer.hold h5).trans (congrArg Buffer.hold hsame.buffer)⟩
      · exact ((hrole i).trans (if_neg (Ne.symm hi))).trans (congrArg (fun v : Vector Role 128 => look v i) hsame.roles)
      · exact congrArg Health.uncorrectable ((h6 _).trans hhealth)
    · have heq : (s.rescueWriteCounted d v.side b f).failTarget v.side = s.rescueWriteCounted d v.side b f := by
        unfold Library.failTarget
        split
        next r hrec =>
          rw [if_neg]
          exact hno r (hrescue.symm.trans hrec)
        next => rfl
      rw [heq] at hr ⊢
      exact hr
    · exact hr.lib.first _ (by rw [Library.failTarget_log]; exact hlog h1 h2 h3)

end Rescue

end Sys2Proof.Machine
end

section
-- One declaration after the other: the stacks of the threads that wait for each other count against the check's memory limit.
set_option Elab.async false
namespace Sys2Proof.Machine

/-! # Rescue reads -/

section TurnFrame

variable {e : Env} {l : Library} {r : RescueRecord} {x : BatchFrame} {i : Nat} {v : Sector}

/-- R171: a frame that has its data filled in keeps what it had. -/
theorem BatchFrame.fillFrom_data (h : HoldEntry) (hx : x.data[i]? = some (some v)) : (x.fillFrom h).data[i]? = some (some v) := by
  simp [BatchFrame.fillFrom, hx]

/-- R171: what the next copy of a frame leaves of it. -/
theorem Library.turnFrame_rest (e : Env) (l : Library) (r : RescueRecord) (x : BatchFrame) :
    (l.turnFrame e r x).frame = x.frame ∧ (l.turnFrame e r x).len = x.len ∧ (l.turnFrame e r x).reading = x.reading
      ∧ (∀ c, (l.turnFrame e r x).failedOn c = x.failedOn c)
      ∧ ∀ (i : Nat) (v : Sector), x.data[i]? = some (some v) → (l.turnFrame e r x).data[i]? = some (some v) := by
  unfold Library.turnFrame
  dsimp only
  split
  · exact ⟨rfl, rfl, rfl, fun c => by cases c <;> rfl, fun _ _ h => h⟩
  split
  next h _ => exact ⟨rfl, rfl, rfl, fun c => by cases c <;> rfl, fun _ _ => BatchFrame.fillFrom_data h⟩
  split
  · exact ⟨rfl, rfl, rfl, fun c => by cases c <;> rfl, fun _ _ h => h⟩
  · exact ⟨rfl, rfl, rfl, fun c => by cases c <;> rfl, fun _ _ h => h⟩

theorem BatchFrame.failOn_failedOn (x : BatchFrame) (c : Copy) : (x.failOn c).failedOn c = true := by cases c <;> rfl

theorem BatchFrame.failOn_rest (x : BatchFrame) (c : Copy) :
    (x.failOn c).frame = x.frame ∧ (x.failOn c).len = x.len ∧ (x.failOn c).reading = x.reading ∧ (x.failOn c).data = x.data := by
  cases c <;> exact ⟨rfl, rfl, rfl, rfl⟩

/-- R170: the data that a result brings. -/
theorem BatchFrame.receive_data {ss : List Nat} {rs : List ReadResult} {j : Nat} (hn : ss.Nodup) (hs : ss[j]? = some i) (hi : i < x.data.length)
    (hr : rs[j]? = some (.ok v) ∨ rs[j]? = some (.corrected v)) : (x.receive ss rs).data[i]? = some (some v) := by
  have hget : (x.receive ss rs).data[i]? = _ := (List.getElem?_mapIdx ..).trans (congrArg (Option.map _) (List.getElem?_eq_getElem hi))
  rw [hget, Option.map_some]
  rcases hr with hr | hr <;> rw [find_zip_some hn hs hr] <;> rfl

variable {side : Side} {ss : List Nat} {rs : List ReadResult}

theorem Library.rescueRead_ready (h : (x.receive ss rs).lacking = []) :
    l.rescueRead e r side x ss rs = { x.receive ss rs with state := .ready, waits := none } := by
  unfold Library.rescueRead
  dsimp only
  rw [h]
  rfl

theorem Library.rescueRead_turned (h : (x.receive ss rs).lacking ≠ []) :
    l.rescueRead e r side x ss rs = l.turnFrame e r ((x.receive ss rs).failOn (r.copyOf side)) := by
  unfold Library.rescueRead
  dsimp only
  rw [if_neg (by simpa using h)]

/-- R170, R171: what the outcome of its read keeps of a frame. -/
theorem Library.rescueRead_rest (e : Env) (l : Library) (r : RescueRecord) (side : Side) (x : BatchFrame) (ss : List Nat) (rs : List ReadResult) :
    (l.rescueRead e r side x ss rs).frame = x.frame ∧ (l.rescueRead e r side x ss rs).len = x.len ∧ (l.rescueRead e r side x ss rs).reading = false
      ∧ ∀ (i : Nat) (v : Sector), (x.receive ss rs).data[i]? = some (some v) → (l.rescueRead e r side x ss rs).data[i]? = some (some v) := by
  by_cases h : (x.receive ss rs).lacking = []
  · rw [Library.rescueRead_ready h]; exact ⟨rfl, rfl, rfl, fun _ _ hx => hx⟩
  · rw [Library.rescueRead_turned h]
    obtain ⟨h1, h2, h3, -, h4⟩ := l.turnFrame_rest e r ((x.receive ss rs).failOn (r.copyOf side))
    obtain ⟨k1, k2, k3, k4⟩ := (x.receive ss rs).failOn_rest (r.copyOf side)
    exact ⟨h1.trans k1, h2.trans k2, h3.trans k3, fun i v hx => h4 i v (by rw [k4]; exact hx)⟩

end TurnFrame

section FrameLost

variable {e : Env} {l : Library} {b : Book} {f : Nat} {side : Side}

theorem keptBut_twinFrameLost (e : Env) (l : Library) (b : Book) (f : Nat) : KeptBut e l (l.twinFrameLost e b f) := by
  unfold Library.twinFrameLost
  dsimp only
  exact (((kept_setTwin e l b _).trans (kept_mapCommands e _ _)).trans (kept_dropRereads e _ b _)).toKeptBut.trans (keptBut_examine e _ b)

/-- R172: the fault that the loss of a frame records. -/
def Env.lostFault (e : Env) (b : Book) (f : Nat) (side : Side) : FaultRecord :=
  ⟨.frameLost, some b, some side, some f, none, none, none, e.day⟩

/-- R172: after FRAME_LOST has been recorded the loss of a frame touches no count, no fault and no role. -/
theorem keptBut_frameLost (e : Env) (l : Library) (b : Book) (f : Nat) (side : Side) :
    KeptBut e (l.fault e (e.lostFault b f side)) (l.frameLost e b f side) :=
  (Kept.foldl (fun l t => kept_windowsLost e l t b f) allTags _).toKeptBut.trans (keptBut_twinFrameLost e _ b f)

/-- R178: a fault that is not masked is the first or joins the later set. -/
theorem fault_recorded {q : FaultRecord} (hm : KindSet.has e.mask q.kind = false) :
    (l.fault e q).log.first = some q ∨ KindSet.has (l.fault e q).log.later q.kind = true := by
  cases hl : l.log.first with
  | none => exact .inl (fault_first hl hm)
  | some p =>
    refine .inr ?_
    have : (l.fault e q).log.later = KindSet.with l.log.later q.kind := by simp [Library.fault, FaultLog.record, hm, hl]
    rw [this]
    cases q.kind <;> simp [KindSet.has, KindSet.with, FaultKind.code]

theorem fault_masked {q : FaultRecord} (hm : KindSet.has e.mask q.kind = true) : (l.fault e q).log = l.log := by
  simp [Library.fault, FaultLog.record, hm]

theorem keepsCounts_fault (e : Env) (l : Library) (q : FaultRecord) : KeepsCounts l (l.fault e q) := (kept_fault e l q).keepsCounts

theorem KeptBut.keepsCounts {a c : Library} (h : KeptBut e a c) : KeepsCounts a c where
  drive := h.drive
  health i hi := by
    obtain ⟨h1, h2, h3, -⟩ := h.health i hi
    exact ⟨h1, h2, h3⟩
  first := h.first

theorem keepsCounts_frameLost (e : Env) (l : Library) (b : Book) (f : Nat) (side : Side) : KeepsCounts l (l.frameLost e b f side) :=
  (keepsCounts_fault e l _).trans (keptBut_frameLost e l b f side).keepsCounts

/-- R177: a masked READ_UNCORRECTABLE leaves the log as it is. -/
theorem countRead_masked {d : Drive} {t : Option Tag} {rs : List ReadResult} (hm : KindSet.has e.mask .readUncorrectable = true) (hq : l.care.queue.length < 8) :
    (l.countRead e d side b f t rs).log = l.log := by
  unfold Library.countRead
  dsimp only
  generalize hc : (l.setHealth side ((l.health side).count (countCorrected rs) (countFailed rs))).setDrive d
    ((l.drive d).count (countCorrected rs) (countFailed rs)) = c
  have hlog : c.log = l.log := by rw [← hc]; rfl
  have hcare : c.care.queue = l.care.queue := by rw [← hc]; rfl
  have hfault (q : FaultRecord) (hk : q.kind = .readUncorrectable) : (c.fault e q).log = l.log := (fault_masked (by rw [hk]; exact hm)).trans hlog
  generalize hg : (if 0 < countFailed rs then _ else c : Library) = g
  have hglog : g.log = l.log ∧ g.care.queue = l.care.queue := by
    rw [← hg]
    split
    · exact ⟨hfault _ rfl, hcare⟩
    · exact ⟨hlog, hcare⟩
  split
  · rw [trigger_log (by rw [hglog.2]; exact hq)]; exact hglog.1
  · exact hglog.1

end FrameLost

section Rescue

variable {s u : State} {d : Drive} {v : InService} {b : Book} {f : Nat} {ss : List Nat} {live : Bool} {rs : List ReadResult}

/-- R170: the state in which the outcome of a rescue read has been counted. -/
def State.readCountedState (s : State) (d : Drive) (side : Side) (b : Book) (f : Nat) (rs : List ReadResult) : State :=
  { s.begin with lib := s.counted d false side b f none rs }

/-- R170: what the outcome of a rescue read leaves for the reactions. -/
def State.rescueReadState (s : State) (d : Drive) (side : Side) (b : Book) (f : Nat) (ss : List Nat) (live : Bool) (rs : List ReadResult) : State :=
  if live = true then (s.readCountedState d side b f rs).rescueOutcome side f ss rs else s.readCountedState d side b f rs

theorem exec_rescueReadOutcome (hv : Answered s d v) (hc : v.command = .rescueRead b f ss live) (hn : rs.length = ss.length) :
    exec (.rescueReadOutcome d rs) s = .next (State.react (s.rescueReadState d v.side b f ss live rs) s.begin.lib) := by
  show execRescueReadOutcome d rs s = _
  unfold execRescueReadOutcome
  rw [State.outcome_next _ hv.started hv.state hv.service hv.fresh]
  simp only [hc, hn, if_true]
  rfl

/-- R170: what the outcome of a rescue read of a frame of the batch does. -/
theorem State.rescueOutcome_frame {p : List Instr} {e : Env} {k : Fee} {l : Library} {side : Side} {r : RescueRecord} {xs : List BatchFrame} {x : BatchFrame}
    (hr : l.care.rescue = some r) (hb : l.care.batch = some xs) (hx : xs.find? (fun z => z.frame == f) = some x) :
    (State.mk p e k l).rescueOutcome side f ss rs =
      if (l.rescueRead e r side x ss rs).state = .lost then
        ⟨p, e.lose r.book f, k, (l.mapBatch fun z => if z.frame = f then l.rescueRead e r side x ss rs else z).frameLost (e.lose r.book f) r.book f r.source⟩
      else ⟨p, e, k, l.mapBatch fun z => if z.frame = f then l.rescueRead e r side x ss rs else z⟩ := by
  unfold State.rescueOutcome
  simp only [hr, hb, hx]

theorem State.rescueOutcome_none {w : State} {side : Side} (h : w.lib.care.rescue = none ∨ w.lib.care.batch = none) : w.rescueOutcome side f ss rs = w := by
  unfold State.rescueOutcome
  rcases h with h | h
  · rw [h]
  · rw [h]; cases w.lib.care.rescue <;> rfl

theorem State.rescueOutcome_gone {w : State} {side : Side} {r : RescueRecord} {xs : List BatchFrame} (hr : w.lib.care.rescue = some r)
    (hb : w.lib.care.batch = some xs) (hx : xs.find? (fun z => z.frame == f) = none) : w.rescueOutcome side f ss rs = w := by
  unfold State.rescueOutcome
  simp only [hr, hb, hx]

/-- R170 to R172: the outcome of a rescue read keeps the counts, and changes the directory only by a loss. -/
theorem State.rescueOutcome_keeps (w : State) (side : Side) (f : Nat) (ss : List Nat) (rs : List ReadResult) :
    KeepsCounts w.lib (w.rescueOutcome side f ss rs).lib ∧ (w.rescueOutcome side f ss rs).fee = w.fee ∧ (w.rescueOutcome side f ss rs).pending = w.pending
      ∧ ((w.rescueOutcome side f ss rs).env = w.env
        ∨ ∃ r, w.lib.care.rescue = some r ∧ (w.rescueOutcome side f ss rs).env = w.env.lose r.book f) := by
  have hrefl : KeepsCounts w.lib w.lib := (Kept.refl w.env w.lib).keepsCounts
  cases hr : w.lib.care.rescue with
  | none => rw [State.rescueOutcome_none (.inl hr)]; exact ⟨hrefl, rfl, rfl, .inl rfl⟩
  | some r =>
    cases hb : w.lib.care.batch with
    | none => rw [State.rescueOutcome_none (.inr hb)]; exact ⟨hrefl, rfl, rfl, .inl rfl⟩
    | some xs =>
      cases hx : xs.find? (fun z => z.frame == f) with
      | none => rw [State.rescueOutcome_gone hr hb hx]; exact ⟨hrefl, rfl, rfl, .inl rfl⟩
      | some x =>
        rw [show w.rescueOutcome side f ss rs = _ from State.rescueOutcome_frame (p := w.pending) (e := w.env) (k := w.fee) hr hb hx]
        generalize w.lib.rescueRead w.env r side x ss rs = y
        have hm : KeepsCounts w.lib (w.lib.mapBatch fun z => if z.frame = f then y else z) := (kept_mapBatch w.env w.lib _).keepsCounts
        generalize (w.lib.mapBatch fun z => if z.frame = f then y else z) = m at hm
        by_cases hl : y.state = .lost
        · rw [if_pos hl]
          have hlost := hm.trans (keepsCounts_frameLost (w.env.lose r.book f) m r.book f r.source)
          generalize m.frameLost (w.env.lose r.book f) r.book f r.source = n at hlost
          exact ⟨hlost, rfl, rfl, .inr ⟨r, rfl, rfl⟩⟩
        · rw [if_neg hl]
          exact ⟨hm, rfl, rfl, .inl rfl⟩

theorem Env.lose_isLost (e : Env) (b c : Book) (f k : Nat) (h : (e.frame c k).isLost = true) : ((e.lose b f).frame c k).isLost = true := by
  unfold Env.lose Env.frame Env.setFrame
  rw [dirGet_dirPut]
  split
  next hk =>
    have h' : (dirGet e.directory (frameKey b f)).isLost = true := by rw [← hk]; exact h
    revert h'
    cases dirGet e.directory (frameKey b f) <;> simp [Frame.lose, Frame.isLost]
  next => exact h

theorem State.rescueReadState_keeps (s : State) (d : Drive) (side : Side) (b : Book) (f : Nat) (ss : List Nat) (live : Bool) (rs : List ReadResult) :
    KeepsCounts (s.counted d false side b f none rs) (s.rescueReadState d side b f ss live rs).lib
      ∧ (s.rescueReadState d side b f ss live rs).fee = s.fee ∧ (s.rescueReadState d side b f ss live rs).pending = s.pending
      ∧ ((s.rescueReadState d side b f ss live rs).env = s.env
        ∨ ∃ r, s.lib.care.rescue = some r ∧ live = true ∧ (s.rescueReadState d side b f ss live rs).env = s.env.lose r.book f) := by
  unfold State.rescueReadState
  split
  next hl =>
    obtain ⟨h1, h2, h3, h4⟩ := (s.readCountedState d side b f rs).rescueOutcome_keeps side f ss rs
    refine ⟨h1, h2, h3, h4.imp id ?_⟩
    rintro ⟨r, hr, he⟩
    exact ⟨r, State.counted_same.rescue.symm.trans hr, hl, he⟩
  next => exact ⟨(Kept.refl s.env _).keepsCounts, rfl, rfl, .inl rfl⟩

/-- R172, R11: a HEAD or CONT frame that is lost retains its class and its kind; no other frame changes. -/
theorem Env.lose_frame {e : Env} {k : Book} (hf : f < 4096) (c : FeeClass) (n : Nat) :
    (e.frame k f = .head c n → (e.lose k f).frame k f = .lost true c) ∧ (e.frame k f = .cont c n → (e.lose k f).frame k f = .lost false c)
      ∧ ∀ b' f', f' < 4096 → (b' ≠ k ∨ f' ≠ f) → (e.lose k f).frame b' f' = e.frame b' f' := by
  refine ⟨fun h => ?_, fun h => ?_, fun b' f' hf' hne => ?_⟩
  · exact (frame_setFrame_same e k f _).trans (by rw [h]; rfl)
  · exact (frame_setFrame_same e k f _).trans (by rw [h]; rfl)
  · refine (frame_setFrame e _ hf hf').trans (if_neg ?_)
    rintro ⟨h1, h2⟩
    rcases hne with h | h
    · exact h h1
    · exact h h2

/-- R172, R178: FRAME_LOST in the log after the reactions. -/
theorem lostFault_logged {e : Env} {l m n : Library} {k : Book} {side : Side} (hm : KindSet.has e.mask .frameLost = false)
    (hl : KeptBut e (l.fault e (e.lostFault k f side)) m) (hn : Settled e m n) :
    (n.log.first = some (e.lostFault k f side) ∨ KindSet.has n.log.later .frameLost = true)
      ∧ (l.log.first = none → n.log.first = some (e.lostFault k f side)) := by
  refine ⟨?_, fun h => hn.first _ (hl.first _ (fault_first h hm))⟩
  rcases fault_recorded (l := l) (q := e.lostFault k f side) hm with h | h
  · exact .inl (hn.first _ (hl.first _ h))
  · exact .inr (hn.later _ (hl.later _ h))

/-- R172: what the reactions find after a frame has been lost. -/
theorem lost_reacted {s u : State} {l : Library} {r : RescueRecord} {f : Nat}
    (hr : Reacted s u (s.env.lose r.book f) s.fee (l.frameLost (s.env.lose r.book f) r.book f r.source)) :
    (∀ c n, dirWf s.env.directory = true → f < 4096 →
      (s.env.frame r.book f = .head c n → u.env.frame r.book f = .lost true c) ∧ (s.env.frame r.book f = .cont c n → u.env.frame r.book f = .lost false c)
        ∧ ∀ b' f', f' < 4096 → (b' ≠ r.book ∨ f' ≠ f) → u.env.frame b' f' = s.env.frame b' f')
      ∧ (KindSet.has s.env.mask .frameLost = false →
        (u.lib.log.first = some (s.env.lostFault r.book f r.source) ∨ KindSet.has u.lib.log.later .frameLost = true)
        ∧ (l.log.first = none → u.lib.log.first = some (s.env.lostFault r.book f r.source))) := by
  refine ⟨fun c n _ hf => ?_, fun hm => lostFault_logged (e := s.env.lose r.book f) hm (keptBut_frameLost ..) hr.lib⟩
  rw [hr.env]
  exact Env.lose_frame hf c n

/-- Settles O21: the outcome is counted first; then the frame takes its data, turns to its next copy or is lost. -/
theorem rescueReadOutcomeCounted : Obligations.RescueReadOutcomeCounted := by
  intro s d v b f ss live rs hv hc hn
  obtain ⟨hk, hfee, hpend, henv⟩ := s.rescueReadState_keeps d v.side b f ss live rs
  have hr : Reacted s (State.react (s.rescueReadState d v.side b f ss live rs) s.begin.lib) _ _ _ := State.react_reacted hpend
  refine ⟨_, exec_rescueReadOutcome hv hc hn, ?_⟩
  generalize (s.rescueReadState d v.side b f ss live rs).react s.begin.lib = u at hr
  have hkeep := hk.trans hr.lib.keepsCounts
  rw [← hr.env] at henv
  refine ⟨hr.pending, hr.fee.trans hfee, readCounted_of_keeps hkeep, failedReadLogged_of_keeps hkeep, henv, fun hl => ?_,
    fun c k hlost => ?_, fun hl => ?_, fun r xs x hl hrec hbat hx => ?_⟩
  · rcases henv with h | ⟨r, -, h, -⟩
    · exact h
    · rw [hl] at h; exact absurd h (by decide)
  · rcases henv with h | ⟨r, -, -, h⟩
    · rw [h]; exact hlost
    · rw [h]; exact Env.lose_isLost _ _ _ _ _ hlost
  · have h : s.rescueReadState d v.side b f ss live rs = s.readCountedState d v.side b f rs := if_neg (by simp [hl])
    rw [h] at hr
    exact hr
  · have hout := State.rescueOutcome_frame (p := s.pending) (e := s.env) (k := s.fee) (l := s.counted d false v.side b f none rs) (side := v.side) (ss := ss) (rs := rs)
      (State.counted_same.rescue.trans hrec) (State.counted_same.batch.trans hbat) hx
    have hz := (show s.rescueReadState d v.side b f ss live rs = _ from if_pos hl).trans hout
    change let l := s.counted d false v.side b f none rs; _
    intro l
    obtain ⟨h1, h2, h3, hdata⟩ := l.rescueRead_rest s.env r v.side x ss rs
    refine ⟨fun hy => ?_, fun hy => ?_, h1, h2, h3, fun j i z hnd hs hi hz => hdata i z (BatchFrame.receive_data hnd hs hi hz), fun hlack => ?_, fun hlack => ?_⟩
    · rw [hz.trans (if_neg hy)] at hr
      exact hr
    · rw [hz.trans (if_pos hy)] at hr
      dsimp only at hr
      have hr' : Reacted s u (s.env.lose r.book f) s.fee ((l.mapBatch fun z => if z.frame = f then l.rescueRead s.env r v.side x ss rs else z).frameLost
        (s.env.lose r.book f) r.book f r.source) := hr
      obtain ⟨k1, k2⟩ := lost_reacted hr'
      refine ⟨hr', k1, fun hm => ⟨(k2 hm).1, fun hlog hmask hq => (k2 hm).2 ?_⟩⟩
      obtain ⟨-, -, -, hcare, hl0, -⟩ := finishCommand_ends s.env s.begin.lib d false
      exact (congrArg FaultLog.first ((countRead_masked hmask (by rw [hcare]; exact hq)).trans hl0)).trans hlog
    · rw [Library.rescueRead_ready hlack]; exact ⟨rfl, rfl⟩
    · rw [Library.rescueRead_turned hlack]
      exact ⟨((l.turnFrame_rest s.env r _).2.2.2.1 _).trans (BatchFrame.failOn_failedOn _ _), rfl⟩

end Rescue

end Sys2Proof.Machine
end

section
-- One declaration after the other: the stacks of the threads that wait for each other count against the check's memory limit.
set_option Elab.async false
namespace Sys2Proof.Machine

/-! # What the Twin Writer touches -/

/-- R94 to R96: the Twin Writer touches its records, the waiting re-reads, the twin marks, the demand lists with their quiet time and whether a command is still wanted. -/
structure TwinWork (a b : Library) : Prop where
  front : b.front = a.front
  roles : b.roles = a.roles
  picker : b.picker = a.picker
  care : b.care = a.care
  log : b.log = a.log
  out : b.out = a.out
  buffer : b.buffer = { a.buffer with rereadWait := b.buffer.rereadWait }
  scheduler : b.scheduler = { a.scheduler with lists := b.scheduler.lists, quiet := b.scheduler.quiet }
  book : ∀ k, b.book k = { a.book k with twinMark := (b.book k).twinMark }
  drive : ∀ d, ∃ v, b.drive d = { a.drive d with service := v } ∧ v.isSome = (a.drive d).service.isSome

theorem TwinWork.refl (a : Library) : TwinWork a a := ⟨rfl, rfl, rfl, rfl, rfl, rfl, rfl, rfl, fun _ => rfl, fun _ => ⟨_, rfl, rfl⟩⟩

theorem TwinWork.trans {a b c : Library} (h : TwinWork a b) (k : TwinWork b c) : TwinWork a c where
  front := k.front.trans h.front
  roles := k.roles.trans h.roles
  picker := k.picker.trans h.picker
  care := k.care.trans h.care
  log := k.log.trans h.log
  out := k.out.trans h.out
  buffer := by rw [k.buffer, h.buffer]
  scheduler := by rw [k.scheduler, h.scheduler]
  book i := by rw [k.book, h.book]
  drive d := by
    obtain ⟨v, hv, hv'⟩ := h.drive d
    obtain ⟨w, hw, hw'⟩ := k.drive d
    exact ⟨w, by rw [hw, hv], by rw [hw', hv]; exact hv'⟩

theorem TwinWork.foldl {α : Type} {f : Library → α → Library} (h : ∀ l x, TwinWork l (f l x)) (xs : List α) (l : Library) : TwinWork l (xs.foldl f l) := by
  induction xs generalizing l with
  | nil => exact .refl l
  | cons x xs ih => exact (h l x).trans (ih _)

theorem TwinWork.entry {a b : Library} (h : TwinWork a b) (t : Tag) : b.entry t = a.entry t :=
  congrArg (fun v : Front => look v.table t) h.front

theorem TwinWork.hold {a b : Library} (h : TwinWork a b) : b.buffer.hold = a.buffer.hold := by rw [h.buffer]

theorem TwinWork.escalation {a b : Library} (h : TwinWork a b) : b.buffer.escalation = a.buffer.escalation := by rw [h.buffer]

theorem TwinWork.copy {a b : Library} (h : TwinWork a b) : b.scheduler.escalation = a.scheduler.escalation := by rw [h.scheduler]

theorem TwinWork.decisionDue {a b : Library} (h : TwinWork a b) : b.scheduler.decisionDue = a.scheduler.decisionDue := by rw [h.scheduler]

theorem TwinWork.keptDrive {a b : Library} (h : TwinWork a b) (d : Drive) : (a.drive d).KeptTo (b.drive d) := by
  obtain ⟨v, hv, -⟩ := h.drive d
  rw [hv]
  exact ⟨rfl, rfl, rfl, rfl, rfl, rfl, fun _ => rfl, id⟩

section Steps

variable (e : Env) (l : Library)

theorem twinWork_setTwin (b : Book) (x : TwinRecord) : TwinWork l (l.setTwin b x) :=
  ⟨rfl, rfl, rfl, rfl, rfl, rfl, rfl, rfl, fun _ => rfl, fun _ => ⟨_, rfl, rfl⟩⟩

theorem twinWork_rereadWait (w : List (Book × Nat)) : TwinWork l { l with buffer := { l.buffer with rereadWait := w } } :=
  ⟨rfl, rfl, rfl, rfl, rfl, rfl, rfl, rfl, fun _ => rfl, fun _ => ⟨_, rfl, rfl⟩⟩

theorem twinWork_mapCommands (f : Command → Command) : TwinWork l (l.mapCommands f) where
  __ := TwinWork.refl l
  drive := (onlyDemand_mapCommands l f).drive

theorem twinWork_withdraw (s : Side) (k : ItemKind) : TwinWork l (l.withdraw s k) :=
  ⟨rfl, rfl, rfl, rfl, rfl, rfl, rfl, rfl, fun _ => rfl, fun _ => ⟨_, rfl, rfl⟩⟩

theorem twinWork_withdrawAll (p : ItemKind → Bool) : TwinWork l (l.withdrawAll p) :=
  ⟨rfl, rfl, rfl, rfl, rfl, rfl, rfl, rfl, fun _ => rfl, fun _ => ⟨_, rfl, rfl⟩⟩

theorem twinWork_place (s : Side) (k : ItemKind) : TwinWork l (l.place e s k) := by
  unfold Library.place
  exact ⟨rfl, rfl, rfl, rfl, rfl, rfl, rfl, rfl, fun _ => rfl, fun _ => ⟨_, rfl, rfl⟩⟩

theorem twinWork_raise (b : Book) (n : Nat) : TwinWork l (l.setBook b { l.book b with twinMark := n }) where
  __ := TwinWork.refl l
  book k := by
    rw [Library.setBook_book]
    split
    next h => rw [h]
    next => rfl

theorem twinWork_syncReread (b : Book) : TwinWork l (l.syncReread e b) := by
  unfold Library.syncReread
  split
  · split
    · exact twinWork_place e l _ _
    · exact twinWork_withdraw l _ _
  · exact .refl l

theorem twinWork_mapRereads (b : Book) (f : List Reread → List Reread) : TwinWork l (l.mapRereads b f) := twinWork_setTwin l b _

theorem twinWork_grantFrom : ∀ (xs : List (Book × Nat)) (l : Library), TwinWork l (Library.grantFrom e xs l)
  | [], l => twinWork_rereadWait l []
  | (b, f) :: rest, l => by
    unfold Library.grantFrom
    split
    · exact twinWork_grantFrom rest l
    · split
      · exact ((twinWork_mapRereads l b _).trans (twinWork_syncReread e _ b)).trans (twinWork_grantFrom rest _)
      · exact twinWork_rereadWait l _

theorem twinWork_dropRereads (b : Book) (gone : Nat → Bool) : TwinWork l (l.dropRereads e b gone) := by
  unfold Library.dropRereads
  dsimp only
  refine TwinWork.trans ?_ (twinWork_grantFrom e _ _)
  refine TwinWork.trans ?_ (twinWork_syncReread e _ b)
  exact ((twinWork_mapRereads l b _).trans (twinWork_mapCommands _ _)).trans (twinWork_rereadWait _ _)

theorem twinWork_stopTwinWork (b : Book) : TwinWork l (l.stopTwinWork e b) :=
  (twinWork_withdrawAll l _).trans (twinWork_dropRereads e _ b _)

theorem twinWork_askReread (b : Book) (f n : Nat) : TwinWork l (l.askReread e b f n) := by
  unfold Library.askReread
  split
  · exact (twinWork_mapRereads l b _).trans (twinWork_syncReread e _ b)
  · exact (twinWork_mapRereads l b _).trans (twinWork_rereadWait _ _)

theorem twinWork_askWindow (b : Book) : TwinWork l (l.askWindow e b) :=
  TwinWork.foldl (fun m f => by
    dsimp only
    split
    · exact twinWork_askReread e m b f _
    · exact .refl m) _ l

theorem twinWork_skipFrames (b : Book) : ∀ (n : Nat) (l : Library), TwinWork l (Library.skipFrames e b n l)
  | 0, l => .refl l
  | n + 1, l => by
    unfold Library.skipFrames
    dsimp only
    split
    · exact (twinWork_raise l b _).trans (twinWork_skipFrames b n _)
    · exact .refl l

theorem twinWork_wantTwinWrite (b : Book) (s : Side) : TwinWork l (l.wantTwinWrite e b s) := by
  unfold Library.wantTwinWrite
  dsimp only
  split
  · exact twinWork_place e l _ _
  · exact .refl l

/-- R94 to R96: what the examination of a book touches. -/
theorem twinWork_examine (b : Book) : TwinWork l (l.examine e b) := by
  unfold Library.examine
  split
  · exact (twinWork_stopTwinWork e l b).trans (twinWork_setTwin _ b _)
  · split
    · exact .refl l
    · dsimp only
      have h := twinWork_skipFrames e b Config.framesPerBook l
      generalize Library.skipFrames e b Config.framesPerBook l = m at h
      split
      · exact ((h.trans (twinWork_setTwin m b _)).trans (twinWork_askWindow e _ b)).trans (twinWork_wantTwinWrite e _ b _)
      · exact (h.trans (twinWork_setTwin m b _)).trans (twinWork_stopTwinWork e _ b)

theorem twinWork_examineBooks (p : Book → Bool) : TwinWork l (l.examineBooks e p) :=
  TwinWork.foldl (fun m b => twinWork_examine e m b) _ l

end Steps

end Sys2Proof.Machine
end

section
-- One declaration after the other: the stacks of the threads that wait for each other count against the check's memory limit.
set_option Elab.async false
namespace Sys2Proof.Machine

/-! # The outcomes of a primary write -/

section PageEnds

variable {l m n a u : Library} {b : Book} {t : Tag} {x : Entry} {g : Filing} {o : Outcome} {moved : Nat}

theorem Library.raiseFiling_book (l : Library) (b k : Book) : (l.raiseFiling b).book k = if b = k then
    { l.book b with
      filing := (l.book b).filing + 1
      twinMark := if (l.book b).twin.isNone then (l.book b).filing + 1 else (l.book b).twinMark } else l.book k := Library.setBook_book ..

/-- R83, R85: the filing mark of the book has passed the frame, and the FILE has ended; every other request, book and drive is as it was. -/
structure PageEnds (l a : Library) (b : Book) (t : Tag) (x : Entry) (o : Outcome) (moved : Nat) : Prop where
  filing : (a.book b).filing = (l.book b).filing + 1
  others : ∀ k, k ≠ b → (a.book k).filing = (l.book k).filing
  state : ∀ k, (a.book k).state = (l.book k).state
  alone : (l.book b).twin = none → (a.book b).twinMark = (l.book b).filing + 1
  entry : ∀ r, r ≠ t → a.entry r = l.entry r
  drive : ∀ d, (l.drive d).KeptTo (a.drive d)
  picker : a.picker = l.picker
  ends : ∃ n, EndsRequest n a t x o moved 0

theorem pageEnds (hfront : m.front = l.front) (hbooks : m.books = (l.raiseFiling b).books) (hdrive : ∀ d, m.drive d = l.drive d)
    (hpicker : m.picker = l.picker) (hw : TwinWork m n) (hk : KeptMost m n) (hx : l.entry t = some x) (hj : x.job = .file g) :
    PageEnds l (n.endRequest t o moved 0) b t x o moved := by
  have hentry (r : Tag) : n.entry r = l.entry r := (hw.entry r).trans (congrArg (fun v : Front => look v.table r) hfront)
  have hend := endRequest_ends ((hentry t).trans hx) o moved 0
  have hwin : x.windows = [] := by unfold Entry.windows; rw [hj]; split <;> rfl
  have hm (k : Book) : m.book k = _ := (congrArg (fun v : Vector BookEntry 127 => look v k) hbooks).trans (l.raiseFiling_book b k)
  have hbook (k : Book) : (n.endRequest t o moved 0).book k = n.book k := congrArg (fun v : Vector BookEntry 127 => look v k) hend.books
  have hfil (k : Book) : (n.book k).filing = (m.book k).filing := by rw [hw.book]
  have hstate (k : Book) : (n.book k).state = (m.book k).state := by rw [hw.book]
  refine ⟨?_, fun k hkb => ?_, fun k => ?_, fun htwin => ?_, fun r hr => (hend.others r hr).trans (hentry r), fun d => ?_,
    hend.picker.trans (hw.picker.trans hpicker), n, hend⟩
  · rw [hbook, hfil, hm, if_pos rfl]
  · rw [hbook, hfil, hm, if_neg (Ne.symm hkb)]
  · rw [hbook, hstate, hm]
    split
    next h => rw [h]
    next => rfl
  · have h1 : (m.book b).twinMark = (l.book b).filing + 1 := by rw [hm, if_pos rfl, htwin]; rfl
    have h2 : (m.book b).filing = (l.book b).filing + 1 := by rw [hm, if_pos rfl]
    have h3 := hk.twinMark b
    have h4 := hk.twinTop b (by omega)
    rw [hfil] at h4
    rw [hbook]
    omega
  · have hd : (n.endRequest t o moved 0).drive d = n.drive d := congrArg (fun v : Vector DriveRecord 4 => look v d) (hend.drives hwin)
    rw [hd, ← hdrive d]
    exact hw.keptDrive d

/-- What the reactions leave of the end of a page. -/
theorem PageEnds.settled {e : Env} (h : PageEnds l a b t x o moved) (k : Settled e a u) :
    (u.book b).filing = (l.book b).filing + 1 ∧ (∀ c, c ≠ b → (u.book c).filing = (l.book c).filing)
      ∧ ((l.book b).twin = none → (u.book b).twinMark = (l.book b).filing + 1) ∧ RequestEnds u t x o moved
      ∧ (∀ r y, r ≠ t → l.entry r = some y → ∃ z, u.entry r = some z ∧ y.KeptTo z) ∧ (∀ d, (l.drive d).KeptTo (u.drive d))
      ∧ (∀ c, (u.book c).state = (l.book c).state) ∧ u.picker.locations = l.picker.locations := by
  obtain ⟨n, hend⟩ := h.ends
  refine ⟨(k.filing b).trans h.filing, fun c hc => (k.filing c).trans (h.others c hc), fun ht => ?_, hend.settled k,
    fun r y hr hy => k.entry r y ((h.entry r hr).trans hy), fun d => (h.drive d).trans (k.drive d), fun c => (k.state c).trans (h.state c),
    k.locations.trans (congrArg Picker.locations h.picker)⟩
  have h1 := h.alone ht
  have h2 := h.filing
  have h3 := k.twinMark b
  have h4 := k.twinTop b (by omega)
  rw [k.filing] at h4
  omega

end PageEnds

section Hold

variable {e : Env} {l : Library} {b : Book} {f : Nat} {data : List Sector}

/-- R83: the twin hold list before the Twin Writer's examination: in a book with a twin the page has joined it. -/
def Library.pageHeld (l : Library) (b : Book) (f : Nat) (data : List Sector) : Library :=
  if (l.book b).twin.isSome then l.joinHold ⟨b, f, data⟩ else l

theorem twinWork_keepFiled (e : Env) (l : Library) (b : Book) (f : Nat) (data : List Sector) :
    TwinWork (l.pageHeld b f data) (l.keepFiled e b f data) ∧ KeptBut e (l.pageHeld b f data) (l.keepFiled e b f data) := by
  unfold Library.pageHeld Library.keepFiled
  by_cases h : (l.book b).twin.isSome = true
  · rw [if_pos h, if_pos h]
    exact ⟨twinWork_examineBooks e _ _, keptBut_examineBooks e _ _⟩
  · rw [if_neg h, if_neg h]
    exact ⟨twinWork_examine e l b, keptBut_examine e l b⟩

/-- R53, R54, R56: an entry that joins the hold list changes the list and what the test of its total gives, and nothing else. -/
theorem joinHold_rest (l : Library) (h : HoldEntry) :
    (l.joinHold h).buffer.hold = (l.demotion h).1 ++ [h] ∧ EscalationTested l (l.joinHold h)
      ∧ l.joinHold h = { l with
          buffer := { l.buffer with hold := (l.demotion h).1 ++ [h], escalation := (l.joinHold h).buffer.escalation }
          scheduler := { l.scheduler with escalation := (l.joinHold h).scheduler.escalation, decisionDue := (l.joinHold h).scheduler.decisionDue } } := by
  obtain ⟨⟨h1, h2, h3⟩, h4, -⟩ := testEscalation_tests { l with buffer := { l.buffer with hold := (l.demotion h).1 ++ [h] } }
  refine ⟨by rw [Library.joinHold, h4], ⟨h1, h2, h3⟩, h4⟩

theorem pageHeld_rest (l : Library) (b : Book) (f : Nat) (data : List Sector) :
    (l.pageHeld b f data).front = l.front ∧ (l.pageHeld b f data).books = l.books ∧ (l.pageHeld b f data).drives = l.drives
      ∧ (l.pageHeld b f data).picker = l.picker := by
  unfold Library.pageHeld
  split
  · obtain ⟨-, -, h⟩ := joinHold_rest l ⟨b, f, data⟩
    rw [h]
    exact ⟨rfl, rfl, rfl, rfl⟩
  · exact ⟨rfl, rfl, rfl, rfl⟩

/-- R44: the end of a FILE leaves the Mount Scheduler alone but for its lists. -/
theorem endRequest_scheduler {t : Tag} {x : Entry} {g : Filing} (hx : l.entry t = some x) (hj : x.job = .file g) (o : Outcome) (moved discard : Nat) :
    (l.endRequest t o moved discard).scheduler.escalation = l.scheduler.escalation
      ∧ (l.endRequest t o moved discard).scheduler.decisionDue = l.scheduler.decisionDue := by
  rw [endRequest_of_file hx hj]
  exact ⟨rfl, rfl⟩

theorem EscalationTested.congr {l l' a a' : Library} (h : EscalationTested l a) (h1 : l'.buffer.escalation = l.buffer.escalation)
    (h2 : l'.scheduler.escalation = l.scheduler.escalation) (h3 : a'.buffer.escalation = a.buffer.escalation) (h4 : a'.buffer.hold = a.buffer.hold)
    (h5 : a'.scheduler.escalation = a.scheduler.escalation) (h6 : a'.scheduler.decisionDue = a.scheduler.decisionDue) : EscalationTested l' a' where
  flag := by rw [h1, h3, h4]; exact h.flag
  changed := by rw [h1, h3, h5, h6]; exact h.changed
  same := by rw [h1, h2, h3, h5]; exact h.same

/-- R54: the end of a command that keeps no hold slots leaves what a demotion begins with. -/
theorem demote_congr {l l' : Library} (htwins : l'.twins = l.twins) (hbuf : l'.buffer = l.buffer)
    (hslots : l'.commandSlots Command.holdSlots = l.commandSlots Command.holdSlots) (h : HoldEntry) :
    (l'.demotion h).1 = (demote l.writingFrom h.data.length l.holdFree l.buffer.hold).1 := by
  have hw : l'.writingFrom = l.writingFrom := by
    funext c
    unfold Library.writingFrom Library.twin
    rw [htwins]
  unfold Library.demotion Library.holdFree Library.heldTotal
  rw [hw, hbuf, hslots]

theorem commandSlots_finished {s : State} {d : Drive} {v : InService} {p : Command → Nat} {l : Library} (hv : (s.lib.drive d).service = some v) (hp : p v.command = 0)
    (hd : (l.drive d).service = none) (ho : ∀ d', d' ≠ d → l.drive d' = s.lib.drive d') : l.commandSlots p = s.lib.commandSlots p := by
  unfold Library.commandSlots
  refine congrArg List.sum (List.map_congr_left fun k _ => ?_)
  by_cases hk : k = d
  · rw [hk, hd, hv]; exact hp.symm
  · rw [ho k hk]

end Hold

section Filed

variable {s : State} {d : Drive} {v : InService} {t : Tag} {x : Entry} {g : Filing}

theorem exec_primaryWriteOk (hv : Answered s d v) (hc : v.command = .primaryWrite t g.book g.frame) (hx : s.lib.fileOf t = some (x, g)) :
    exec (.primaryWriteOk d) s = .next (State.react { s.begin with
      env := s.env.setFrame g.book g.frame (s.env.filedEntry g)
      lib := (s.begin.finishCommand d).lib.filed (s.env.setFrame g.book g.frame (s.env.filedEntry g)) t g } s.begin.lib) := by
  show execPrimaryWriteOk d s = _
  unfold execPrimaryWriteOk
  rw [State.outcome_next _ hv.started hv.state hv.service hv.fresh]
  simp only [hc, show s.begin.lib.fileOf t = some (x, g) from hx]
  rfl

theorem exec_primaryWriteFail (hv : Answered s d v) (hc : v.command = .primaryWrite t g.book g.frame) (hx : s.lib.fileOf t = some (x, g)) :
    exec (.primaryWriteFail d) s = .next (State.react { s.begin with
      env := s.env.setFrame g.book g.frame .void
      lib := (s.begin.finishCommand d).lib.spent (s.env.setFrame g.book g.frame .void) t g v.side d true } s.begin.lib) := by
  show execPrimaryWriteFail d s = _
  unfold execPrimaryWriteFail
  rw [State.outcome_next _ hv.started hv.state hv.service hv.fresh]
  simp only [hc, show s.begin.lib.fileOf t = some (x, g) from hx]
  rfl

theorem headBelow_iff {mark : Nat → HeadMark} {f h : Nat} {c : FeeClass} : HeadBelow mark f h c ↔ headSearch mark f = some (h, c) := by
  unfold HeadBelow
  exact headSearch_eq_some_iff.symm

/-- R84: the kind and the class of the entry of a written frame. -/
theorem Env.filedEntry_cases (e : Env) (g : Filing) :
    (g.isHead = true → e.filedEntry g = .head g.cls g.len)
      ∧ (g.isHead = false → ∀ h c, HeadBelow (fun n => (e.frame g.book n).mark) g.frame h c → e.filedEntry g = .cont c g.len)
      ∧ (g.isHead = false → (∀ h c, ¬ HeadBelow (fun n => (e.frame g.book n).mark) g.frame h c) → e.filedEntry g = .head g.cls g.len) := by
  unfold Env.filedEntry
  refine ⟨fun h => if_pos h, fun h k c hb => ?_, fun h hno => ?_⟩
  · rw [if_neg (by simp [h]), headBelow_iff.mp hb]
  · rw [if_neg (by simp [h])]
    cases hs : headSearch (fun n => (e.frame g.book n).mark) g.frame with
    | none => rfl
    | some p => exact absurd (headBelow_iff.mpr hs) (hno p.1 p.2)

/-- R83: what the filing of a page makes of the library that the end of its command left. -/
theorem filed_ends (e : Env) {l : Library} (hx : l.fileOf t = some (x, g)) : PageEnds l (l.filed e t g) g.book t x .done g.len := by
  obtain ⟨hxe, -, hj⟩ := Library.fileOf_some hx
  obtain ⟨h1, h2, h3, h4⟩ := pageHeld_rest (l.raiseFiling g.book) g.book g.frame g.received
  obtain ⟨hw, hk⟩ := twinWork_keepFiled e (l.raiseFiling g.book) g.book g.frame g.received
  exact pageEnds h1 h2 (fun k => congrArg (fun v : Vector DriveRecord 4 => look v k) h3) h4 hw hk.toKeptMost hxe hj

/-- R83: the hold list and the escalation flag after a page has been filed are those that its entry left. -/
theorem filed_hold (e : Env) {l : Library} (hx : l.fileOf t = some (x, g)) :
    (l.filed e t g).buffer.hold = ((l.raiseFiling g.book).pageHeld g.book g.frame g.received).buffer.hold
      ∧ (l.filed e t g).buffer.escalation = ((l.raiseFiling g.book).pageHeld g.book g.frame g.received).buffer.escalation
      ∧ (l.filed e t g).scheduler.escalation = ((l.raiseFiling g.book).pageHeld g.book g.frame g.received).scheduler.escalation
      ∧ (l.filed e t g).scheduler.decisionDue = ((l.raiseFiling g.book).pageHeld g.book g.frame g.received).scheduler.decisionDue := by
  obtain ⟨hxe, -, hj⟩ := Library.fileOf_some hx
  obtain ⟨h1, -⟩ := pageHeld_rest (l.raiseFiling g.book) g.book g.frame g.received
  obtain ⟨hw, -⟩ := twinWork_keepFiled e (l.raiseFiling g.book) g.book g.frame g.received
  have hxk := ((hw.entry t).trans (congrArg (fun v : Front => look v.table t) h1)).trans hxe
  have hend := endRequest_ends hxk .done g.len 0
  obtain ⟨hs, hd⟩ := endRequest_scheduler hxk hj .done g.len 0
  exact ⟨hend.hold.trans hw.hold, hend.escalation.trans hw.escalation, hs.trans hw.copy, hd.trans hw.decisionDue⟩

/-- R85: a spent frame before its examination: counted and recorded. -/
def Library.spentCounted (l : Library) (e : Env) (t : Tag) (g : Filing) (side : Side) (d : Drive) : Library :=
  ((l.raiseFiling g.book).countWriteFail e side).faultWrite e g.book side g.frame d (some t)

theorem Library.spent_counted (e : Env) (l : Library) (t : Tag) (g : Filing) (side : Side) (d : Drive) :
    l.spent e t g side d true = ((l.spentCounted e t g side d).examine e g.book).endRequest t .fileFailed 0 0 := rfl

theorem spentCounted_same (e : Env) (l : Library) (t : Tag) (g : Filing) (side : Side) (d : Drive) :
    SameButCounts (l.raiseFiling g.book) (l.spentCounted e t g side d) ∧ (∀ k, (l.spentCounted e t g side d).drive k = l.drive k)
      ∧ (l.spentCounted e t g side d).health side = (l.health side).count 0 1
      ∧ (l.log.first = none → KindSet.has e.mask .writeFailed = false → l.care.queue.length < 8 →
        (l.spentCounted e t g side d).log.first = some ⟨.writeFailed, some g.book, some side, some g.frame, some d, none, some t, e.day⟩) := by
  obtain ⟨h1, h2, h3, -, -, -, h4⟩ := countWriteFail_counts e (l.raiseFiling g.book) side
  exact ⟨h1.trans (fault_same ..), h2, h3, fun hl hm hq => fault_first (by rw [h4 hq]; exact hl) hm⟩

/-- R85: what a spent frame makes of the library that the end of its command left. -/
theorem spent_ends (e : Env) {l : Library} (hx : l.fileOf t = some (x, g)) (side : Side) (d : Drive) :
    PageEnds l (l.spent e t g side d true) g.book t x .fileFailed 0 ∧ (l.spent e t g side d true).buffer.hold = l.buffer.hold
      ∧ (l.spent e t g side d true).care = (l.spentCounted e t g side d).care ∧ (l.spent e t g side d true).roles = l.roles
      ∧ (l.spent e t g side d true).log = (l.spentCounted e t g side d).log := by
  obtain ⟨hxe, -, hj⟩ := Library.fileOf_some hx
  obtain ⟨hsame, hdrive, -⟩ := spentCounted_same e l t g side d
  have hw := twinWork_examine e (l.spentCounted e t g side d) g.book
  have hend := endRequest_ends (l := (l.spentCounted e t g side d).examine e g.book) (((hw.entry t).trans (hsame.entry t)).trans hxe) .fileFailed 0 0
  rw [Library.spent_counted]
  refine ⟨pageEnds hsame.front hsame.books hdrive hsame.picker hw (keptBut_examine e _ g.book).toKeptMost hxe hj, ?_, ?_, ?_, ?_⟩
  · exact hend.hold.trans (hw.hold.trans (congrArg Buffer.hold hsame.buffer))
  · exact hend.care.trans hw.care
  · exact hend.roles.trans (hw.roles.trans hsame.roles)
  · exact hend.log.trans hw.log

theorem SameButCounts.fileOf {a b : Library} (h : SameButCounts a b) (t : Tag) : b.fileOf t = a.fileOf t := by
  unfold Library.fileOf
  rw [h.entry]

/-- R53, R54, R56: how the hold list and the escalation flag come out of the filing of a page. -/
theorem filed_holdList (e : Env) (hv : Answered s d v) (hc : v.command = .primaryWrite t g.book g.frame) (hx : s.lib.fileOf t = some (x, g)) :
    ((s.lib.book g.book).twin = none → ((s.begin.finishCommand d).lib.filed e t g).buffer.hold = s.lib.buffer.hold
        ∧ ((s.begin.finishCommand d).lib.filed e t g).buffer.escalation = s.lib.buffer.escalation
        ∧ ((s.begin.finishCommand d).lib.filed e t g).scheduler.escalation = s.lib.scheduler.escalation)
      ∧ ((s.lib.book g.book).twin ≠ none → ((s.begin.finishCommand d).lib.filed e t g).buffer.hold
          = (demote s.lib.writingFrom g.received.length s.lib.holdFree s.lib.buffer.hold).1 ++ [⟨g.book, g.frame, g.received⟩]
        ∧ EscalationTested s.lib ((s.begin.finishCommand d).lib.filed e t g)) := by
  obtain ⟨hsame, hdrive, hdrives, -, -, hsched, -⟩ := finishCommand_ends s.env s.begin.lib d false
  change SameButCounts s.begin.lib (s.begin.finishCommand d).lib at hsame
  change (s.begin.finishCommand d).lib.scheduler = _ at hsched
  obtain ⟨f1, f2, f3, f4⟩ := filed_hold e ((hsame.fileOf t).trans hx)
  have htwin : (((s.begin.finishCommand d).lib.raiseFiling g.book).book g.book).twin = (s.lib.book g.book).twin := by
    rw [Library.raiseFiling_book, if_pos rfl, hsame.book]
    rfl
  have hcopy : (s.begin.finishCommand d).lib.scheduler.escalation = s.lib.scheduler.escalation := by rw [hsched]; rfl
  have hesc : (s.begin.finishCommand d).lib.buffer.escalation = s.lib.buffer.escalation := congrArg Buffer.escalation hsame.buffer
  refine ⟨fun ht => ?_, fun ht => ?_⟩
  · have hheld : ((s.begin.finishCommand d).lib.raiseFiling g.book).pageHeld g.book g.frame g.received = (s.begin.finishCommand d).lib.raiseFiling g.book :=
      if_neg (by rw [htwin, ht]; decide)
    rw [f1, f2, f3, hheld]
    exact ⟨congrArg Buffer.hold hsame.buffer, hesc, hcopy⟩
  · have hheld : ((s.begin.finishCommand d).lib.raiseFiling g.book).pageHeld g.book g.frame g.received
        = ((s.begin.finishCommand d).lib.raiseFiling g.book).joinHold ⟨g.book, g.frame, g.received⟩ :=
      if_pos (by rw [htwin]; exact Option.isSome_iff_ne_none.mpr ht)
    rw [hheld] at f1 f2 f3 f4
    obtain ⟨j1, j2, -⟩ := joinHold_rest ((s.begin.finishCommand d).lib.raiseFiling g.book) ⟨g.book, g.frame, g.received⟩
    refine ⟨?_, j2.congr hesc.symm hcopy.symm f2 f1 f3 f4⟩
    rw [f1, j1]
    have hslots : (s.begin.finishCommand d).lib.commandSlots Command.holdSlots = s.lib.commandSlots Command.holdSlots :=
      commandSlots_finished hv.service (by rw [hc]; rfl) (congrArg DriveRecord.service hdrive) hdrives
    exact congrArg (· ++ [_]) (demote_congr (l := s.lib) hsame.twins hsame.buffer hslots _)

/-- R83, R85: what the outcome of a primary write leaves after its reactions. -/
theorem pageEnds_outcome {e : Env} {a u : Library} {o : Outcome} {moved : Nat} (h : PageEnds (s.begin.finishCommand d).lib a g.book t x o moved)
    (k : Settled e a u) :
    (u.book g.book).filing = (s.lib.book g.book).filing + 1 ∧ (∀ c, c ≠ g.book → (u.book c).filing = (s.lib.book c).filing)
      ∧ ((s.lib.book g.book).twin = none → (u.book g.book).twinMark = (s.lib.book g.book).filing + 1) ∧ RequestEnds u t x o moved
      ∧ (∀ r y, r ≠ t → s.lib.entry r = some y → ∃ z, u.entry r = some z ∧ y.KeptTo z)
      ∧ ((u.drive d).failures = 0 ∧ (u.drive d).lastUse = s.env.now ∧ (u.drive d).commandFailures = (s.lib.drive d).commandFailures)
      ∧ (∀ d', d' ≠ d → (s.lib.drive d').KeptTo (u.drive d')) ∧ (∀ c, (u.book c).state = (s.lib.book c).state)
      ∧ u.picker.locations = s.lib.picker.locations := by
  obtain ⟨hsame, -, -, hdrive, hdrives⟩ := s.finishCommand_same d
  have hbook (c : Book) : (s.begin.finishCommand d).lib.book c = s.lib.book c := hsame.book c
  have hentry (r : Tag) : (s.begin.finishCommand d).lib.entry r = s.lib.entry r := hsame.entry r
  obtain ⟨p1, p2, p3, p4, p5, p6, p7, p8⟩ := h.settled k
  simp only [hbook] at p1 p2 p3 p7
  refine ⟨p1, p2, p3, p4, fun r y hr hy => p5 r y hr ((hentry r).trans hy), ?_, fun d' hd' => hdrives d' hd' ▸ p6 d', p7,
    p8.trans (congrArg Picker.locations hsame.picker)⟩
  have hd := p6 d
  rw [hdrive] at hd
  exact ⟨hd.failures, hd.lastUse, hd.commandFailures⟩

/-- Settles O18: the command ends, the marks and the hold list follow, and the reactions keep them. -/
theorem primaryWriteOutcomes : Obligations.PrimaryWriteOutcomes := by
  refine ⟨fun s d v t x g hv hc hx => ?_, fun s d v t x g hv hc hx => ?_⟩
  · obtain ⟨k1, k2, k3⟩ := s.env.filedEntry_cases g
    refine ⟨_, s.env.filedEntry g, exec_primaryWriteOk hv hc hx, ?_⟩
    generalize he : s.env.setFrame g.book g.frame (s.env.filedEntry g) = e
    have hends := filed_ends e (((s.finishCommand_same d).1.fileOf t).trans hx)
    obtain ⟨h1, h2⟩ := filed_holdList e hv hc hx
    have hr : Reacted s (State.react { s.begin with env := e, lib := (s.begin.finishCommand d).lib.filed e t g } s.begin.lib) e s.fee
        ((s.begin.finishCommand d).lib.filed e t g) := State.react_reacted rfl
    generalize State.react { s.begin with env := e, lib := (s.begin.finishCommand d).lib.filed e t g } s.begin.lib = u at hr
    obtain ⟨p1, p2, p3, p4, p5, ⟨p6, p7, -⟩, p8, p9, p10⟩ := pageEnds_outcome hends hr.lib
    refine ⟨hr.env, hr.fee, hr.pending, k1, k2, k3, p1, p2, p3, fun ht => ?_, ?_, p4, p6, p7, p5, p8, p9, p10⟩
    · obtain ⟨q1, q2, q3⟩ := h1 ht
      exact ⟨hr.lib.hold.trans q1, hr.lib.escalation.trans q2, hr.lib.escalationCopy.trans q3⟩
    · rw [hr.env]
      refine ⟨hr, fun ht => ?_⟩
      obtain ⟨q1, q2⟩ := h2 ht
      exact ⟨hr.lib.hold.trans q1, hr.lib.hold.symm, hr.lib.escalation, hr.lib.escalationCopy, q2⟩
  · refine ⟨_, exec_primaryWriteFail hv hc hx, ?_⟩
    generalize he : s.env.setFrame g.book g.frame .void = e
    obtain ⟨hsame, hcare, hlog, -⟩ := s.finishCommand_same d
    obtain ⟨hends, s1, s2, s3, s4⟩ := spent_ends e ((hsame.fileOf t).trans hx) v.side d
    obtain ⟨c1, -, c2, c3⟩ := spentCounted_same e (s.begin.finishCommand d).lib t g v.side d
    have hr : Reacted s (State.react { s.begin with env := e, lib := (s.begin.finishCommand d).lib.spent e t g v.side d true } s.begin.lib) e s.fee
        ((s.begin.finishCommand d).lib.spent e t g v.side d true) := State.react_reacted rfl
    generalize State.react { s.begin with env := e, lib := (s.begin.finishCommand d).lib.spent e t g v.side d true } s.begin.lib = u at hr
    obtain ⟨p1, p2, p3, p4, p5, ⟨p6, -, p7⟩, p8, p9, p10⟩ := pageEnds_outcome hends hr.lib
    refine ⟨hr.env, hr.fee, hr.pending, p1, p2, p3, hr.lib.hold.trans (s1.trans (congrArg Buffer.hold hsame.buffer)), fun hs => ?_,
      fun hl hm hq => ?_, p4, p6, p7, p5, p8, p9, p10⟩
    · have hun : ((s.begin.finishCommand d).lib.spent e t g v.side d true).untargeted v.side :=
        (Library.untargeted_congr (a := s.lib) (s3.trans hsame.roles) ((congrArg Care.rescue s2).trans (c1.rescue.trans hsame.rescue))).mpr hs
      obtain ⟨-, -, hu, -⟩ := hr.lib.health v.side hun
      have hh : ((s.begin.finishCommand d).lib.spent e t g v.side d true).health v.side = (s.lib.health v.side).count 0 1 :=
        (congrArg (fun c : Care => look c.health v.side) s2).trans (c2.trans (congrArg (fun c : Care => (look c.health v.side).count 0 1) hcare))
      rw [hu, hh]
      rfl
    · refine hr.lib.first _ ((congrArg FaultLog.first s4).trans ?_)
      have hday : e.day = s.env.day := by rw [← he]; rfl
      rw [← hday]
      exact c3 (by rw [hlog]; exact hl) (by rw [← he]; exact hm) (by rw [hcare]; exact hq)

end Filed

end Sys2Proof.Machine
end

section
-- One declaration after the other: the stacks of the threads that wait for each other count against the check's memory limit.
set_option Elab.async false
namespace Sys2Proof.Machine

/-! # Orders are opened and charged -/

section Charging

variable {f : Fee} {x : Offer} {o : Order} {now : Nat}

/-- R144 to R148: outside HOLD an offer is the charge to the settled order. -/
theorem Fee.take_open (f : Fee) (now : Nat) (x : Offer) : f.take now false x = (f.settleOrder now x).chargePage now x := rfl

theorem mem_joinRecent (frames : List Nat) (n : Nat) : n ∈ joinRecent frames n := List.mem_append_right _ (.head _)

/-- R147, R148: what a page charged to the station's open order leaves. -/
theorem Fee.take_charges (ho : look f.orders x.station = some o) (hs : o.serves x = true) (hx : x.frame ∉ look f.recent x.station) :
    f.take now false x = ({ f with
      orders := put f.orders x.station (some (o.charged x now ((look f.schedule.lines o.cls).charge o)))
      recent := put f.recent x.station (joinRecent (look f.recent x.station) x.frame)
      tallies := f.tallies.countPage x.station o.cls (f.pageTotal x o) (o.takesSurcharge x) }, ⟨true, f.pageTotal x o⟩) := by
  rw [Fee.take_open, Fee.settleOrder_serves ho hs, Fee.chargePage_charges ho hx]

theorem Offer.open_serves (x : Offer) (now : Nat) : (x.open now).serves x = true := Order.serves_iff.mpr ⟨rfl, rfl⟩

/-- R144: the settled order is the station's open order for the instrument. -/
theorem Fee.settleOrder_order (h : f.hasOrder x = false) :
    look (f.settleOrder now x).orders x.station = some (x.open now) ∧ look (f.settleOrder now x).recent x.station = []
      ∧ (f.settleOrder now x).tallies = f.tallies.countOrder x.station ∧ (f.settleOrder now x).schedule = f.schedule
      ∧ ∀ k, k ≠ x.station → look (f.settleOrder now x).orders k = look f.orders k := by
  rw [Fee.settleOrder_opens h]
  exact ⟨look_put_same .., look_put_same .., rfl, rfl, fun k hk => look_put_ne _ _ (Ne.symm hk)⟩

theorem Order.takesSurcharge_iff : o.takesSurcharge x = true ↔ x.certified = true ∧ o.surcharged = false := by
  simp [Order.takesSurcharge]

theorem Fee.pageTotal_eq (f : Fee) (x : Offer) (o : Order) :
    f.pageTotal x o = (look f.schedule.lines o.cls).charge o + if x.certified = true ∧ o.surcharged = false then f.schedule.surcharge else 0 := by
  unfold Fee.pageTotal
  simp only [Order.takesSurcharge_iff]

theorem saturates_iff {max a k : Nat} : saturates max a k = true ↔ max < a + k := decide_eq_true_iff

/-- R154: the flag is set exactly when a count saturates. -/
theorem Tallies.countOrder_saturated (t : Tallies) (s : Station) :
    (t.countOrder s).saturated = true ↔ t.saturated = true ∨ 65535 < t.orders + 1 ∨ 65535 < (look t.stations s).orders + 1 := by
  simp only [Tallies.countOrder, saturates_iff, Bool.or_eq_true, Config.max16]
  tauto

theorem Tallies.countPage_saturated (t : Tallies) (s : Station) (c : FeeClass) (total : Nat) (certify : Bool) :
    (t.countPage s c total certify).saturated = true ↔ t.saturated = true
      ∨ 4294967295 < t.amount + total ∨ 4294967295 < t.pages + 1
      ∨ 4294967295 < (look t.stations s).amount + total ∨ 4294967295 < (look t.stations s).pages + 1
      ∨ 4294967295 < (look t.classes c).amount + total ∨ 4294967295 < (look t.classes c).pages + 1
      ∨ 65535 < t.certified + if certify = true then 1 else 0 := by
  simp only [Tallies.countPage, saturates_iff, Bool.or_eq_true, Config.max16, Config.max32]
  tauto

theorem Order.charged_open (x : Offer) (now n : Nat) :
    ((x.open now).charged x now n).pages = 1 ∧ ((x.open now).charged x now n).certified = x.certified
      ∧ ((x.open now).charged x now n).surcharged = x.certified := by
  refine ⟨rfl, ?_, ?_⟩ <;> cases h : x.certified <;> simp [Order.charged, Order.takesSurcharge, Offer.open, h]

/-- Settles O49: the order is opened and its first page charged, or the page charged to the open order. -/
theorem ordersOpenAndAreCharged : Obligations.OrdersOpenAndAreCharged := by
  refine ⟨fun f now x h => ?_, fun f now x o ho hb hh hx => ?_⟩
  · obtain ⟨h1, h2, h3, h4, h5⟩ := Fee.settleOrder_order (now := now) h
    have hserves := x.open_serves now
    have htake : f.take now false x = (f.settleOrder now x).take now false x := by
      rw [Fee.take_open, Fee.take_open, Fee.settleOrder_serves h1 hserves]
    have hcharge := Fee.take_charges (now := now) h1 hserves (by rw [h2]; exact List.not_mem_nil)
    obtain ⟨c1, c2, c3⟩ := Order.charged_open x now ((look (f.settleOrder now x).schedule.lines (x.open now).cls).charge (x.open now))
    have hcount := (f.tallies.countOrder_saturated x.station)
    rw [h2] at hcharge
    rw [← h3] at hcount
    refine ⟨(x.open now).charged x now ((look (f.settleOrder now x).schedule.lines (x.open now).cls).charge (x.open now)), ?_, rfl, rfl, rfl, c1, rfl,
      c2, c3, ?_, ?_, ?_, ?_, hcount, htake, fun k hk => ?_⟩ <;> rw [htake, hcharge]
    · exact look_put_same ..
    · exact look_put_same ..
    · rw [h3]
      simp [Tallies.countPage, Tallies.countOrder, satAdd, Config.max16]
    · rw [h3]; rfl
    · exact (look_put_ne _ _ (Ne.symm hk)).trans (h5 k hk)
  · have hcharge := Fee.take_charges (now := now) ho (Order.serves_iff.mpr ⟨hb, hh⟩) hx
    have hsat := f.tallies.countPage_saturated x.station o.cls (f.pageTotal x o) (o.takesSurcharge x)
    simp only [Order.takesSurcharge_iff] at hsat
    have htotal := f.pageTotal_eq x o
    intro charge total g a c
    have hg : g = _ := congrArg Prod.fst hcharge
    have ht : f.pageTotal x o = total := htotal
    rw [ht] at hcharge hg hsat
    refine ⟨congrArg Prod.snd hcharge, ⟨o.charged x now charge, ?_, rfl, rfl, rfl, rfl, rfl, rfl, rfl⟩, ?_, fun k hk => ?_, ?_, ?_, ?_, ?_, ?_, ?_,
      fun k hk => ?_, fun k hk => ?_, ?_, ?_, ?_⟩ <;> rw [hg]
    · exact look_put_same ..
    · exact (look_put_same (α := List Nat) ..) ▸ mem_joinRecent _ _
    · exact look_put_ne _ _ (Ne.symm hk)
    · rfl
    · rfl
    · rfl
    · simp only [Tallies.countPage, Order.takesSurcharge_iff]; rfl
    · exact look_put_same ..
    · exact look_put_same ..
    · exact look_put_ne _ _ (Ne.symm hk)
    · exact look_put_ne _ _ (Ne.symm hk)
    · exact hsat

end Charging

end Sys2Proof.Machine
end

section
-- One declaration after the other: the stacks of the threads that wait for each other count against the check's memory limit.
set_option Elab.async false
namespace Sys2Proof.Machine

/-! # Demotion, escalation, the rescue trigger and the fault log -/

section Demotion

variable {busy : HoldEntry → Bool} {k free : Nat} {h : HoldEntry} {xs : List HoldEntry}

theorem demote_room (hk : k ≤ free) (xs : List HoldEntry) : demote busy k free xs = (xs, []) := by
  cases xs with
  | nil => rfl
  | cons h xs => exact if_pos hk

theorem demote_busy (hk : ¬ k ≤ free) (hb : busy h = true) (xs : List HoldEntry) :
    demote busy k free (h :: xs) = (h :: (demote busy k free xs).1, (demote busy k free xs).2) := by
  rw [demote, if_neg hk, if_pos hb]

theorem demote_gone (hk : ¬ k ≤ free) (hb : busy h = false) (xs : List HoldEntry) :
    demote busy k free (h :: xs) = ((demote busy k (free + h.data.length) xs).1, h :: (demote busy k (free + h.data.length) xs).2) := by
  rw [demote, if_neg hk, if_neg (by simp [hb])]

/-- R54: what a demotion keeps and what it takes. -/
structure Demotes (busy : HoldEntry → Bool) (k free : Nat) (xs : List HoldEntry) (r : List HoldEntry × List HoldEntry) : Prop where
  kept : r.1.Sublist xs
  gone : r.2.Sublist xs
  perm : (r.1 ++ r.2).Perm xs
  oldest : r.2 <+: xs.filter fun h => !busy h
  enough : k ≤ free + (r.2.map fun h => h.data.length).sum ∨ ∀ h ∈ r.1, busy h = true
  last : r.2 ≠ [] → free + (r.2.dropLast.map fun h => h.data.length).sum < k

theorem demotes_room (hk : k ≤ free) (xs : List HoldEntry) : Demotes busy k free xs (xs, []) :=
  ⟨.refl xs, List.nil_sublist xs, by simp, List.nil_prefix, .inl (Nat.le_add_right_of_le hk), fun h => absurd rfl h⟩

theorem demote_demotes (busy : HoldEntry → Bool) (k : Nat) : ∀ (xs : List HoldEntry) (free : Nat), Demotes busy k free xs (demote busy k free xs)
  | [], free => ⟨.slnil, .slnil, .refl _, List.nil_prefix, .inr fun _ h => absurd h List.not_mem_nil, fun h => absurd rfl h⟩
  | h :: xs, free => by
    by_cases hk : k ≤ free
    · rw [demote_room hk]
      exact demotes_room hk _
    cases hb : busy h with
    | true =>
      have ih := demote_demotes busy k xs free
      rw [demote_busy hk hb]
      exact ⟨ih.kept.cons_cons h, ih.gone.cons h, ih.perm.cons h, by rw [List.filter_cons_of_neg (by simp [hb])]; exact ih.oldest,
        ih.enough.imp id fun hall y hy => (List.mem_cons.mp hy).elim (fun he => he ▸ hb) (hall y), ih.last⟩
    | false =>
      have ih := demote_demotes busy k xs (free + h.data.length)
      rw [demote_gone hk hb]
      refine ⟨ih.kept.cons h, ih.gone.cons_cons h, List.perm_middle.trans (ih.perm.cons h), ?_, ?_, fun _ => ?_⟩
      · rw [List.filter_cons_of_pos (by simp [hb])]
        exact List.prefix_cons_inj h |>.mpr ih.oldest
      · refine ih.enough.imp (fun hle => ?_) id
        rw [List.map_cons, List.sum_cons]
        omega
      · by_cases hnil : (demote busy k (free + h.data.length) xs).2 = []
        · rw [hnil, List.dropLast_singleton]
          simp only [List.map_nil, List.sum_nil]
          omega
        · have := ih.last hnil
          rw [List.dropLast_cons_of_ne_nil hnil, List.map_cons, List.sum_cons]
          omega

/-- R56: the flag by the held-sector total. -/
theorem escalationAfter_cases (was : Bool) (n : Nat) :
    (4096 ≤ n → escalationAfter was n = true) ∧ (n < 3584 → escalationAfter was n = false) ∧ (3584 ≤ n → n < 4096 → escalationAfter was n = was) := by
  have hoff : Config.escalateOff = 3584 := rfl
  have hon : Config.escalateOn = 4096 := rfl
  unfold escalationAfter
  rw [hoff, hon]
  refine ⟨fun h => ?_, fun h => ?_, fun h1 h2 => ?_⟩ <;> cases was <;> simp <;> omega

theorem writingFrom_iff {l : Library} : l.writingFrom h = true ↔ (l.twin h.book).writing = some ⟨h.frame, true⟩ := by
  unfold Library.writingFrom
  cases hw : (l.twin h.book).writing with
  | none => simp
  | some w =>
    obtain ⟨f, q⟩ := w
    simp

/-- R54, R55: the slots that the twin write in progress at a drive keeps for an entry that has left the list. -/
def Library.slotsOwed (l : Library) (d : Drive) : Nat :=
  match (l.drive d).service.map InService.command with
  | some (.twinWrite _ _ n true false) => n
  | _ => 0

theorem holdSlots_eq (c : Command) : c.holdSlots = match some c with
    | some (.twinWrite _ _ n true false) => n
    | _ => 0 := by
  cases c with
  | twinWrite b f n fromHold live => cases fromHold <;> cases live <;> rfl
  | fetchRead | primaryWrite | reread | rescueRead | rescueWrite | patrolVerify => rfl

theorem Library.holdFree_eq (l : Library) :
    l.holdFree = 5120 - ((l.buffer.hold.map fun h => h.data.length).sum + (l.slotsOwed 0 + l.slotsOwed 1 + l.slotsOwed 2 + l.slotsOwed 3)) := by
  have hsum : l.commandSlots Command.holdSlots = l.slotsOwed 0 + l.slotsOwed 1 + l.slotsOwed 2 + l.slotsOwed 3 := by
    have howed : l.commandSlots Command.holdSlots = (allDrives.map l.slotsOwed).sum := by
      unfold Library.commandSlots
      refine congrArg List.sum (List.map_congr_left fun d _ => ?_)
      unfold Library.slotsOwed
      cases (l.drive d).service with
      | none => rfl
      | some v => exact holdSlots_eq v.command
    rw [howed]
    simp [allDrives, List.finRange_succ]
    omega
  unfold Library.holdFree
  rw [hsum]
  rfl

/-- R55, R56: entries that leave the hold list go alone, and the total is tested. -/
theorem leaveHold_rest (l : Library) (gone : HoldEntry → Bool) :
    (l.leaveHold gone).buffer.hold = l.buffer.hold.filter (fun h => !gone h) ∧ EscalationTested l (l.leaveHold gone)
      ∧ l.leaveHold gone = { l with
          buffer := { l.buffer with hold := l.buffer.hold.filter (fun h => !gone h), escalation := (l.leaveHold gone).buffer.escalation }
          scheduler := { l.scheduler with escalation := (l.leaveHold gone).scheduler.escalation, decisionDue := (l.leaveHold gone).scheduler.decisionDue } } := by
  obtain ⟨⟨h1, h2, h3⟩, h4, -⟩ := testEscalation_tests { l with buffer := { l.buffer with hold := l.buffer.hold.filter (fun h => !gone h) } }
  refine ⟨by rw [Library.leaveHold, h4], ⟨h1, h2, h3⟩, h4⟩

/-- Settles O52: by the recursion of the demotion, and the test of the total that each change ends with. -/
theorem holdListDemotesAndEscalates : Obligations.HoldListDemotesAndEscalates := by
  refine ⟨fun busy k free xs => ?_, escalationAfter_cases, fun l h => ?_, fun l gone => ?_⟩
  · have hd := demote_demotes busy k xs free
    exact ⟨hd.kept, hd.gone, hd.perm, hd.oldest, hd.enough, fun hk => by rw [demote_room hk], hd.last⟩
  · obtain ⟨h1, h2, -⟩ := joinHold_rest l h
    exact ⟨h1, h2, writingFrom_iff, l.holdFree_eq⟩
  · obtain ⟨h1, h2, -⟩ := leaveHold_rest l gone
    exact ⟨h1, h2⟩

end Demotion

section Trigger

variable {e : Env} {l : Library} {i : Side} {r : FaultRecord}

/-- R166: what calls for a side's place in the rescue queue. -/
def Library.triggers (e : Env) (l : Library) (i : Side) : Prop :=
  (l.role i).holds.isSome ∧ (e.threshold ≤ (l.health i).corrected ∨ 0 < (l.health i).uncorrectable) ∧ ¬ i ∈ l.care.queue
    ∧ l.care.rescue.map RescueRecord.source ≠ some i

theorem trigger_queues (h : l.triggers e i) (hq : l.care.queue.length < 8) :
    l.trigger e i = { l with care := { l.care with queue := l.care.queue ++ [i], seekDue := true } } := by
  unfold Library.trigger
  exact (if_pos h).trans (if_pos hq)

theorem trigger_full (h : l.triggers e i) (hq : 8 ≤ l.care.queue.length) :
    l.trigger e i = l.fault e { FaultRecord.of e .rescueQueueFull with book := (l.role i).holds, side := some i } := by
  unfold Library.trigger
  exact (if_pos h).trans (if_neg (Nat.not_lt.mpr hq))

theorem trigger_none (h : ¬ l.triggers e i) : l.trigger e i = l := by
  unfold Library.trigger
  exact if_neg h

theorem KindSet.has_with_iff (s : KindSet) (k j : FaultKind) : KindSet.has (KindSet.with s j) k = (KindSet.has s k || k == j) := by
  have hbit : (1#11 <<< (j.code - 1)).getLsbD (k.code - 1) = (k == j) := by cases k <;> cases j <;> rfl
  rw [KindSet.has, KindSet.with, BitVec.getLsbD_or, hbit]
  rfl

/-- Settles O53: the trigger and the record, branch by branch. -/
theorem countsQueueSidesAndFaultsAreLogged : Obligations.CountsQueueSidesAndFaultsAreLogged := by
  refine ⟨fun e l i => ⟨fun h1 h2 h3 h4 => ?_, fun h => trigger_none ?_⟩, fun e l r => ⟨fun hm => ?_, fun hm hl => ?_, fun hm q hl => ?_⟩⟩
  · have ht : l.triggers e i := ⟨Option.isSome_iff_ne_none.mpr h1, h2, h3, fun h => by
      obtain ⟨r, hr, hs⟩ := Option.map_eq_some_iff.mp h
      exact h4 r hr hs⟩
    refine ⟨fun hq => ?_, fun hq => ?_⟩
    · rw [trigger_queues ht hq]; exact ⟨rfl, rfl⟩
    · rw [trigger_full ht hq]; exact ⟨rfl, fun hl hm => fault_first hl hm⟩
  · rintro ⟨t1, t2, t3, t4⟩
    rcases h with h | ⟨h, h'⟩ | h | ⟨r, hr, h⟩
    · rw [h] at t1; exact absurd t1 (by decide)
    · omega
    · exact t3 h
    · exact t4 (by rw [hr, ← h]; rfl)
  · unfold Library.fault FaultLog.record
    rw [if_pos hm]
  · have hlog : (l.fault e r).log = { l.log with first := some r } := by simp [Library.fault, FaultLog.record, hm, hl]
    exact ⟨hlog, by rw [Library.attn, hlog]; rfl⟩
  · have hlog : (l.fault e r).log = { l.log with later := KindSet.with l.log.later r.kind, laterCount := satAdd Config.max8 l.log.laterCount 1 } := by
      simp [Library.fault, FaultLog.record, hm, hl]
    rw [hlog]
    exact ⟨hl, rfl, fun k => KindSet.has_with_iff _ _ _⟩

end Trigger

end Sys2Proof.Machine
end

section
-- One declaration after the other: the stacks of the threads that wait for each other count against the check's memory limit.
set_option Elab.async false
namespace Sys2Proof.Machine

/-! # Request records -/

section Addresses

variable {a : Nat} {b : Book}

theorem bookOf_eq_some : bookOf a = some b ↔ a / 262144 = b.val := by
  have h262144 : Config.sectorsPerBook = 262144 := rfl
  unfold bookOf
  rw [h262144]
  dsimp only
  constructor
  · intro h
    split at h
    · rw [← Option.some.inj h]
    · cases h
  · intro h
    have hb := b.isLt
    rw [dif_pos (by omega)]
    exact congrArg some (Fin.ext h)

theorem bookOf_eq_none : bookOf a = none ↔ 33292288 ≤ a := by
  have h262144 : Config.sectorsPerBook = 262144 := rfl
  unfold bookOf
  rw [h262144]
  dsimp only
  split <;> simp <;> omega

end Addresses

section Refused

variable {s : State} {r : RequestRecord} {o : Outcome}

/-- R32: a record that finds its tag FREE is refused in HOLD. -/
theorem State.takeRecord_hold (hfree : s.lib.entry r.tag = none) (hhold : s.env.hold = true) (check : Option Outcome) (proceed : State → State) :
    s.begin.takeRecord r check proceed = State.finish { s.begin with lib := (s.begin.lib.emit (.accept r.tag)).refuse r .powerHold } := by
  have hx : (s.begin.lib.emit (.accept r.tag)).entry r.tag = none := hfree
  unfold State.takeRecord
  simp only [hx]
  exact if_pos hhold

/-- R25: a record that finds its tag FREE outside HOLD is refused by its check. -/
theorem State.takeRecord_refused (hfree : s.lib.entry r.tag = none) (hhold : s.env.hold = false) (proceed : State → State) :
    s.begin.takeRecord r (some o) proceed = State.finish { s.begin with lib := (s.begin.lib.emit (.accept r.tag)).refuse r o } := by
  have hx : (s.begin.lib.emit (.accept r.tag)).entry r.tag = none := hfree
  unfold State.takeRecord
  simp only [hx]
  exact if_neg (by rw [show s.begin.env.hold = _ from hhold]; decide)

theorem State.takeRecord_proceeds (hfree : s.lib.entry r.tag = none) (hhold : s.env.hold = false) (proceed : State → State) :
    s.begin.takeRecord r none proceed = proceed { s.begin with lib := s.begin.lib.emit (.accept r.tag) } := by
  have hx : (s.begin.lib.emit (.accept r.tag)).entry r.tag = none := hfree
  unfold State.takeRecord
  simp only [hx]
  exact if_neg (by rw [show s.begin.env.hold = _ from hhold]; decide)

/-- R25, R44: everything that the refusal of a record does. -/
theorem refuse_refused (hend : s.lib.front.ending = []) (ho : o ≠ .done) :
    RefusedAtArrival s (State.finish { s.begin with lib := (s.begin.lib.emit (.accept r.tag)).refuse r o }) r o := by
  have he := endRequest_ends (l := (s.begin.lib.emit (.accept r.tag)).setEntry r.tag (some (newEntry r .refused))) (t := r.tag)
    (x := newEntry r .refused) (Library.setEntry_entry_same ..) o 0 0
  have hsame := he.sameBlocks rfl
  have hf := (State.finish_ended (s := s) (u := { s.begin with lib := (s.begin.lib.emit (.accept r.tag)).refuse r o }) rfl)
  have hstart : SameBlocks s.lib ((s.begin.lib.emit (.accept r.tag)).setEntry r.tag (some (newEntry r .refused))) :=
    ⟨rfl, rfl, rfl, rfl, rfl, rfl, rfl, rfl, rfl⟩
  have hstop : stopAddressOf o r.addr.val 0 = r.addr.val := if_neg ho
  obtain ⟨y, hy, h1, h2, h3, -⟩ := (he.finished hf.lib).entry
  refine ⟨rfl, rfl, rfl, hstart.trans (hsame.trans hf.lib.sameBlocks), fun u hu => ?_,
    hf.lib.out.trans he.out, hf.lib.link.trans he.link, ⟨y, hy, h1, h2, h3⟩, ?_⟩
  · exact (hf.lib.entry u).trans ((he.others u hu).trans ((Library.setEntry_entry ..).trans (if_neg (Ne.symm hu))))
  · have hresp : ((s.begin.lib.emit (.accept r.tag)).refuse r o).front.responses = s.lib.front.responses := he.responses
    have hending : ((s.begin.lib.emit (.accept r.tag)).refuse r o).front.ending = [⟨r.tag, o, 0, r.addr.val, r.count.val, .empty, 0⟩] := by
      refine he.ending.trans ?_
      rw [show ((s.begin.lib.emit (.accept r.tag)).setEntry r.tag (some (newEntry r .refused))).front.ending = [] from hend, List.nil_append]
      exact congrArg (fun n => [(⟨r.tag, o, 0, n, r.count.val, .empty, 0⟩ : Response)]) hstop
    show ((s.begin.lib.emit (.accept r.tag)).refuse r o).front.responses
      ++ ((s.begin.lib.emit (.accept r.tag)).refuse r o).front.ending.foldr insertResponse [] = _
    rw [hresp, hending]
    rfl

variable (hs : s.env.startUp = none) (hfree : s.lib.entry r.tag = none) (hend : s.lib.front.ending = [])

include hs hfree hend in
/-- R32, R33: a FETCH record that is refused. -/
theorem fetch_refused (ho : o ≠ .done) (h : s.env.hold = true ∧ o = .powerHold ∨ s.env.hold = false ∧ s.lib.fetchCheck r = some o) :
    ∃ t, exec (.fetchRequest r) s = .next t ∧ RefusedAtArrival s t r o := by
  refine ⟨_, ?_, refuse_refused hend ho⟩
  rw [exec_fetchRequest, State.event_next _ hs]
  rcases h with ⟨hh, rfl⟩ | ⟨hh, hc⟩
  · exact congrArg _ (State.takeRecord_hold hfree hh _ _)
  · rw [show s.begin.lib.fetchCheck r = _ from hc]
    exact congrArg _ (State.takeRecord_refused hfree hh _)

include hs hfree hend in
/-- R32, R35, R37: a FILE record that is refused. -/
theorem file_refused (ho : o ≠ .done) (h : s.env.hold = true ∧ o = .powerHold ∨ s.env.hold = false ∧ s.lib.fileArrival s.env r = some o) :
    ∃ t, exec (.fileRequest r) s = .next t ∧ RefusedAtArrival s t r o := by
  refine ⟨_, ?_, refuse_refused hend ho⟩
  rw [exec_fileRequest, State.event_next _ hs]
  rcases h with ⟨hh, rfl⟩ | ⟨hh, hc⟩
  · exact congrArg _ (State.takeRecord_hold hfree hh _ _)
  · rw [show s.begin.lib.fileArrival s.begin.env r = _ from hc]
    exact congrArg _ (State.takeRecord_refused hfree hh _)

end Refused

section FetchChecks

variable {l : Library} {r : RequestRecord}

theorem fetchCheck_count (h : r.count.val < 1 ∨ 512 < r.count.val) : l.fetchCheck r = some .badRequest := if_pos h

theorem fetchCheck_book {b : Book} (h1 : 1 ≤ r.count.val) (h2 : r.count.val ≤ 512) (hb : bookOf r.addr.val = some b) :
    l.fetchCheck r = if (l.book b).state = .unassigned then some .bookUnassigned else none := by
  unfold Library.fetchCheck
  rw [if_neg (by simp only [Config.maxFetch]; omega), hb]

theorem fetchCheck_service (h1 : 1 ≤ r.count.val) (h2 : r.count.val ≤ 512) (hb : 33292288 ≤ r.addr.val) :
    l.fetchCheck r = if 33554431 < r.addr.val + r.count.val - 1 then some .badRequest else none := by
  unfold Library.fetchCheck
  rw [if_neg (by simp only [Config.maxFetch]; omega), bookOf_eq_none.mpr hb]
  rfl

/-- Settles O5: the checks in their order. -/
theorem fetchChecksRefuse : Obligations.FetchChecksRefuse := by
  intro s r hs hfree hend
  refine ⟨fun hh => fetch_refused hs hfree hend (by decide) (.inl ⟨hh, rfl⟩), fun hh => ⟨fun hc => ?_, fun h1 h2 => ⟨fun b hb hu => ?_, fun hb hlast => ?_⟩⟩⟩
  · exact fetch_refused hs hfree hend (by decide) (.inr ⟨hh, fetchCheck_count hc⟩)
  · exact fetch_refused hs hfree hend (by decide) (.inr ⟨hh, (fetchCheck_book h1 h2 hb).trans (if_pos hu)⟩)
  · exact fetch_refused hs hfree hend (by decide) (.inr ⟨hh, (fetchCheck_service h1 h2 hb).trans (if_pos hlast)⟩)

end FetchChecks

section FileChecks

variable {e : Env} {l : Library} {r : RequestRecord} {b : Book} {p : Side}

/-- R37: the one check of a FILE in the service book. -/
theorem fileArrival_service (hb : 33292288 ≤ r.addr.val) : l.fileArrival e r = if r.count.val = 1 then none else some .badRequest := by
  unfold Library.fileArrival
  rw [bookOf_eq_none.mpr hb]

theorem fileArrival_book (hb : bookOf r.addr.val = some b) : l.fileArrival e r = l.fileCheck e r b := by
  unfold Library.fileArrival
  rw [hb]

theorem fileCheck_count (h : r.count.val < 1 ∨ 64 < r.count.val) : l.fileCheck e r b = some .badRequest := if_pos h

/-- R35: what the checks from the second on decide of a FILE whose count is in its range. -/
theorem fileCheck_mark (h1 : 1 ≤ r.count.val) (h2 : r.count.val ≤ 64) (h : r.addr.val % 64 ≠ 0) : l.fileCheck e r b = some .notAtMark := by
  unfold Library.fileCheck
  dsimp only
  rw [if_neg (by simp only [Config.maxFile]; omega), if_pos (show sectorOf r.addr.val ≠ 0 from h)]

/-- R35: the checks of the book's state and of its primary side, for a FILE that begins at a frame. -/
theorem fileCheck_state (h1 : 1 ≤ r.count.val) (h2 : r.count.val ≤ 64) (h : r.addr.val % 64 = 0) :
    ((l.book b).state = .unassigned → l.fileCheck e r b = some .bookUnassigned) ∧ ((l.book b).state = .closed → l.fileCheck e r b = some .bookClosed) := by
  unfold Library.fileCheck
  dsimp only
  rw [if_neg (by simp only [Config.maxFile]; omega), if_neg (show ¬ sectorOf r.addr.val ≠ 0 from not_not.mpr h)]
  refine ⟨fun hk => if_pos hk, fun hk => ?_⟩
  rw [if_neg (by rw [hk]; decide), if_pos hk]

/-- R35: the last checks, of a FILE in an OPEN book. -/
theorem fileCheck_open (h1 : 1 ≤ r.count.val) (h2 : r.count.val ≤ 64) (h : r.addr.val % 64 = 0) (hk : (l.book b).state = .opened)
    (hp : (l.book b).primary = some p) :
    l.fileCheck e r b = if l.available e p = false then some .sideUnavailable
      else if frameOf r.addr.val ≠ (l.book b).intake ∨ Config.framesPerBook ≤ frameOf r.addr.val then some .notAtMark
      else if r.flag = .cont ∧ hasInstrument (l.acceptMark e b) (frameOf r.addr.val) = false then some .badContinuation else none := by
  unfold Library.fileCheck
  dsimp only
  rw [if_neg (by simp only [Config.maxFile]; omega), if_neg (show ¬ sectorOf r.addr.val ≠ 0 from not_not.mpr h), if_neg (by rw [hk]; decide),
    if_neg (by rw [hk]; decide), hp]

theorem frameOf_lt (a : Nat) : frameOf a < 4096 := by
  show a % 262144 / 64 < 4096
  omega

theorem continuesBelow_iff {mark : Nat → HeadMark} {f : Nat} : ContinuesBelow mark f ↔ hasInstrument mark f = true := by
  unfold ContinuesBelow
  exact hasInstrument_iff.symm

/-! ## How a frame counts -/

theorem acceptMark_filed {f : Nat} (h : f < (l.book b).filing) : l.acceptMark e b f = (e.frame b f).mark := if_pos h

/-- R12: the filing that a tag's FILE makes of a frame. -/
def Library.filingAt (l : Library) (b : Book) (f : Nat) (t : Tag) : Option Filing :=
  match l.fileOf t with
  | some (_, g) => if g.book = b ∧ g.frame = f then some g else none
  | none => none

theorem acceptedAt_eq (l : Library) (b : Book) (f : Nat) : l.acceptedAt b f = allTags.findSome? (l.filingAt b f) := rfl

theorem filingAt_eq_some {f : Nat} {t : Tag} {g : Filing} : l.filingAt b f t = some g ↔ ∃ x, l.fileOf t = some (x, g) ∧ g.book = b ∧ g.frame = f := by
  unfold Library.filingAt
  cases h : l.fileOf t with
  | none => simp
  | some p =>
    obtain ⟨x, k⟩ := p
    by_cases hk : k.book = b ∧ k.frame = f
    · simp only [if_pos hk, Option.some.injEq, Prod.mk.injEq]
      constructor
      · rintro rfl; exact ⟨x, ⟨rfl, rfl⟩, hk⟩
      · rintro ⟨_, ⟨-, rfl⟩, -⟩; rfl
    · simp only [if_neg hk, reduceCtorEq, false_iff]
      rintro ⟨_, hxk, hbf⟩
      simp only [Option.some.injEq, Prod.mk.injEq] at hxk
      exact hk (hxk.2 ▸ hbf)

theorem acceptMark_accepted {f : Nat} {t : Tag} {x : Entry} {g : Filing} (h : (l.book b).filing ≤ f) (hg : l.fileOf t = some (x, g)) (hb : g.book = b)
    (hf : g.frame = f) (hone : ∀ u y h, l.fileOf u = some (y, h) → h.book = b → h.frame = f → u = t) :
    l.acceptMark e b f = if g.isHead = true then .head g.cls else .cont := by
  have hat : l.acceptedAt b f = some g := by
    have hsome : (allTags.findSome? (l.filingAt b f)).isSome := by
      rw [List.findSome?_isSome_iff]
      exact ⟨t, List.mem_finRange t, Option.isSome_iff_exists.mpr ⟨g, filingAt_eq_some.mpr ⟨x, hg, hb, hf⟩⟩⟩
    obtain ⟨k, hk⟩ := Option.isSome_iff_exists.mp hsome
    obtain ⟨u, -, hu⟩ := List.exists_of_findSome?_eq_some hk
    obtain ⟨y, hy, hkb, hkf⟩ := filingAt_eq_some.mp hu
    have := hone u y k hy hkb hkf
    subst this
    rw [hg] at hy
    cases hy
    exact hk
  unfold Library.acceptMark
  rw [if_neg (by omega), hat]

theorem acceptMark_none {f : Nat} (h : (l.book b).filing ≤ f) (hno : ∀ t x g, l.fileOf t = some (x, g) → g.book = b → g.frame ≠ f) :
    l.acceptMark e b f = .none := by
  have hat : l.acceptedAt b f = none := by
    rw [acceptedAt_eq, List.findSome?_eq_none_iff]
    intro t _
    cases ht : l.filingAt b f t with
    | none => rfl
    | some g =>
      obtain ⟨x, hx, hb, hf⟩ := filingAt_eq_some.mp ht
      exact absurd hf (hno t x g hx hb)
  unfold Library.acceptMark
  rw [if_neg (by omega), hat]

/-- Settles O8: the checks in the order of Table 2-3, and the mark of a frame by where it stands. -/
theorem fileChecksRefuse : Obligations.FileChecksRefuse := by
  refine ⟨fun s r hs hfree hend => ?_, fun e l b f => ⟨acceptMark_filed, fun h => ⟨fun t x g => acceptMark_accepted h, acceptMark_none h⟩⟩,
    fun c n => ⟨rfl, rfl, rfl, rfl, rfl, rfl⟩⟩
  intro ends
  have href {o : Outcome} (hh : s.env.hold = false) (ho : o ≠ .done) (hc : s.lib.fileArrival s.env r = some o) : ends o :=
    file_refused hs hfree hend ho (.inr ⟨hh, hc⟩)
  refine ⟨fun hh => file_refused hs hfree hend (by decide) (.inl ⟨hh, rfl⟩), fun hh => ⟨fun hb hn => ?_, fun b hb => ?_⟩⟩
  · exact href hh (by decide) ((fileArrival_service hb).trans (if_neg hn))
  have harr := fileArrival_book (l := s.lib) (e := s.env) hb
  refine ⟨fun hc => href hh (by decide) (harr.trans (fileCheck_count hc)), fun h1 h2 => ⟨fun hm => href hh (by decide) (harr.trans (fileCheck_mark h1 h2 hm)),
    fun hm => ⟨fun hk => href hh (by decide) (harr.trans ((fileCheck_state h1 h2 hm).1 hk)),
      fun hk => href hh (by decide) (harr.trans ((fileCheck_state h1 h2 hm).2 hk)), fun p hk hp => ?_⟩⟩⟩
  have hopen := harr.trans (fileCheck_open h1 h2 hm hk hp)
  refine ⟨fun ha => href hh (by decide) (hopen.trans (if_pos ha)), fun ha => ?_⟩
  rw [if_neg (by rw [ha]; decide)] at hopen
  refine ⟨fun hne => href hh (by decide) (hopen.trans (if_pos (.inl hne))), fun heq hcont hno => ?_⟩
  have hlt : ¬ (frameOf r.addr.val ≠ (s.lib.book b).intake ∨ Config.framesPerBook ≤ frameOf r.addr.val) := by
    have := frameOf_lt r.addr.val
    rintro (h | h)
    · exact h heq
    · exact absurd h (Nat.not_le.mpr this)
  rw [if_neg hlt, if_pos ⟨hcont, by rw [continuesBelow_iff] at hno; simpa using hno⟩] at hopen
  exact href hh (by decide) hopen

end FileChecks

end Sys2Proof.Machine
end

section
-- One declaration after the other: the stacks of the threads that wait for each other count against the check's memory limit.
set_option Elab.async false
namespace Sys2Proof.Machine

/-! # The cutting of a run, and accepted records -/

section Cutting

/-- A run of numbers, cut at the multiples of `c`. -/
theorem flatMap_cut {c z : Nat} (hc : 0 < c) : ∀ (n g a : Nat), a / c = g → (z - 1) / c + 1 = g + n → a < z →
    ((List.range' g n).flatMap fun k => List.range' (max a (k * c)) (min z ((k + 1) * c) - max a (k * c))) = List.range' a (z - a)
  | 0, g, a, hg, hn, haz => by
    have := Nat.div_le_div_right (c := c) (show a ≤ z - 1 by omega)
    omega
  | n + 1, g, a, hg, hn, haz => by
    have hlow : g * c ≤ a := by rw [← hg]; exact Nat.div_mul_le_self a c
    have hhigh : a < (g + 1) * c := by rw [← hg, Nat.mul_comm]; exact Nat.lt_mul_div_succ a hc
    rw [List.range'_succ, List.flatMap_cons, Nat.max_eq_left hlow]
    by_cases hz : z ≤ (g + 1) * c
    · have hn0 : n = 0 := by
        have : (z - 1) / c < g + 1 := Nat.div_lt_of_lt_mul (by rw [Nat.mul_comm]; omega)
        omega
      subst hn0
      rw [Nat.min_eq_left hz]
      exact List.append_nil _
    · have ih := flatMap_cut (z := z) hc n (g + 1) ((g + 1) * c) (Nat.mul_div_cancel _ hc) (by omega) (by omega)
      have hcongr : ((List.range' (g + 1) n).flatMap fun k => List.range' (max a (k * c)) (min z ((k + 1) * c) - max a (k * c)))
          = (List.range' (g + 1) n).flatMap fun k => List.range' (max ((g + 1) * c) (k * c)) (min z ((k + 1) * c) - max ((g + 1) * c) (k * c)) := by
        refine List.flatMap_congr fun k hk => ?_
        have hk' : (g + 1) * c ≤ k * c := Nat.mul_le_mul_right c (List.mem_range'_1.mp hk).1
        rw [Nat.max_eq_right hk', Nat.max_eq_right ((Nat.le_of_lt hhigh).trans hk')]
      rw [hcongr, ih, Nat.min_eq_right (by omega), show z - a = ((g + 1) * c - a) + (z - (g + 1) * c) by omega, ← List.range'_append_1]
      rw [show a + ((g + 1) * c - a) = (g + 1) * c by omega]

theorem flatMap_filterMap {α β γ : Type} {f : α → Option β} {F : β → List γ} {G : α → List γ} : ∀ {xs : List α},
    (∀ x ∈ xs, ∃ y, f x = some y ∧ F y = G x) → (xs.filterMap f).flatMap F = xs.flatMap G
  | [], _ => rfl
  | x :: xs, h => by
    obtain ⟨y, hy, hF⟩ := h x (.head _)
    rw [List.filterMap_cons_some hy, List.flatMap_cons, List.flatMap_cons, hF, flatMap_filterMap fun z hz => h z (.tail _ hz)]

/-- What is made of the elements of a list one by one, and shows which element it was made of, is made once. -/
theorem map_filterMap {α β : Type} {f : α → Option β} {k : β → α} : ∀ {xs : List α}, (∀ x ∈ xs, ∃ y, f x = some y ∧ k y = x) →
    (xs.filterMap f).map k = xs
  | [], _ => rfl
  | x :: xs, h => by
    obtain ⟨y, hy, hk⟩ := h x (.head _)
    rw [List.filterMap_cons_some hy, List.map_cons, hk, map_filterMap fun z hz => h z (.tail _ hz)]

variable {a z : Nat}

/-- R39: the frames of a run, counted through the volume, lie in the record books. -/
theorem mem_runFrames (hz : z ≤ 33292288) (haz : a < z) {g : Nat} (hg : g ∈ List.range' (a / 64) ((z - 1) / 64 + 1 - a / 64)) :
    a < g * 64 + 64 ∧ g * 64 < z ∧ g / 4096 < 127 := by
  rw [List.mem_range'_1] at hg
  omega

/-- R39: the window of a frame of a run. -/
def frameWindow (a z g : Nat) (h : g / 4096 < 127) : Window :=
  Window.fresh ⟨g / 4096, h⟩ (g % 4096) (if g * 64 ≤ a then a - g * 64 else 0) (if z ≤ g * 64 + 64 then z - 1 - g * 64 else 63)

theorem windowOf_eq (a z g : Nat) (h : g / 4096 < 127) : windowOf a z g = some (frameWindow a z g h) := by
  have hi : asIndex 127 (g / Config.framesPerBook) = some ⟨g / 4096, h⟩ := dif_pos h
  unfold windowOf
  rw [hi]
  rfl

theorem frameWindow_address (a z g : Nat) (h : g / 4096 < 127) (i : Nat) : (frameWindow a z g h).address i = g * 64 + i := by
  show g / 4096 * 262144 + g % 4096 * 64 + i = _
  omega

/-- R39: the sectors of the window of a frame are those of the run in it. -/
theorem frameWindow_sectors {g : Nat} (h : g / 4096 < 127) (ha : a < g * 64 + 64) (hz : g * 64 < z) :
    (List.range' (frameWindow a z g h).first ((frameWindow a z g h).last + 1 - (frameWindow a z g h).first)).map (frameWindow a z g h).address
      = List.range' (max a (g * 64)) (min z ((g + 1) * 64) - max a (g * 64)) := by
  have hmap : (frameWindow a z g h).address = (g * 64 + ·) := funext (frameWindow_address a z g h)
  have hfirst : (frameWindow a z g h).first = if g * 64 ≤ a then a - g * 64 else 0 := rfl
  have hlast : (frameWindow a z g h).last = if z ≤ g * 64 + 64 then z - 1 - g * 64 else 63 := rfl
  rw [hmap, List.map_add_range', hfirst, hlast]
  congr 1
  · split <;> omega
  · split <;> split <;> omega

/-- R39: the windows of a run, with what each shows of its frame. -/
theorem windowsOf_flatMap (hz : z ≤ 33292288) (haz : a < z) :
    ((windowsOf a z).flatMap fun w => (List.range' w.first (w.last + 1 - w.first)).map w.address) = List.range' a (z - a) := by
  unfold windowsOf
  rw [flatMap_filterMap (G := fun g => List.range' (max a (g * 64)) (min z ((g + 1) * 64) - max a (g * 64))) fun g hg => ?_]
  · refine flatMap_cut (by decide) _ _ a rfl ?_ haz
    have := Nat.div_le_div_right (c := 64) (show a ≤ z - 1 by omega)
    omega
  · obtain ⟨h1, h2, h3⟩ := mem_runFrames hz haz hg
    exact ⟨_, windowOf_eq a z g h3, frameWindow_sectors h3 h1 h2⟩

theorem mem_windowsOf (hz : z ≤ 33292288) (haz : a < z) {w : Window} (hw : w ∈ windowsOf a z) :
    w.first ≤ w.last ∧ w.last ≤ 63 ∧ w.frame < 4096 ∧ w.state = .unopened := by
  obtain ⟨g, hg, hgw⟩ := List.mem_filterMap.mp hw
  obtain ⟨h1, h2, h3⟩ := mem_runFrames hz haz hg
  rw [windowOf_eq a z g h3] at hgw
  obtain rfl := Option.some.inj hgw
  have hfirst : (frameWindow a z g h3).first = if g * 64 ≤ a then a - g * 64 else 0 := rfl
  have hlast : (frameWindow a z g h3).last = if z ≤ g * 64 + 64 then z - 1 - g * 64 else 63 := rfl
  refine ⟨?_, ?_, Nat.mod_lt _ (by decide), rfl⟩
  · rw [hfirst, hlast]; split <;> split <;> omega
  · rw [hlast]; split <;> omega

theorem windowsOf_nodup (hz : z ≤ 33292288) (haz : a < z) : ((windowsOf a z).map fun w => (w.book, w.frame)).Nodup := by
  refine List.Nodup.of_map (fun p : Book × Nat => p.1.val * 4096 + p.2) ?_
  rw [List.map_map]
  unfold windowsOf
  rw [map_filterMap fun g hg => ?_]
  · exact List.nodup_range'
  · obtain ⟨-, -, h3⟩ := mem_runFrames hz haz hg
    exact ⟨_, windowOf_eq a z g h3, Nat.div_add_mod' g 4096⟩

/-! ## Segments -/

theorem mem_runBooks (hz : z ≤ 33292288) (haz : a < z) {n : Nat} (hn : n ∈ List.range' (a / 262144) ((z - 1) / 262144 + 1 - a / 262144)) :
    a < n * 262144 + 262144 ∧ n * 262144 < z ∧ n < 127 := by
  rw [List.mem_range'_1] at hn
  omega

theorem segmentOf_eq (a z : Nat) (b : Book) :
    segmentOf a z b.val = some ⟨b, max a (b.val * 262144), min z ((b.val + 1) * 262144) - max a (b.val * 262144), b.val == a / 262144⟩ := by
  have hi : asIndex 127 b.val = some b := asIndex_val b
  unfold segmentOf
  rw [hi]
  rfl

theorem segmentsOf_flatMap (hz : z ≤ 33292288) (haz : a < z) :
    ((segmentsOf a z).flatMap fun g => List.range' g.first g.count) = List.range' a (z - a) := by
  unfold segmentsOf
  rw [flatMap_filterMap (G := fun n => List.range' (max a (n * 262144)) (min z ((n + 1) * 262144) - max a (n * 262144))) fun n hn => ?_]
  · refine flatMap_cut (by decide) _ _ a rfl ?_ haz
    have := Nat.div_le_div_right (c := 262144) (show a ≤ z - 1 by omega)
    simp only [Config.sectorsPerBook]
    omega
  · obtain ⟨-, -, h3⟩ := mem_runBooks hz haz hn
    exact ⟨_, segmentOf_eq a z ⟨n, h3⟩, rfl⟩

theorem mem_segmentsOf (hz : z ≤ 33292288) (haz : a < z) {g : Segment} (hg : g ∈ segmentsOf a z) :
    1 ≤ g.count ∧ bookOf g.first = some g.book ∧ bookOf (g.first + g.count - 1) = some g.book ∧ (g.checked = true ↔ bookOf a = some g.book) := by
  obtain ⟨n, hn, hs⟩ := List.mem_filterMap.mp hg
  obtain ⟨h1, h2, h3⟩ := mem_runBooks hz haz hn
  rw [segmentOf_eq a z ⟨n, h3⟩] at hs
  obtain rfl := Option.some.inj hs
  simp only [bookOf_eq_some, beq_iff_eq]
  omega

end Cutting

/-! ## Accepted records -/

section Accepted

variable {s : State} {r : RequestRecord}

theorem runEnd_bounds (h : r.addr.val < 33292288) (hc : 1 ≤ r.count.val) : runEnd r ≤ 33292288 ∧ r.addr.val < runEnd r := by
  show min _ 33292288 ≤ _ ∧ _ < min _ 33292288
  omega

/-- Settles O7: the frames of the run, one after the other. -/
theorem windowsCoverRun : Obligations.WindowsCoverRun := by
  intro r ha h1 _
  obtain ⟨hz, haz⟩ := runEnd_bounds ha h1
  exact ⟨windowsOf_flatMap hz haz, fun w hw => mem_windowsOf hz haz hw, windowsOf_nodup hz haz⟩

end Accepted

end Sys2Proof.Machine
end

section
-- One declaration after the other: the stacks of the threads that wait for each other count against the check's memory limit.
set_option Elab.async false
namespace Sys2Proof.Machine

/-! # Accepted requests and pulls -/

section Accepted

variable {s : State} {r : RequestRecord}

/-- What the reactions compare an event's library with does not contain what the links carried. -/
theorem registerEvents_out (e : Env) (l was : Library) (os : List Output) : l.registerEvents e { was with out := os } = l.registerEvents e was := rfl

theorem settle_out (e : Env) (l was : Library) (os : List Output) : l.settle e { was with out := os } = l.settle e was := by
  have hpass : l.pass e { was with out := os } = l.pass e was := by
    unfold Library.pass
    rw [registerEvents_out]
  have hpasses : Library.passes e 6 { was with out := os } l = Library.passes e 6 was l := by
    unfold Library.passes
    rw [hpass]
  unfold Library.settle
  rw [hpasses]
  rfl

/-- R29: the library in which an accepted record's entry has been made. -/
def State.accepted (s : State) (r : RequestRecord) (j : Job) : Library :=
  ({ s.lib with out := [.accept r.tag] }).setEntry r.tag (some ⟨r, j, 0, r.addr.val, .empty, 0, none, 0⟩)

theorem exec_fetch_proceeds (hs : s.env.startUp = none) (hfree : s.lib.entry r.tag = none) (hhold : s.env.hold = false) (hc : s.lib.fetchCheck r = none) :
    exec (.fetchRequest r) s = .next (State.acceptFetch { s.begin with lib := s.begin.lib.emit (.accept r.tag) } r) := by
  rw [exec_fetchRequest, State.event_next _ hs, show s.begin.lib.fetchCheck r = _ from hc]
  exact congrArg _ (State.takeRecord_proceeds hfree hhold _)

theorem exec_file_proceeds (hs : s.env.startUp = none) (hfree : s.lib.entry r.tag = none) (hhold : s.env.hold = false)
    (hc : s.lib.fileArrival s.env r = none) :
    exec (.fileRequest r) s = .next (State.acceptFile { s.begin with lib := s.begin.lib.emit (.accept r.tag) } r) := by
  rw [exec_fileRequest, State.event_next _ hs, show s.begin.lib.fileArrival s.begin.env r = _ from hc]
  exact congrArg _ (State.takeRecord_proceeds hfree hhold _)

/-- R34, R39: a FETCH in the record books enters the table with its run cut, and the reactions follow. -/
theorem acceptFetch_reacted {b : Book} (hb : bookOf r.addr.val = some b) :
    Reacted s (State.acceptFetch { s.begin with lib := s.begin.lib.emit (.accept r.tag) } r) s.env s.fee (s.accepted r (.fetch (cutRun r))) := by
  have heq : State.acceptFetch { s.begin with lib := s.begin.lib.emit (.accept r.tag) } r
      = State.react { s.begin with lib := s.accepted r (.fetch (cutRun r)) } { s.begin.lib with out := [.accept r.tag] } := by
    unfold State.acceptFetch
    simp only [hb]
    rfl
  rw [heq]
  exact ⟨rfl, rfl, rfl, settle_out .., settle_settled ..⟩

/-- R34: a FETCH in the service book enters the table. -/
theorem acceptFetch_ended (hb : bookOf r.addr.val = none) :
    Ended s (State.acceptFetch { s.begin with lib := s.begin.lib.emit (.accept r.tag) } r) s.env s.fee (s.accepted r .servicePages) := by
  unfold State.acceptFetch
  simp only [hb]
  exact State.finish_ended (s := s) (u := { s.begin with lib := s.accepted r .servicePages }) rfl

theorem accepted_readyJob (j : Job) : (s.accepted r j).readyJob r.tag = Entry.readyJob r.tag ⟨r, j, 0, r.addr.val, .empty, 0, none, 0⟩ := by
  unfold Library.readyJob
  rw [show (s.accepted r j).entry r.tag = _ from Library.setEntry_entry_same ..]

/-- Settles O6: the run is cut at the books and at the frames. -/
theorem fetchAccepted : Obligations.FetchAccepted := by
  intro s r hs hfree hhold h1 h2
  refine ⟨fun b hb hk => ?_, fun hb hlast => ?_⟩
  · have haddr : r.addr.val < 33292288 := by
      have := bookOf_eq_some.mp hb
      omega
    obtain ⟨hz, haz⟩ := runEnd_bounds haddr h1
    have hr := acceptFetch_reacted (s := s) hb
    refine ⟨⟨_, exec_fetch_proceeds hs hfree hhold ((fetchCheck_book h1 h2 hb).trans (if_neg hk)), hr, ?_⟩, segmentsOf_flatMap hz haz, fun g hg => ?_, rfl⟩
    · obtain ⟨y, hy, hk⟩ := hr.lib.entry r.tag _ (Library.setEntry_entry_same ..)
      obtain ⟨g, hg⟩ := hk.fetch (cutRun r) rfl
      exact ⟨y, g, hy, hk.record, hg, hk.moved (fun g h => nomatch h), hk.notes, hk.amount⟩
    · obtain ⟨k1, k2, k3, k4⟩ := mem_segmentsOf hz haz hg
      refine ⟨k1, k2, k3, k4.trans ?_⟩
      rw [hb, Option.some.injEq, eq_comm]
  · have hr := acceptFetch_ended (s := s) (bookOf_eq_none.mpr hb)
    refine ⟨_, exec_fetch_proceeds hs hfree hhold ((fetchCheck_service h1 h2 hb).trans (if_neg (by omega))), hr, (hr.lib.ready _).mpr ?_⟩
    refine (accepted_readyJob _).trans ?_
    exact if_pos (show 0 < r.count.val by omega)

/-! ## FILEs -/

/-- R37: a FILE in the service book enters the table. -/
theorem acceptFile_service (hb : bookOf r.addr.val = none) :
    Ended s (State.acceptFile { s.begin with lib := s.begin.lib.emit (.accept r.tag) } r) s.env s.fee (s.accepted r (.serviceWrite false)) := by
  unfold State.acceptFile
  simp only [hb]
  exact State.finish_ended (s := s) (u := { s.begin with lib := s.accepted r (.serviceWrite false) }) rfl

/-- R36: a FILE in the record books enters the table with its frame, and its book's intake mark rises. -/
theorem acceptFile_book {b : Book} (hb : bookOf r.addr.val = some b) :
    Ended s (State.acceptFile { s.begin with lib := s.begin.lib.emit (.accept r.tag) } r) s.env s.fee
      ((s.accepted r (.file (s.lib.newFiling s.env r b))).setBook b { s.lib.book b with intake := (s.lib.book b).intake + 1 }) := by
  unfold State.acceptFile
  simp only [hb]
  exact State.finish_ended (s := s)
    (u := { s.begin with lib := (s.accepted r (.file (s.lib.newFiling s.env r b))).setBook b { s.lib.book b with intake := (s.lib.book b).intake + 1 } }) rfl

/-- R36: the intended class of a FILE. -/
theorem intendedClass_cases (e : Env) (l : Library) (r : RequestRecord) (b : Book) (f : Nat) :
    (r.flag = .head → l.intendedClass e r b f = r.cls)
      ∧ (r.flag = .cont → ∀ h c, HeadBelow (l.acceptMark e b) f h c → l.intendedClass e r b f = c) := by
  unfold Library.intendedClass
  refine ⟨fun hf => by rw [hf], fun hf h c hb => ?_⟩
  rw [hf]
  simp only [headBelow_iff.mp hb]

/-- Settles O9: a FILE that passes its checks takes the frame at the intake mark. -/
theorem fileAccepted : Obligations.FileAccepted := by
  intro s r hs hfree hhold
  refine ⟨fun hb h1 => ?_, fun b p hb h1 h2 hm hk hp ha hf hcont => ?_⟩
  · have hr := acceptFile_service (s := s) (bookOf_eq_none.mpr hb)
    exact ⟨_, exec_file_proceeds hs hfree hhold ((fileArrival_service hb).trans (if_pos h1)), hr, (hr.lib.ready _).mpr (accepted_readyJob _)⟩
  · have hr := acceptFile_book (s := s) hb
    have hcheck : s.lib.fileArrival s.env r = none := by
      rw [fileArrival_book hb, fileCheck_open h1 h2 hm hk hp, if_neg (by rw [ha]; decide), if_neg ?_, if_neg ?_]
      · rintro ⟨hc, hno⟩
        rcases hcont with h | h
        · rw [hc] at h; cases h
        · rw [continuesBelow_iff.mp h] at hno; cases hno
      · have := frameOf_lt r.addr.val
        rintro (h | h)
        · exact h hf
        · exact absurd h (Nat.not_le.mpr this)
    obtain ⟨c1, c2⟩ := intendedClass_cases s.env s.lib r b (frameOf r.addr.val)
    exact ⟨_, s.lib.newFiling s.env r b, exec_file_proceeds hs hfree hhold hcheck, hr, rfl, rfl, rfl, rfl, rfl, rfl, rfl, c1, c2,
      (hr.lib.ready _).mpr (accepted_readyJob _)⟩

/-! ## Pulls -/

theorem nextJob_head {l : Library} (h : l.front.linkBurst = none) : l.nextJob = l.front.ready.head? := by
  unfold Library.nextJob
  rw [h]

/-- R27: the library in which the pull that is next on the link has been issued. -/
def State.pullSent (s : State) (t : Tag) (x : Entry) : Library :=
  { (s.begin.lib.setEntry t (some { x with job := x.job.pulled })).emit (.pull t x.record.count.val) with
    front := { (s.begin.lib.setEntry t (some { x with job := x.job.pulled })).front with ready := s.lib.front.ready.tail } }

theorem exec_pull {t : Tag} {rest : List LinkJob} {x : Entry} (hs : s.env.startUp = none) (hl : s.lib.front.linkBurst = none)
    (hr : s.lib.front.ready = .pull t :: rest) (hx : s.lib.entry t = some x) :
    exec .pull s = .next (State.finish { s.begin with lib := s.pullSent t x }) := by
  show execPull s = _
  unfold execPull
  rw [State.event_next _ hs]
  have hj : s.begin.lib.nextJob = some (.pull t) := (nextJob_head hl).trans (by rw [hr]; rfl)
  simp only [hj, show s.begin.lib.entry t = some x from hx]
  rfl

/-- R27, R28: a request whose pull has been issued has no pull ready. -/
theorem readyJob_pulled {t u : Tag} {x : Entry} (h : (∃ g, x.job = .file g) ∨ ∃ p, x.job = .serviceWrite p) :
    Entry.readyJob t { x with job := x.job.pulled } ≠ some (.pull u) := by
  unfold Entry.readyJob
  rcases h with ⟨g, hg⟩ | ⟨p, hp⟩
  · rw [hg]
    simp only [Job.pulled]
    split <;> simp
  · rw [hp]
    simp only [Job.pulled]
    split <;> simp

/-- Settles O10: the pull is sent, and its request has none left to send. -/
theorem pullIssued : Obligations.PullIssued := by
  intro s t rest x hs hl hr hx hlive hjob
  have hf : Ended s (State.finish { s.begin with lib := s.pullSent t x }) s.env s.fee (s.pullSent t x) := State.finish_ended rfl
  have hentry (v : Tag) : (s.pullSent t x).entry v = if t = v then some { x with job := x.job.pulled } else s.lib.entry v := Library.setEntry_entry ..
  refine ⟨_, { x with job := x.job.pulled }, exec_pull hs hl hr hx, hf.pending, hf.env, hf.fee, ?_, hf.lib.out, fun v hv => ?_, ?_, rfl, fun g hg => ?_,
    fun p hp => ?_, fun hready => ?_⟩
  · exact (show SameBlocks s.lib (s.pullSent t x) from ⟨rfl, rfl, rfl, rfl, rfl, rfl, rfl, rfl, rfl⟩).trans hf.lib.sameBlocks
  · rw [hf.lib.entry, hentry, if_neg (Ne.symm hv)]
  · rw [hf.lib.entry, hentry, if_pos rfl]
  · show x.job.pulled = _
    rw [hg]; rfl
  · show x.job.pulled = _
    rw [hp]; rfl
  · have hj := (hf.lib.ready _).mp hready
    unfold Library.readyJob at hj
    rw [show (s.pullSent t x).entry (LinkJob.pull t).tag = _ from (hentry t).trans (if_pos rfl)] at hj
    exact readyJob_pulled hjob hj

end Accepted

end Sys2Proof.Machine
end

section
-- One declaration after the other: the stacks of the threads that wait for each other count against the check's memory limit.
set_option Elab.async false
namespace Sys2Proof.Machine

/-! # Drive command failures -/

section FailDrive

variable {e : Env} {l : Library} {d : Drive}

/-- R113: the library of a drive that becomes FAILED, before its failure return is asked. -/
def Library.driveDown (l : Library) (e : Env) (d : Drive) : Library :=
  (((l.fault e (driveFault e l d)).setDrive d { l.drive d with state := .failed, unload := false, askAgain := none }).emit (.spinDown d)).callPatrol

theorem failDrive_eq (h : (l.drive d).state ≠ .unloading) : l.failDrive e d = (l.driveDown e d).askFailureReturn d := by
  unfold Library.failDrive
  dsimp only
  rw [if_neg h]
  rfl

/-- R113: the RETURNs of a drive on the move list become failure returns; a list without any is as it was. -/
theorem map_forFailure (ms : List Move) (h : ∀ m ∈ ms, m.drive? = some d → m.byScheduler = true) : ms.map (Move.forFailure d) = ms := by
  refine (List.map_congr_left fun m hm => ?_).trans (List.map_id ms)
  cases m with
  | load => rfl
  | back i od q =>
    cases od with
    | none => rfl
    | some d' =>
      by_cases hd : d' = d
      · have := h _ hm (congrArg some hd)
        cases this
      · exact if_neg hd

theorem forFailure_drive (d : Drive) (m : Move) : (Move.forFailure d m).drive? = m.drive? ∧ (Move.forFailure d m).byScheduler = m.byScheduler := by
  cases m with
  | load => exact ⟨rfl, rfl⟩
  | back i od q =>
    cases od with
    | none => exact ⟨rfl, rfl⟩
    | some d' => by_cases hd : d' = d <;> simp [Move.forFailure, hd, Move.drive?, Move.byScheduler]

theorem forFailure_other {m : Move} (h : m.drive? ≠ some d) : Move.forFailure d m = m := by
  cases m with
  | load => rfl
  | back i od q =>
    cases od with
    | none => rfl
    | some d' => exact if_neg fun hd => h (congrArg some hd)

/-- R113: what the asking of a failure return does to the move list. -/
theorem askFailureReturn_rest (l : Library) (d : Drive) : ∃ ms, l.askFailureReturn d = { l with picker := { l.picker with moves := ms } }
      ∧ (∀ m ∈ l.picker.moves, Move.forFailure d m ∈ ms)
      ∧ ∀ i, l.mountedSide d = some i → (∀ m ∈ l.picker.moves, m.drive? = some d → m.byScheduler = true) →
        ms = l.picker.moves ++ [.back (slotOf i) (some d) .failure] := by
  have hmem : ∀ m ∈ l.picker.moves, Move.forFailure d m ∈ l.picker.moves.map (Move.forFailure d) := fun m hm => List.mem_map_of_mem hm
  unfold Library.askFailureReturn Library.askReturn
  generalize hmap : l.picker.moves.map (Move.forFailure d) = moved at hmem
  have hside : ({ l with picker := { l.picker with moves := moved } } : Library).mountedSide d = l.mountedSide d := rfl
  rw [hside]
  cases hm : l.mountedSide d with
  | none => exact ⟨moved, rfl, hmem, fun i hi => nomatch hi⟩
  | some i =>
    dsimp only
    split
    next hany =>
      refine ⟨moved, rfl, hmem, fun j _ hall => ?_⟩
      rw [← hmap, map_forFailure _ hall, List.any_eq_true] at hany
      obtain ⟨m, hm, hmd⟩ := hany
      rw [Bool.and_eq_true, beq_iff_eq] at hmd
      rw [hall m hm hmd.1] at hmd
      exact absurd hmd.2 (by decide)
    next =>
      refine ⟨moved ++ [.back (slotOf i) (some d) .failure], rfl, fun m hm => List.mem_append_left _ (hmem m hm), fun j hj hall => ?_⟩
      obtain rfl := Option.some.inj hj
      rw [← hmap, map_forFailure _ hall]

/-- What the failure of a drive leaves as it was. -/
structure FailsAlone (e : Env) (l a : Library) (d : Drive) : Prop where
  front : a.front = l.front
  books : a.books = l.books
  roles : a.roles = l.roles
  buffer : a.buffer = l.buffer
  twins : a.twins = l.twins
  health : a.care.health = l.care.health
  batch : a.care.batch = l.care.batch
  rescue : a.care.rescue = l.care.rescue
  lists : a.scheduler.lists = l.scheduler.lists
  picker : a.picker = { l.picker with moves := a.picker.moves }
  drives : ∀ d', d' ≠ d → a.drive d' = l.drive d'
  drive : a.drive d = { l.drive d with state := .failed, unload := false, askAgain := none }
  out : a.out = l.out ++ [.spinDown d]
  log : a.log = (l.fault e (driveFault e l d)).log

theorem failDrive_alone (e : Env) (h : (l.drive d).state ≠ .unloading) : FailsAlone e l (l.failDrive e d) d := by
  obtain ⟨ms, heq, -⟩ := askFailureReturn_rest (l.driveDown e d) d
  rw [failDrive_eq h, heq]
  have hdrive (j : Drive) : (l.driveDown e d).drive j = if d = j then { l.drive d with state := .failed, unload := false, askAgain := none } else l.drive j :=
    Library.setDrive_drive ..
  exact ⟨rfl, rfl, rfl, rfl, rfl, rfl, rfl, rfl, rfl, rfl, fun j hj => (hdrive j).trans (if_neg (Ne.symm hj)), (hdrive d).trans (if_pos rfl), rfl, rfl⟩

theorem mountedSide_congr {l k : Library} (h : l.picker.locations = k.picker.locations) (d : Drive) : l.mountedSide d = k.mountedSide d := by
  unfold Library.mountedSide Library.location
  rw [h]

/-- R113: DRIVE_FAILED joins the later set of a full record, which is kept. -/
theorem fault_joins {q r : FaultRecord} (hl : l.log.first = some r) (hm : KindSet.has e.mask q.kind = false) :
    (l.fault e q).log.first = some r ∧ KindSet.has (l.fault e q).log.later q.kind = true := by
  have hlog : (l.fault e q).log = { l.log with later := KindSet.with l.log.later q.kind, laterCount := satAdd Config.max8 l.log.laterCount 1 } := by
    simp [Library.fault, FaultLog.record, hm, hl]
  rw [hlog]
  exact ⟨hl, by rw [KindSet.has_with_iff]; simp⟩

/-- R113: the failure of a drive that runs no command, seen from a library `k` with the same picker and the same first fault. -/
theorem failDrive_fails {k : Library} {e' : Env} (h : (l.drive d).state ≠ .unloading) (hs : (l.drive d).service = none) (hp : l.picker = k.picker)
    (hl : ∀ r, k.log.first = some r → l.log.first = some r) (hm : e.mask = e'.mask) : DriveFails e' k (l.failDrive e d) d := by
  have ha := failDrive_alone e h
  obtain ⟨ms, heq, hmem, hnew⟩ := askFailureReturn_rest (l.driveDown e d) d
  have hmoves : (l.failDrive e d).picker.moves = ms := by rw [failDrive_eq h, heq]
  have hpk : (l.driveDown e d).picker = k.picker := hp
  have hside (j : Drive) : (l.driveDown e d).mountedSide j = k.mountedSide j := mountedSide_congr (congrArg Picker.locations hpk) j
  rw [hpk] at hmem hnew
  rw [hside] at hnew
  refine ⟨by rw [ha.drive], by rw [ha.drive], by rw [ha.drive]; exact hs, by rw [ha.out]; simp, fun i hi hall => hmoves.trans (hnew i hi hall),
    fun s q hq => ?_, fun m hm hd => ?_, by rw [ha.picker, hp], fun j => mountedSide_congr (by rw [ha.picker, hp]) j, fun r hr hmask => ?_⟩
  · rw [hmoves]
    have := hmem _ hq
    rwa [show Move.forFailure d (.back s (some d) q) = .back s (some d) .failure from if_pos rfl] at this
  · rw [hmoves]
    have := hmem m hm
    rwa [forFailure_other hd] at this
  · rw [ha.log]
    exact fault_joins (q := driveFault e l d) (hl r hr) (by rw [hm]; exact hmask)

/-- R113, R177: DRIVE_FAILED is the first fault of its event where the record is empty. -/
theorem failDrive_first (h : (l.drive d).state ≠ .unloading) (hl : l.log.first = none) (hm : KindSet.has e.mask .driveFailed = false) :
    (l.failDrive e d).log.first = some (driveFault e l d) := by
  rw [(failDrive_alone e h).log]
  exact fault_first hl hm

theorem driveFault_congr {k : Library} {e' : Env} (hp : l.picker = k.picker) (hr : l.roles = k.roles) (hd : e.day = e'.day) :
    driveFault e l d = driveFault e' k d := by
  unfold driveFault Library.role
  rw [mountedSide_congr (congrArg Picker.locations hp), hr, hd]

end FailDrive

section Spin

variable {s : State} {d : Drive} {c : Instr}

/-- R108, R110: the expiry or the fault that ends a spin up or a spin down in progress. -/
def SpinFails (s : State) (d : Drive) (c : Instr) : Prop :=
  ((s.lib.drive d).state = .spinUp ∧ (c = .spinUpLimitExpiry d ∨ c = .hardwareFaultReport d))
    ∨ ((s.lib.drive d).state = .spinDown ∧ (c = .spinDownLimitExpiry d ∨ c = .hardwareFaultReport d))

/-- R112: the time at which the failure of a spin command is found. -/
def State.spinTime (s : State) (d : Drive) (c : Instr) : Env :=
  if c = .hardwareFaultReport d then s.env else s.env.reach ((s.lib.drive d).limitStart + 20)

theorem State.spinTime_cases (s : State) (d : Drive) (c : Instr) :
    s.spinTime d c = { s.env with now := (s.spinTime d c).now } ∧ (c ≠ .hardwareFaultReport d → (s.spinTime d c).now = max s.env.now ((s.lib.drive d).limitStart + 20))
      ∧ (c = .hardwareFaultReport d → (s.spinTime d c).now = s.env.now) := by
  unfold State.spinTime
  split
  next h => exact ⟨rfl, fun hn => absurd h hn, fun _ => rfl⟩
  next h => exact ⟨rfl, fun _ => rfl, fun hc => absurd hc h⟩

theorem exec_spinFails (hs : s.env.startUp = none) (h : SpinFails s d c) :
    exec c s = .next (State.react (State.failCommand { s.begin with env := s.spinTime d c } d) s.begin.lib) := by
  have hwork (st : DriveState) (hst : (s.lib.drive d).state = st) (hw : st = .spinUp ∨ st = .spinDown) : (s.begin.lib.drive d).isWorking = true := by
    unfold DriveRecord.isWorking
    rw [show (s.begin.lib.drive d).state = _ from hst]
    rcases hw with rfl | rfl <;> rfl
  rcases h with ⟨hst, rfl | rfl⟩ | ⟨hst, rfl | rfl⟩
  · show execSpinUpLimitExpiry d s = _
    unfold execSpinUpLimitExpiry
    rw [State.event_next _ hs, if_pos (show (s.begin.lib.drive d).state = _ from hst), State.spinTime, if_neg (by simp)]
    rfl
  · show execHardwareFaultReport d s = _
    unfold execHardwareFaultReport
    rw [State.event_next _ hs, if_pos (hwork _ hst (.inl rfl)), State.spinTime, if_pos rfl]
    rfl
  · show execSpinDownLimitExpiry d s = _
    unfold execSpinDownLimitExpiry
    rw [State.event_next _ hs, if_pos (show (s.begin.lib.drive d).state = _ from hst), State.spinTime, if_neg (by simp)]
    rfl
  · show execHardwareFaultReport d s = _
    unfold execHardwareFaultReport
    rw [State.event_next _ hs, if_pos (hwork _ hst (.inr rfl)), State.spinTime, if_pos rfl]
    rfl

/-- R112: the library in which the failure of a drive's command has been counted. -/
def State.failed (s : State) (d : Drive) : Library := s.begin.lib.setDrive d (s.lib.drive d).failOnce

theorem State.failed_drive (s : State) (d d' : Drive) : (s.failed d).drive d' = if d = d' then (s.lib.drive d).failOnce else s.lib.drive d' :=
  Library.setDrive_drive ..

/-- R112: the failure of a spin command. -/
theorem spinFails_lib (h : SpinFails s d c) (e : Env) :
    State.failCommand { s.begin with env := e } d = { s.begin with env := e, lib := (s.failed d).afterFailure e d } := by
  refine failCommand_eq_none { s.begin with env := e } d ?_
  refine Option.eq_none_iff_forall_ne_some.mpr fun v hv => ?_
  obtain ⟨ha, -⟩ := Library.activeService_eq_some.mp hv
  have ha' : (s.lib.drive d).state = .active := ha
  rcases h with ⟨hst, -⟩ | ⟨hst, -⟩ <;> rw [hst] at ha' <;> cases ha'

theorem Library.setDrive_setDrive (l : Library) (d : Drive) (x y : DriveRecord) : (l.setDrive d x).setDrive d y = l.setDrive d y := by
  unfold Library.setDrive
  simp only [put_put]

/-- R112: the first failure repeats the command under a new limit. -/
theorem spinFails_repeats (h : SpinFails s d c) (e : Env) (hf : (s.lib.drive d).failures = 0) :
    (s.failed d).afterFailure e d = ({ s.lib with out := [if (s.lib.drive d).state = DriveState.spinUp then Output.spinUp d else .spinDown d] }).setDrive d
      { s.lib.drive d with failures := 1, commandFailures := min 255 ((s.lib.drive d).commandFailures + 1), limitStart := e.now } := by
  have hd : (s.failed d).drive d = (s.lib.drive d).failOnce := (s.failed_drive d d).trans (if_pos rfl)
  have hcount : (s.lib.drive d).failOnce.failures = 1 := by
    show min 2 ((s.lib.drive d).failures + 1) = 1
    omega
  have hsent (st : DriveState) (hst : (s.lib.drive d).state = st) :
      (s.failed d).setDrive d { (s.lib.drive d).failOnce with state := st, limitStart := e.now }
        = s.begin.lib.setDrive d { s.lib.drive d with failures := 1, commandFailures := min 255 ((s.lib.drive d).commandFailures + 1), limitStart := e.now } := by
    rw [State.failed, Library.setDrive_setDrive, ← hst]
    exact congrArg (fun n => s.begin.lib.setDrive d
      { s.lib.drive d with failures := n, commandFailures := min 255 ((s.lib.drive d).commandFailures + 1), limitStart := e.now }) hcount
  unfold Library.afterFailure Library.repeatCommand
  rw [hd, if_neg (by omega)]
  rcases h with ⟨hst, -⟩ | ⟨hst, -⟩
  · rw [show (s.lib.drive d).failOnce.state = .spinUp from hst]
    unfold Library.sendSpinUp
    rw [hd, hsent _ hst, if_pos hst]
    rfl
  · rw [show (s.lib.drive d).failOnce.state = .spinDown from hst]
    unfold Library.sendSpinDown
    rw [hd, hsent _ hst, if_neg (by rw [hst]; decide)]
    rfl

/-- R113: the second failure makes the drive FAILED. -/
theorem spinFails_second (h : SpinFails s d c) (e : Env) (hf : 1 ≤ (s.lib.drive d).failures) :
    (s.failed d).afterFailure e d = (s.failed d).failDrive e d ∧ ((s.failed d).drive d).state ≠ .unloading := by
  have hd : (s.failed d).drive d = (s.lib.drive d).failOnce := (s.failed_drive d d).trans (if_pos rfl)
  refine ⟨if_pos ?_, ?_⟩
  · rw [hd]
    show 2 ≤ min 2 ((s.lib.drive d).failures + 1)
    omega
  · rw [hd]
    show (s.lib.drive d).state ≠ .unloading
    rcases h with ⟨hst, -⟩ | ⟨hst, -⟩ <;> rw [hst] <;> decide

/-- R112, R115: what a command failure counts, from the library that it leaves for the reactions. -/
theorem failureCounted_of {e : Env} {a : Library} {u : State} (k : Settled e a u.lib)
    (hcount : (a.drive d).commandFailures = min 255 ((s.lib.drive d).commandFailures + 1) ∧ (a.drive d).failures = min 2 ((s.lib.drive d).failures + 1)
      ∧ (a.drive d).corrected = (s.lib.drive d).corrected ∧ (a.drive d).uncorrectable = (s.lib.drive d).uncorrectable)
    (hfail : 1 ≤ (s.lib.drive d).failures → (a.drive d).state = .failed) (hgo : (s.lib.drive d).failures = 0 → (a.drive d).state ≠ .failed)
    (hothers : ∀ d', d' ≠ d → (s.lib.drive d').KeptTo (a.drive d')) : FailureCounted s u d := by
  obtain ⟨h1, h2, h3, h4⟩ := hcount
  have hk := k.drive d
  refine ⟨hk.commandFailures.trans h1, hk.failures.trans h2, fun hf => ?_, fun hf hu => hgo hf (hk.failed hu), hk.corrected.trans h3,
    hk.uncorrectable.trans h4, fun d' hd' => ?_⟩
  · have hs := hfail hf
    exact (hk.state (by rw [hs]; rfl)).trans hs
  · have ho := (hothers d' hd').trans (k.drive d')
    exact ⟨ho.commandFailures, ho.failures⟩

/-- What both failures of a spin command leave. -/
theorem spinFails_leaves (h : SpinFails s d c) (e : Env) :
    ((s.failed d).afterFailure e d).front = s.lib.front ∧ ((s.failed d).afterFailure e d).picker.locations = s.lib.picker.locations
      ∧ (((s.failed d).afterFailure e d).drive d).commandFailures = min 255 ((s.lib.drive d).commandFailures + 1)
      ∧ (((s.failed d).afterFailure e d).drive d).failures = min 2 ((s.lib.drive d).failures + 1)
      ∧ (((s.failed d).afterFailure e d).drive d).corrected = (s.lib.drive d).corrected
      ∧ (((s.failed d).afterFailure e d).drive d).uncorrectable = (s.lib.drive d).uncorrectable
      ∧ (1 ≤ (s.lib.drive d).failures → (((s.failed d).afterFailure e d).drive d).state = .failed)
      ∧ ((s.lib.drive d).failures = 0 → (((s.failed d).afterFailure e d).drive d).state = (s.lib.drive d).state)
      ∧ ∀ d', d' ≠ d → ((s.failed d).afterFailure e d).drive d' = s.lib.drive d' := by
  by_cases hf : (s.lib.drive d).failures = 0
  · rw [spinFails_repeats h e hf]
    refine ⟨rfl, rfl, ?_, ?_, ?_, ?_, fun h1 => by omega, fun _ => ?_, fun d' hd' => ?_⟩
    · rw [Library.setDrive_drive_same]
    · rw [Library.setDrive_drive_same, hf]; rfl
    · rw [Library.setDrive_drive_same]
    · rw [Library.setDrive_drive_same]
    · rw [Library.setDrive_drive_same]
    · rw [Library.setDrive_drive, if_neg (Ne.symm hd')]; rfl
  · obtain ⟨h1, h2⟩ := spinFails_second h e (by omega)
    have ha := failDrive_alone e h2
    have hd : (s.failed d).drive d = (s.lib.drive d).failOnce := (s.failed_drive d d).trans (if_pos rfl)
    rw [h1]
    refine ⟨ha.front, by rw [ha.picker]; rfl, ?_, ?_, ?_, ?_, fun _ => by rw [ha.drive], fun h0 => absurd h0 hf, fun d' hd' => ?_⟩
    · rw [ha.drive, hd]; rfl
    · rw [ha.drive, hd]; rfl
    · rw [ha.drive, hd]; rfl
    · rw [ha.drive, hd]; rfl
    · rw [ha.drives d' hd', State.failed_drive, if_neg (Ne.symm hd')]

/-- Settles O24: the failure is counted; the command is sent again, or the drive fails. -/
theorem spinFailureRepeatsOrFails : Obligations.SpinFailureRepeatsOrFails := by
  intro s d c hs h
  change SpinFails s d c at h
  obtain ⟨e1, e2, e3⟩ := s.spinTime_cases d c
  refine ⟨_, exec_spinFails hs h, ?_⟩
  generalize s.spinTime d c = e at e1 e2 e3
  have hw := spinFails_lib h e
  obtain ⟨h1, h2, h3, h4, h5, h6, h7, h8, h9⟩ := spinFails_leaves h e
  have hr : Reacted s (State.react (State.failCommand { s.begin with env := e } d) s.begin.lib) e s.fee ((s.failed d).afterFailure e d) := by
    rw [hw]; exact State.react_reacted rfl
  have hsettled := h.imp (fun k => k.1) (fun k => k.1)
  have hstate (hf : (s.lib.drive d).failures = 0) :
      ((State.react (State.failCommand { s.begin with env := e } d) s.begin.lib).lib.drive d).state = (s.lib.drive d).state := by
    rw [(hr.lib.drive d).state (by rw [h8 hf]; rcases hsettled with k | k <;> rw [k] <;> rfl), h8 hf]
  have hue : (State.react (State.failCommand { s.begin with env := e } d) s.begin.lib).env = e := hr.env
  rw [hue]
  refine ⟨hr.pending, hr.fee, failureCounted_of hr.lib ⟨h3, h4, h5, h6⟩ h7 (fun hf => ?_) (fun d' hd' => h9 d' hd' ▸ .refl _), e1,
    fun hc => e2 ?_, e3, fun hf => ⟨hstate hf, ?_⟩, fun t x hx => hr.lib.entry t x ((congrArg (fun v : Front => look v.table t) h1).trans hx),
    hr.lib.locations.trans h2, rfl, fun hf => ?_, fun hf hserv => ?_⟩
  · rw [h8 hf]
    rcases hsettled with k | k <;> rw [k] <;> decide
  · rcases hc with rfl | rfl <;> simp
  · obtain ⟨os, hos⟩ := hr.lib.out
    exact ⟨os, by rw [hos, spinFails_repeats h e hf]; rfl⟩
  · rw [hw]
    exact spinFails_repeats h e hf
  · obtain ⟨k1, k2⟩ := spinFails_second h e hf
    have hd : (s.failed d).drive d = (s.lib.drive d).failOnce := (s.failed_drive d d).trans (if_pos rfl)
    have hmask : e.mask = s.env.mask := by rw [e1]
    refine ⟨?_, fun hl hm => hr.lib.first _ ?_⟩
    · rw [show (State.failCommand { s.begin with env := e } d).lib = _ from (congrArg State.lib hw).trans k1]
      exact failDrive_fails k2 (by rw [hd]; exact hserv) rfl (fun _ => id) hmask
    · rw [k1, failDrive_first k2 hl (by rw [hmask]; exact hm)]
      exact congrArg some (driveFault_congr rfl rfl (by rw [e1]))

end Spin

end Sys2Proof.Machine
end

section
-- One declaration after the other: the stacks of the threads that wait for each other count against the check's memory limit.
set_option Elab.async false
namespace Sys2Proof.Machine

/-! # What the owner of a failed command does -/

section TakenBack

variable {e : Env} {l m : Library}

/-- R112: what an owner that takes its item back leaves as it was. -/
structure TakenBack (e : Env) (a b : Library) : Prop extends KeptBut e a b where
  samePicker : b.picker = a.picker
  roles : b.roles = a.roles
  log : b.log = a.log
  sameOut : b.out = a.out
  sameHealth : b.care.health = a.care.health
  rescue : b.care.rescue = a.care.rescue
  service : ∀ d, ∃ v, b.drive d = { a.drive d with service := v } ∧ v.isSome = (a.drive d).service.isSome

theorem TakenBack.refl (e : Env) (a : Library) : TakenBack e a a where
  __ := (Kept.refl e a).toKeptBut
  samePicker := rfl
  roles := rfl
  log := rfl
  sameOut := rfl
  sameHealth := rfl
  rescue := rfl
  service _ := ⟨_, rfl, rfl⟩

theorem TwinWork.takenBack (h : TwinWork l m) (k : KeptBut e l m) : TakenBack e l m where
  __ := k
  samePicker := h.picker
  roles := h.roles
  log := h.log
  sameOut := h.out
  sameHealth := by rw [h.care]
  rescue := by rw [h.care]
  service := h.drive

theorem twinWork_giveBack (l : Library) (s : Side) (i : Item) : TwinWork l (l.giveBack s i) :=
  ⟨rfl, rfl, rfl, rfl, rfl, rfl, rfl, rfl, fun _ => rfl, fun _ => ⟨_, rfl, rfl⟩⟩

/-- R58: a window's record is part of its request's entry. -/
theorem setWindow_rest (l : Library) (t : Tag) (w : Window) : ∃ fr, l.setWindow t w = { l with front := fr } := by
  unfold Library.setWindow Library.setWindows
  cases l.entry t <;> exact ⟨_, rfl⟩

theorem takenBack_fetchFailed (e : Env) (l : Library) (v : InService) (t : Tag) (b : Book) (f : Nat) : TakenBack e l (l.fetchFailed v t b f) := by
  unfold Library.fetchFailed
  split
  next w _ =>
    unfold Library.windowFailed
    have hk := (kept_windowFailed e l t w v.side v.item).toKeptBut
    unfold Library.windowFailed at hk
    obtain ⟨fr, hr⟩ := setWindow_rest (l.giveBack v.side v.item) t { w with reading := false, item := some v.side }
    rw [hr] at hk ⊢
    exact { hk with
      samePicker := rfl, roles := rfl, log := rfl, sameOut := rfl, sameHealth := rfl, rescue := rfl, service := fun _ => ⟨_, rfl, rfl⟩ }
  next => exact .refl e l

theorem twinWork_twinWriteReturned (e : Env) (l : Library) (v : InService) (b : Book) (live : Bool) :
    TwinWork l (l.twinWriteReturned e v b live) ∧ KeptBut e l (l.twinWriteReturned e v b live) := by
  unfold Library.twinWriteReturned
  split
  · have h : TwinWork l (l.endTwinWrite b) := twinWork_setTwin l b _
    have k : Kept e l (l.endTwinWrite b) := kept_setTwin e l b _
    dsimp only
    split
    · exact ⟨(h.trans (twinWork_giveBack _ _ _)).trans (twinWork_examine e _ b), (k.trans (kept_giveBack e _ _ _)).toKeptBut.trans (keptBut_examine e _ b)⟩
    · exact ⟨(h.trans (twinWork_grantFrom e _ _)).trans (twinWork_examine e _ b), (k.trans (kept_grantRereads e _)).toKeptBut.trans (keptBut_examine e _ b)⟩
  · exact ⟨twinWork_grantFrom e _ _, (kept_grantRereads e l).toKeptBut⟩

theorem twinWork_rereadReturned (e : Env) (l : Library) (v : InService) (b : Book) (f : Nat) :
    TwinWork l (l.rereadReturned v b f) ∧ KeptBut e l (l.rereadReturned v b f) := by
  unfold Library.rereadReturned
  dsimp only
  split
  · exact ⟨(twinWork_mapRereads l b _).trans (twinWork_giveBack _ _ _), ((kept_mapRereads e l b _).trans (kept_giveBack e _ _ _)).toKeptBut⟩
  · exact ⟨twinWork_mapRereads l b _, (kept_mapRereads e l b _).toKeptBut⟩

theorem takenBack_batch (e : Env) (l : Library) (g : BatchFrame → BatchFrame) (s : Side) (i : Item) : TakenBack e l ((l.mapBatch g).giveBack s i) :=
  { ((kept_mapBatch e l g).trans (kept_giveBack e _ s i)).toKeptBut with
    samePicker := rfl, roles := rfl, log := rfl, sameOut := rfl, sameHealth := rfl, rescue := rfl, service := fun _ => ⟨_, rfl, rfl⟩ }

theorem takenBack_callPatrol (e : Env) (l : Library) : TakenBack e l l.callPatrol :=
  { (kept_callPatrol e l).toKeptBut with
    samePicker := rfl, roles := rfl, log := rfl, sameOut := rfl, sameHealth := rfl, rescue := rfl, service := fun _ => ⟨_, rfl, rfl⟩ }

/-- R112: any owner but that of a primary write takes its item back. -/
theorem commandReturned_takenBack (u : State) (d : Drive) (v : InService) (h : ∀ t b f, v.command = .primaryWrite t b f → u.lib.fileOf t = none) :
    TakenBack u.env u.lib (u.commandReturned d v).lib ∧ (u.commandReturned d v).env = u.env ∧ (u.commandReturned d v).fee = u.fee
      ∧ (u.commandReturned d v).pending = u.pending := by
  unfold State.commandReturned
  cases hc : v.command with
  | fetchRead t b f ss live k =>
    cases live
    · exact ⟨.refl _ _, rfl, rfl, rfl⟩
    · exact ⟨takenBack_fetchFailed .., rfl, rfl, rfl⟩
  | primaryWrite t b f =>
    simp only [h t b f hc]
    exact ⟨.refl _ _, trivial, trivial, trivial⟩
  | twinWrite b f n fromHold live =>
    obtain ⟨h1, h2⟩ := twinWork_twinWriteReturned u.env u.lib v b live
    exact ⟨h1.takenBack h2, rfl, rfl, rfl⟩
  | reread b f n live =>
    cases live
    · exact ⟨(twinWork_grantFrom u.env _ _).takenBack (kept_grantRereads u.env u.lib).toKeptBut, rfl, rfl, rfl⟩
    · obtain ⟨h1, h2⟩ := twinWork_rereadReturned u.env u.lib v b f
      exact ⟨h1.takenBack h2, rfl, rfl, rfl⟩
  | rescueRead b f ss live =>
    cases live
    · exact ⟨.refl _ _, rfl, rfl, rfl⟩
    · exact ⟨takenBack_batch .., rfl, rfl, rfl⟩
  | rescueWrite b f live =>
    cases live
    · exact ⟨.refl _ _, rfl, rfl, rfl⟩
    · exact ⟨takenBack_batch .., rfl, rfl, rfl⟩
  | patrolVerify b f n => exact ⟨takenBack_callPatrol .., rfl, rfl, rfl⟩

end TakenBack

section Spent

variable {t : Tag} {x : Entry} {g : Filing}

/-- R86: what a primary write whose command failed makes of its frame and of its request. -/
theorem spentUncounted_ends (e : Env) {l : Library} (hx : l.fileOf t = some (x, g)) (side : Side) (d : Drive) :
    PageEnds l (l.spent e t g side d false) g.book t x .fileFailed 0 ∧ (l.spent e t g side d false).roles = l.roles
      ∧ (l.spent e t g side d false).care = l.care ∧ (l.spent e t g side d false).out = l.out
      ∧ (l.spent e t g side d false).log = (l.fault e ⟨.writeFailed, some g.book, some side, some g.frame, some d, none, some t, e.day⟩).log
      ∧ ∀ k, ∃ v, (l.spent e t g side d false).drive k = { l.drive k with service := v } ∧ v.isSome = (l.drive k).service.isSome := by
  obtain ⟨hxe, -, hj⟩ := Library.fileOf_some hx
  have hwin : x.windows = [] := by unfold Entry.windows; rw [hj]; split <;> rfl
  have hw := twinWork_examine e ((l.raiseFiling g.book).faultWrite e g.book side g.frame d (some t)) g.book
  have hend := endRequest_ends (l := ((l.raiseFiling g.book).faultWrite e g.book side g.frame d (some t)).examine e g.book)
    ((hw.entry t).trans hxe) .fileFailed 0 0
  rw [show l.spent e t g side d false
    = (((l.raiseFiling g.book).faultWrite e g.book side g.frame d (some t)).examine e g.book).endRequest t .fileFailed 0 0 from rfl]
  refine ⟨pageEnds (m := (l.raiseFiling g.book).faultWrite e g.book side g.frame d (some t)) rfl rfl (fun _ => rfl) rfl hw (keptBut_examine e _ g.book).toKeptMost hxe hj, hend.roles.trans hw.roles, hend.care.trans hw.care,
    hend.out.trans hw.out, hend.log.trans hw.log, fun k => ?_⟩
  obtain ⟨v, hv, hs⟩ := hw.drive k
  exact ⟨v, (congrArg (fun v : Vector DriveRecord 4 => look v k) (hend.drives hwin)).trans hv, hs⟩

end Spent

section Failure

variable {e : Env} {s : State} {l a : Library} {d : Drive}

/-- R112: what a failed sector command leaves before its owner takes it back: the failure counted, stop sent, and no item in service. -/
structure CommandStops (s : State) (l : Library) (d : Drive) : Prop where
  front : l.front = s.lib.front
  books : l.books = s.lib.books
  roles : l.roles = s.lib.roles
  buffer : l.buffer = s.lib.buffer
  twins : l.twins = s.lib.twins
  picker : l.picker = s.lib.picker
  care : l.care = s.lib.care
  log : l.log = s.lib.log
  lists : l.scheduler.lists = s.lib.scheduler.lists
  out : l.out = [.stop d]
  others : ∀ d', d' ≠ d → l.drive d' = s.lib.drive d'
  service : (l.drive d).service = none
  state : (l.drive d).state = (s.lib.drive d).state
  unload : (l.drive d).unload = (s.lib.drive d).unload
  failures : (l.drive d).failures = min 2 ((s.lib.drive d).failures + 1)
  commandFailures : (l.drive d).commandFailures = min 255 ((s.lib.drive d).commandFailures + 1)
  corrected : (l.drive d).corrected = (s.lib.drive d).corrected
  uncorrectable : (l.drive d).uncorrectable = (s.lib.drive d).uncorrectable

/-- R109: the library in which an expiry has been noted, or the report of a fault found. -/
def State.failureFound (s : State) (d : Drive) (now : Option Nat) : Library :=
  match now with
  | some n => s.begin.lib.setDrive d { s.lib.drive d with expired := some n }
  | none => s.begin.lib

/-- R112: the fields that stopping a command leaves as they were, with the drives that it leaves. -/
theorem stopped_rest (u : State) (d : Drive) (v : InService) :
    ((u.stopped d v).lib.front = u.lib.front ∧ (u.stopped d v).lib.books = u.lib.books ∧ (u.stopped d v).lib.roles = u.lib.roles
      ∧ (u.stopped d v).lib.buffer = u.lib.buffer ∧ (u.stopped d v).lib.twins = u.lib.twins ∧ (u.stopped d v).lib.picker = u.lib.picker)
      ∧ ((u.stopped d v).lib.care = u.lib.care ∧ (u.stopped d v).lib.log = u.lib.log ∧ (u.stopped d v).lib.scheduler.lists = u.lib.scheduler.lists
        ∧ (u.stopped d v).lib.out = u.lib.out ++ [.stop d])
      ∧ (u.stopped d v).lib.drives = ((u.lib.setDrive d (u.lib.drive d).failOnce).setDrive d
        { (u.lib.setDrive d (u.lib.drive d).failOnce).drive d with service := none }).drives := by
  unfold State.stopped
  dsimp only
  split
  · exact ⟨⟨rfl, rfl, rfl, rfl, rfl, rfl⟩, ⟨rfl, rfl, rfl, rfl⟩, rfl⟩
  · exact ⟨⟨rfl, rfl, rfl, rfl, rfl, rfl⟩, ⟨rfl, rfl, rfl, rfl⟩, rfl⟩

theorem stopped_drive (u : State) (d j : Drive) (v : InService) :
    (u.stopped d v).lib.drive j = if d = j then { (u.lib.drive d).failOnce with service := none } else u.lib.drive j := by
  obtain ⟨-, -, h⟩ := stopped_rest u d v
  unfold Library.drive
  rw [h, Library.setDrive_setDrive, Library.setDrive_drive_same]
  exact Library.setDrive_drive ..

theorem failureFound_rest (s : State) (d : Drive) (now : Option Nat) :
    ((s.failureFound d now).front = s.lib.front ∧ (s.failureFound d now).books = s.lib.books ∧ (s.failureFound d now).roles = s.lib.roles
      ∧ (s.failureFound d now).buffer = s.lib.buffer ∧ (s.failureFound d now).twins = s.lib.twins ∧ (s.failureFound d now).picker = s.lib.picker)
      ∧ ((s.failureFound d now).care = s.lib.care ∧ (s.failureFound d now).log = s.lib.log ∧ (s.failureFound d now).scheduler = s.lib.scheduler
        ∧ (s.failureFound d now).out = []) := by
  cases now with
  | none => exact ⟨⟨rfl, rfl, rfl, rfl, rfl, rfl⟩, rfl, rfl, rfl, rfl⟩
  | some n => exact ⟨⟨rfl, rfl, rfl, rfl, rfl, rfl⟩, rfl, rfl, rfl, rfl⟩

theorem failureFound_drive (s : State) (d j : Drive) (now : Option Nat) : ∃ x,
    (s.failureFound d now).drive j = if d = j then { s.lib.drive d with expired := x } else s.lib.drive j := by
  cases now with
  | none =>
    refine ⟨(s.lib.drive d).expired, ?_⟩
    split
    next h => rw [← h]; rfl
    next => rfl
  | some n => exact ⟨some n, Library.setDrive_drive s.begin.lib d j { s.lib.drive d with expired := some n }⟩

theorem stopped_stops (s : State) (e : Env) (d : Drive) (v : InService) (now : Option Nat) :
    CommandStops s (State.stopped { s.begin with env := e, lib := s.failureFound d now } d v).lib d := by
  obtain ⟨⟨h1, h2, h3, h4, h5, h6⟩, ⟨h7, h8, h9, h10⟩, -⟩ := stopped_rest { s.begin with env := e, lib := s.failureFound d now } d v
  obtain ⟨⟨k1, k2, k3, k4, k5, k6⟩, k7, k8, k9, k10⟩ := failureFound_rest s d now
  have hdrive (j : Drive) := stopped_drive { s.begin with env := e, lib := s.failureFound d now } d j v
  generalize (State.stopped { s.begin with env := e, lib := s.failureFound d now } d v).lib = l at *
  dsimp only at h1 h2 h3 h4 h5 h6 h7 h8 h9 h10 hdrive
  obtain ⟨x, hx⟩ := failureFound_drive s d d now
  rw [if_pos rfl] at hx
  have hd : l.drive d = { ({ s.lib.drive d with expired := x } : DriveRecord).failOnce with service := none } := by
    rw [hdrive d, if_pos rfl, hx]
  refine ⟨h1.trans k1, h2.trans k2, h3.trans k3, h4.trans k4, h5.trans k5, h6.trans k6, h7.trans k7, h8.trans k8, by rw [h9, k9], by rw [h10, k10]; rfl,
    fun j hj => ?_, by rw [hd], by rw [hd]; rfl, by rw [hd]; rfl, by rw [hd]; rfl, by rw [hd]; rfl, by rw [hd]; rfl, by rw [hd]; rfl⟩
  obtain ⟨y, hy⟩ := failureFound_drive s d j now
  rw [hdrive j, if_neg (Ne.symm hj), hy, if_neg (Ne.symm hj)]

end Failure

end Sys2Proof.Machine
end

section
-- One declaration after the other: the stacks of the threads that wait for each other count against the check's memory limit.
set_option Elab.async false
namespace Sys2Proof.Machine

/-! # Sector command failures -/

section AfterFailure

variable {e : Env} {l a : Library} {d : Drive}

/-- R112, R113: what becomes of the drive whose sector command has failed: it goes on, or is FAILED. -/
structure DriveGoes (l a : Library) (d : Drive) : Prop where
  front : a.front = l.front
  books : a.books = l.books
  roles : a.roles = l.roles
  twins : a.twins = l.twins
  health : a.care.health = l.care.health
  rescue : a.care.rescue = l.care.rescue
  batch : a.care.batch = l.care.batch
  lists : a.scheduler.lists = l.scheduler.lists
  locations : a.picker.locations = l.picker.locations
  others : ∀ d', d' ≠ d → a.drive d' = l.drive d'
  counts : (a.drive d).commandFailures = (l.drive d).commandFailures ∧ (a.drive d).failures = (l.drive d).failures
    ∧ (a.drive d).corrected = (l.drive d).corrected ∧ (a.drive d).uncorrectable = (l.drive d).uncorrectable
  service : (a.drive d).service = (l.drive d).service
  failed : 2 ≤ (l.drive d).failures → (a.drive d).state = .failed
  goesOn : ¬ 2 ≤ (l.drive d).failures → (a.drive d).state = if (l.drive d).unload = true then .spinDown else .ready
  out : ∃ os, a.out = l.out ++ os
  first : ∀ r, l.log.first = some r → a.log.first = some r

theorem afterFailure_goes (e : Env) (h : (l.drive d).state = .active) : DriveGoes l (l.afterFailure e d) d := by
  unfold Library.afterFailure
  split
  next hf =>
    have ha := failDrive_alone e (l := l) (d := d) (by rw [h]; decide)
    exact ⟨ha.front, ha.books, ha.roles, ha.twins, ha.health, ha.rescue, ha.batch, ha.lists, by rw [ha.picker], ha.drives, by rw [ha.drive]; exact ⟨rfl, rfl, rfl, rfl⟩,
      by rw [ha.drive], fun _ => by rw [ha.drive], fun hn => absurd hf hn, ⟨_, ha.out⟩, fun r hr => by rw [ha.log]; exact fault_keeps hr⟩
  next hf =>
    have heq : l.repeatCommand e d = l.toReady e d := by unfold Library.repeatCommand; rw [h]
    rw [heq]
    obtain ⟨k1, k2, k3, k4, k5, k6, k7⟩ := toReady_goes e l d
    exact ⟨k1.front, k1.books, k1.roles, k1.twins, by rw [k4], k1.rescue, k1.batch, by rw [k6], by rw [k1.picker], k3, by rw [k2]; exact ⟨rfl, rfl, rfl, rfl⟩,
      by rw [k2], fun hn => absurd hn hf, fun _ => by rw [k2], ⟨_, k7⟩, fun r hr => by rw [k5]; exact hr⟩

end AfterFailure

section Items

variable {e : Env} {l m : Library} {i j : Item} {xs : List Item}

theorem mem_insertItem : i ∈ insertItem j xs ↔ i = j ∨ i ∈ xs := by
  induction xs with
  | nil => simp [insertItem]
  | cons x xs ih =>
    unfold insertItem
    split
    · exact List.mem_cons
    · rw [List.mem_cons, ih, List.mem_cons]
      exact or_left_comm

theorem mem_joinItem_of_mem (h : i ∈ xs) : i ∈ joinItem j xs := by
  unfold joinItem
  split
  · exact h
  · exact mem_insertItem.mpr (.inr h)

theorem listed_iff {k : ItemKind} : listed k xs = true ↔ ∃ x ∈ xs, x.kind = k := by
  simp [listed]

/-- R125: an item that joins a list is there, or one of its kind was there already. -/
theorem joinItem_listed (i : Item) (xs : List Item) :
    listed i.kind (joinItem i xs) = true ∧ (listed i.kind xs = true ∨ i ∈ joinItem i xs) := by
  unfold joinItem
  split
  next h => exact ⟨h, .inl h⟩
  next h => exact ⟨listed_iff.mpr ⟨i, mem_insertItem.mpr (.inl rfl), rfl⟩, .inr (mem_insertItem.mpr (.inl rfl))⟩

/-- R127: an item that is given back stands on its list. -/
theorem giveBack_listed (l : Library) (s : Side) (i : Item) :
    listed i.kind ((l.giveBack s i).items s) = true ∧ (listed i.kind (l.items s) = true ∨ i ∈ (l.giveBack s i).items s) := by
  rw [show (l.giveBack s i).items s = joinItem i (l.items s) from look_put_same ..]
  exact joinItem_listed i _

/-- R97, R96: asking re-reads and placing twin write items takes no twin write item from any list. -/
def TwinItemsStay (l m : Library) : Prop := ∀ s b x, x.kind = .twinWrite b → x ∈ l.items s → x ∈ m.items s

theorem TwinItemsStay.of_lists (h : m.scheduler.lists = l.scheduler.lists) : TwinItemsStay l m := fun s b x _ hx => by
  unfold Library.items at *
  rw [h]
  exact hx

theorem TwinItemsStay.trans {k : Library} (h : TwinItemsStay l m) (h' : TwinItemsStay m k) : TwinItemsStay l k := fun s b x hk hx => h' s b x hk (h s b x hk hx)

theorem twinItemsStay_place (s : Side) (k : ItemKind) : TwinItemsStay l (l.place e s k) := fun s' b x hk hx => by
  have h : (l.place e s k).items s' = if s = s' then joinItem ⟨k, e.now⟩ (l.items s) else l.items s' := look_put ..
  rw [h]
  split
  next hs => exact mem_joinItem_of_mem (hs ▸ hx)
  next => exact hx

theorem twinItemsStay_withdraw (s : Side) (b : Book) : TwinItemsStay l (l.withdraw s (.twinReread b)) := fun s' c x hk hx => by
  have h : (l.withdraw s (.twinReread b)).items s' = if s = s' then (l.items s).filter fun i => i.kind != .twinReread b else l.items s' := look_put ..
  rw [h]
  split
  next hs => exact List.mem_filter.mpr ⟨hs ▸ hx, by rw [hk]; rfl⟩
  next => exact hx

theorem twinItemsStay_syncReread (b : Book) : TwinItemsStay l (l.syncReread e b) := by
  unfold Library.syncReread
  split
  · split
    · exact twinItemsStay_place _ _
    · exact twinItemsStay_withdraw _ _
  · exact .of_lists rfl

theorem twinItemsStay_askReread (b : Book) (f n : Nat) : TwinItemsStay l (l.askReread e b f n) := by
  unfold Library.askReread
  split
  · refine TwinItemsStay.trans (m := l.mapRereads b (insertReread ⟨f, n, .granted, []⟩)) (.of_lists rfl) ?_
    exact twinItemsStay_syncReread b
  · exact .of_lists rfl

theorem twinItemsStay_foldl {α : Type} {g : Library → α → Library} (h : ∀ l x, TwinItemsStay l (g l x)) (xs : List α) (l : Library) : TwinItemsStay l (xs.foldl g l) := by
  induction xs generalizing l with
  | nil => exact .of_lists rfl
  | cons x xs ih => exact (h l x).trans (ih _)

theorem twinItemsStay_askWindow (b : Book) : TwinItemsStay l (l.askWindow e b) :=
  twinItemsStay_foldl (fun m f => by
    dsimp only
    split
    · exact twinItemsStay_askReread b f _
    · exact .of_lists rfl) _ l

theorem twinItemsStay_wantTwinWrite (b : Book) (s : Side) : TwinItemsStay l (l.wantTwinWrite e b s) := by
  unfold Library.wantTwinWrite
  dsimp only
  split
  · exact twinItemsStay_place _ _
  · exact .of_lists rfl

theorem skipFrames_rest (e : Env) (b : Book) : ∀ (n : Nat) (l : Library), (Library.skipFrames e b n l).scheduler = l.scheduler
    ∧ (Library.skipFrames e b n l).twins = l.twins
  | 0, _ => ⟨rfl, rfl⟩
  | n + 1, l => by
    unfold Library.skipFrames
    dsimp only
    split
    · exact skipFrames_rest e b n _
    · exact ⟨rfl, rfl⟩

/-! ## The twin record of a book -/

/-- R96, R97: changes to the re-read records leave the state, the write in progress and the failed frame of every book. -/
def SameTwins (l m : Library) : Prop := ∀ b, (m.twin b).state = (l.twin b).state ∧ (m.twin b).writing = (l.twin b).writing ∧ (m.twin b).failed = (l.twin b).failed

theorem SameTwins.of_twins (h : m.twins = l.twins) : SameTwins l m := fun b => by
  unfold Library.twin
  rw [h]
  exact ⟨rfl, rfl, rfl⟩

theorem SameTwins.trans {k : Library} (h : SameTwins l m) (h' : SameTwins m k) : SameTwins l k := fun b =>
  ⟨(h' b).1.trans (h b).1, (h' b).2.1.trans (h b).2.1, (h' b).2.2.trans (h b).2.2⟩

theorem sameTwins_mapRereads (l : Library) (b : Book) (f : List Reread → List Reread) : SameTwins l (l.mapRereads b f) := fun c => by
  rw [show (l.mapRereads b f).twin c = if b = c then { l.twin b with rereads := f (l.twin b).rereads } else l.twin c from Library.setTwin_twin ..]
  split
  next h => rw [← h]; exact ⟨rfl, rfl, rfl⟩
  next => exact ⟨rfl, rfl, rfl⟩

theorem sameTwins_syncReread (e : Env) (l : Library) (b : Book) : SameTwins l (l.syncReread e b) := by
  unfold Library.syncReread
  (repeat' split) <;> exact .of_twins rfl

theorem sameTwins_grantFrom (e : Env) : ∀ (xs : List (Book × Nat)) (l : Library), SameTwins l (Library.grantFrom e xs l)
  | [], l => .of_twins rfl
  | (b, f) :: rest, l => by
    unfold Library.grantFrom
    split
    · exact sameTwins_grantFrom e rest l
    · split
      · exact ((sameTwins_mapRereads l b _).trans (sameTwins_syncReread e _ b)).trans (sameTwins_grantFrom e rest _)
      · exact .of_twins rfl

theorem sameTwins_dropRereads (e : Env) (l : Library) (b : Book) (gone : Nat → Bool) : SameTwins l (l.dropRereads e b gone) := by
  unfold Library.dropRereads
  dsimp only
  refine SameTwins.trans ?_ (sameTwins_grantFrom e _ _)
  refine SameTwins.trans ?_ (sameTwins_syncReread e _ b)
  exact (sameTwins_mapRereads l b _).trans (.of_twins rfl)

theorem sameTwins_stopTwinWork (e : Env) (l : Library) (b : Book) : SameTwins l (l.stopTwinWork e b) := by
  unfold Library.stopTwinWork
  have h : SameTwins l (l.withdrawAll fun k => k == .twinWrite b || k == .twinReread b) := .of_twins rfl
  exact h.trans (sameTwins_dropRereads e _ b _)

theorem sameTwins_foldl {α : Type} {g : Library → α → Library} (h : ∀ l x, SameTwins l (g l x)) (xs : List α) (l : Library) : SameTwins l (xs.foldl g l) := by
  induction xs generalizing l with
  | nil => exact .of_twins rfl
  | cons x xs ih => exact (h l x).trans (ih _)

theorem sameTwins_askWindow (e : Env) (l : Library) (b : Book) : SameTwins l (l.askWindow e b) :=
  sameTwins_foldl (fun m f => by
    dsimp only
    split
    · unfold Library.askReread
      split
      · exact (sameTwins_mapRereads m b _).trans (sameTwins_syncReread e _ b)
      · exact (sameTwins_mapRereads m b _).trans (.of_twins rfl)
    · exact .of_twins rfl) _ l

theorem sameTwins_wantTwinWrite (e : Env) (l : Library) (b : Book) (s : Side) : SameTwins l (l.wantTwinWrite e b s) := by
  unfold Library.wantTwinWrite
  dsimp only
  split <;> exact .of_twins rfl

/-- R94, R95: the examination of a book with a twin keeps its write in progress, and a book that it finds WORKING keeps its twin write items. -/
theorem examine_twin (e : Env) (l : Library) (b : Book) {s : Side} (h : (l.book b).twin = some s) :
    ((l.examine e b).twin b).writing = (l.twin b).writing ∧ (((l.examine e b).twin b).state = .working → TwinItemsStay l (l.examine e b)) := by
  unfold Library.examine
  rw [h]
  dsimp only
  obtain ⟨hs, ht⟩ := skipFrames_rest e b Config.framesPerBook l
  generalize Library.skipFrames e b Config.framesPerBook l = m at hs ht
  by_cases hp : (l.twin b).state = .paused
  · rw [if_pos hp]
    exact ⟨rfl, fun hw => absurd (hp.symm.trans hw) (by decide)⟩
  rw [if_neg hp]
  have hm : m.twin b = l.twin b := by unfold Library.twin; rw [ht]
  generalize hn : m.setTwin b { m.twin b with state := twinStateOf (m.book b) (m.twin b).failed } = n
  have hnb : n.twin b = { l.twin b with state := twinStateOf (m.book b) (m.twin b).failed } := by
    rw [← hn, Library.setTwin_twin, if_pos rfl, hm]
  have hlists : n.scheduler.lists = l.scheduler.lists := by rw [← hn]; exact congrArg Scheduler.lists hs
  split
  next hst =>
    have hk := ((sameTwins_askWindow e n b).trans (sameTwins_wantTwinWrite e _ b s)) b
    refine ⟨by rw [hk.2.1, hnb], fun _ => ?_⟩
    exact ((TwinItemsStay.of_lists hlists).trans (twinItemsStay_askWindow b)).trans (twinItemsStay_wantTwinWrite b s)
  next hst =>
    have hk := sameTwins_stopTwinWork e n b b
    refine ⟨by rw [hk.2.1, hnb], fun hw => absurd ?_ hst⟩
    rw [hk.1, hnb] at hw
    exact hw

end Items

end Sys2Proof.Machine
end

section
-- One declaration after the other: the stacks of the threads that wait for each other count against the check's memory limit.
set_option Elab.async false
namespace Sys2Proof.Machine

/-! # The settling of sector command failures -/

section Failure

variable {s u : State} {e : Env} {d : Drive} {v : InService} {now : Option Nat} {c : Instr}

/-- R112: the state in which a command's failure is found. -/
def State.atFailure (s : State) (e : Env) (d : Drive) (now : Option Nat) : State := { s.begin with env := e, lib := s.failureFound d now }

/-- R112: the state in which the owner of the failed command has taken it back. -/
def State.takenBack (s : State) (e : Env) (d : Drive) (v : InService) (now : Option Nat) : State :=
  ((s.atFailure e d now).stopped d v).commandReturned d v

theorem failureFound_active (hv : Running s d v) (now : Option Nat) : (s.failureFound d now).activeService d = some v := by
  refine Library.activeService_eq_some.mpr ?_
  cases now with
  | none => exact ⟨hv.state, hv.service⟩
  | some n =>
    rw [show (s.failureFound d (some n)).drive d = { s.lib.drive d with expired := some n } from Library.setDrive_drive_same ..]
    exact ⟨hv.state, hv.service⟩

theorem failCommand_atFailure (hv : Running s d v) (e : Env) (now : Option Nat) :
    (s.atFailure e d now).failCommand d
      = { s.takenBack e d v now with lib := (s.takenBack e d v now).lib.afterFailure (s.takenBack e d v now).env d } :=
  failCommand_eq (s.atFailure e d now) d (failureFound_active hv now)

/-- What every owner leaves of the library that the stopped command left, as the reactions of the failure find it. -/
structure OwnerLeaves (s : State) (e : Env) (r : State) (d : Drive) (v : InService) : Prop where
  pending : r.pending = s.pending
  fee : r.fee = s.fee
  now : r.env.now = e.now
  mask : r.env.mask = s.env.mask
  day : r.env.day = s.env.day
  picker : r.lib.picker = s.lib.picker
  roles : r.lib.roles = s.lib.roles
  out : r.lib.out = [.stop d]
  health : r.lib.care.health = s.lib.care.health
  rescue : r.lib.care.rescue = s.lib.care.rescue
  first : ∀ q, s.lib.log.first = some q → r.lib.log.first = some q
  others : ∀ d', d' ≠ d → (s.lib.drive d').KeptTo (r.lib.drive d')
  state : (r.lib.drive d).state = (s.lib.drive d).state
  unload : (r.lib.drive d).unload = (s.lib.drive d).unload
  service : (r.lib.drive d).service = none
  failures : (r.lib.drive d).failures = min 2 ((s.lib.drive d).failures + 1)
  commandFailures : (r.lib.drive d).commandFailures = min 255 ((s.lib.drive d).commandFailures + 1)
  corrected : (r.lib.drive d).corrected = (s.lib.drive d).corrected
  uncorrectable : (r.lib.drive d).uncorrectable = (s.lib.drive d).uncorrectable
  books : ∀ k, (r.lib.book k).state = (s.lib.book k).state
  entries : ∀ t y, (∀ b f, v.command ≠ .primaryWrite t b f) → s.lib.entry t = some y → ∃ z, r.lib.entry t = some z ∧ y.KeptTo z

/-- A drive that keeps all but its item in service. -/
theorem keptTo_service (x : DriveRecord) (q : Option InService) : x.KeptTo { x with service := q } :=
  ⟨rfl, rfl, rfl, rfl, rfl, rfl, fun _ => rfl, id⟩

theorem CommandStops.leaves {l : Library} (h : CommandStops s l d) {r : State} (hp : r.pending = s.pending) (hf : r.fee = s.fee) (hnow : r.env.now = e.now)
    (hmask : r.env.mask = s.env.mask) (hday : r.env.day = s.env.day) (hpicker : r.lib.picker = l.picker) (hroles : r.lib.roles = l.roles)
    (hout : r.lib.out = l.out) (hhealth : r.lib.care.health = l.care.health) (hrescue : r.lib.care.rescue = l.care.rescue)
    (hfirst : ∀ q, l.log.first = some q → r.lib.log.first = some q)
    (hdrive : ∀ k, ∃ q, r.lib.drive k = { l.drive k with service := q } ∧ q.isSome = (l.drive k).service.isSome)
    (hbooks : ∀ k, (r.lib.book k).state = (l.book k).state)
    (hentries : ∀ t y, (∀ b f, v.command ≠ .primaryWrite t b f) → l.entry t = some y → ∃ z, r.lib.entry t = some z ∧ y.KeptTo z) :
    OwnerLeaves s e r d v := by
  obtain ⟨q, hq, hqs⟩ := hdrive d
  have hd : r.lib.drive d = l.drive d := by
    rw [h.service] at hqs
    rw [Option.isSome_eq_false_iff.mp hqs |> Option.isNone_iff_eq_none.mp] at hq
    rw [hq, ← h.service]
  refine ⟨hp, hf, hnow, hmask, hday, hpicker.trans h.picker, hroles.trans h.roles, hout.trans h.out, by rw [hhealth, h.care], by rw [hrescue, h.care],
    fun q hq => hfirst q (by rw [h.log]; exact hq), fun d' hd' => ?_, by rw [hd, h.state], by rw [hd, h.unload], by rw [hd, h.service], by rw [hd, h.failures],
    by rw [hd, h.commandFailures], by rw [hd, h.corrected], by rw [hd, h.uncorrectable], fun k => (hbooks k).trans ?_, fun t y hne hy => hentries t y hne ?_⟩
  · obtain ⟨p, hp, -⟩ := hdrive d'
    rw [hp, h.others d' hd']
    exact keptTo_service _ _
  · exact congrArg (fun v : Vector BookEntry 127 => (look v k).state) h.books
  · exact (congrArg (fun v : Front => look v.table t) h.front).trans hy

/-- R112: the owner of a command that is not the write of a live FILE. -/
theorem takenBack_other (hv : Running s d v) (he : e = { s.env with now := e.now }) (h : ∀ t b f, v.command = .primaryWrite t b f → s.lib.fileOf t = none) :
    OwnerLeaves s e (s.takenBack e d v now) d v ∧ (s.takenBack e d v now).env = e ∧ TakenBack e ((s.atFailure e d now).stopped d v).lib (s.takenBack e d v now).lib := by
  have hs := stopped_stops s e d v now
  change CommandStops s ((s.atFailure e d now).stopped d v).lib d at hs
  have hfile (t : Tag) : ((s.atFailure e d now).stopped d v).lib.fileOf t = s.lib.fileOf t := by
    unfold Library.fileOf Library.entry
    rw [hs.front]
  obtain ⟨hb, henv, hfee, hpend⟩ := commandReturned_takenBack ((s.atFailure e d now).stopped d v) d v fun t b f hc => (hfile t).trans (h t b f hc)
  have hmask : e.mask = s.env.mask := by rw [he]
  have hday : e.day = s.env.day := by rw [he]
  have henv' : (s.takenBack e d v now).env = e := henv
  refine ⟨hs.leaves hpend hfee (by rw [henv']) (by rw [henv', hmask]) (by rw [henv', hday]) hb.samePicker hb.roles hb.sameOut hb.sameHealth hb.rescue
    (fun q hq => by rw [show (s.takenBack e d v now).lib.log = _ from hb.log]; exact hq) hb.service hb.state fun t y _ hy => hb.entry t y hy, henv', hb⟩

/-- R86: the owner of the write of a live FILE. -/
theorem takenBack_file (hv : Running s d v) (he : e = { s.env with now := e.now }) {t : Tag} {b : Book} {f : Nat} {x : Entry} {g : Filing}
    (hc : v.command = .primaryWrite t b f) (hx : s.lib.fileOf t = some (x, g)) :
    OwnerLeaves s e (s.takenBack e d v now) d v ∧ (s.takenBack e d v now).env = e.setFrame b f .void
      ∧ PageEnds ((s.atFailure e d now).stopped d v).lib (s.takenBack e d v now).lib g.book t x .fileFailed 0
      ∧ (s.lib.log.first = none → KindSet.has s.env.mask .writeFailed = false →
        (s.takenBack e d v now).lib.log.first = some ⟨.writeFailed, some g.book, some v.side, some g.frame, some d, none, some t, s.env.day⟩) := by
  have hs := stopped_stops s e d v now
  change CommandStops s ((s.atFailure e d now).stopped d v).lib d at hs
  have hfile : ((s.atFailure e d now).stopped d v).lib.fileOf t = some (x, g) := by
    rw [← hx]
    unfold Library.fileOf Library.entry
    rw [hs.front]
  have hmask : e.mask = s.env.mask := by rw [he]
  have hday : e.day = s.env.day := by rw [he]
  have heq : s.takenBack e d v now = { (s.atFailure e d now).stopped d v with
      env := e.setFrame b f .void
      lib := ((s.atFailure e d now).stopped d v).lib.spent (e.setFrame b f .void) t g v.side d false } := by
    unfold State.takenBack State.commandReturned
    rw [hc]
    simp only [hfile]
    rfl
  obtain ⟨p1, p2, p3, p4, p5, p6⟩ := spentUncounted_ends (e.setFrame b f .void) hfile v.side d
  rw [heq]
  refine ⟨hs.leaves rfl rfl rfl hmask hday p1.picker p2 p4 (by rw [p3]) (by rw [p3]) (fun q hq => ?_) p6 p1.state (fun r y hne hy => ?_), rfl, p1, fun hl hm => ?_⟩
  · rw [p5]; exact fault_keeps hq
  · refine ⟨y, (p1.entry r fun h => hne b f (h ▸ hc)).trans hy, .refl y⟩
  · have hm' : KindSet.has (e.setFrame b f .void).mask .writeFailed = false := by
      rw [show (e.setFrame b f .void).mask = e.mask from rfl, hmask]; exact hm
    have hl' : ((s.atFailure e d now).stopped d v).lib.log.first = none := by rw [hs.log]; exact hl
    exact (congrArg FaultLog.first p5).trans ((fault_first hl' hm').trans (by rw [show (e.setFrame b f .void).day = e.day from rfl, hday]))

theorem takenBack_leaves (hv : Running s d v) (he : e = { s.env with now := e.now }) : OwnerLeaves s e (s.takenBack e d v now) d v := by
  by_cases h : ∀ t b f, v.command = .primaryWrite t b f → s.lib.fileOf t = none
  · exact (takenBack_other hv he h).1
  · push Not at h
    obtain ⟨t, b, f, hc, hx⟩ := h
    obtain ⟨⟨x, g⟩, hx⟩ := Option.ne_none_iff_exists'.mp hx
    exact (takenBack_file hv he hc hx).1

end Failure

end Sys2Proof.Machine
end

section
-- One declaration after the other: the stacks of the threads that wait for each other count against the check's memory limit.
set_option Elab.async false
namespace Sys2Proof.Machine

section Failure

variable {s u : State} {e : Env} {d : Drive} {v : InService} {now : Option Nat} {c : Instr}

/-- R112, R113: what a failed sector command leaves for the reactions. -/
theorem failCommand_leaves (hv : Running s d v) (he : e = { s.env with now := e.now }) :
    ∃ r : State, r = s.takenBack e d v now ∧ OwnerLeaves s e r d v ∧ (s.atFailure e d now).failCommand d = { r with lib := r.lib.afterFailure r.env d }
      ∧ DriveGoes r.lib (r.lib.afterFailure r.env d) d := by
  have hl := takenBack_leaves (now := now) hv he
  exact ⟨_, rfl, hl, failCommand_atFailure hv e now, afterFailure_goes _ (hl.state.trans hv.state)⟩

/-- R112, R113: the counts of the failure after the reactions. -/
theorem OwnerLeaves.counted {r : State} (h : OwnerLeaves s e r d v) (hst : (s.lib.drive d).state = .active) (hg : DriveGoes r.lib (r.lib.afterFailure r.env d) d)
    (hs : Settled r.env (r.lib.afterFailure r.env d) u.lib) : FailureCounted s u d := by
  obtain ⟨g1, g2, g3, g4⟩ := hg.counts
  refine failureCounted_of hs ⟨g1.trans h.commandFailures, g2.trans h.failures, g3.trans h.corrected, g4.trans h.uncorrectable⟩ (fun hf => hg.failed ?_)
    (fun hf => ?_) fun d' hd' => by rw [hg.others d' hd']; exact h.others d' hd'
  · rw [h.failures]; omega
  · rw [hg.goesOn (by rw [h.failures]; omega)]
    split <;> decide

/-- R112: nothing is counted into the health record of a side that no rescue resets. -/
theorem OwnerLeaves.uncounted {r : State} (h : OwnerLeaves s e r d v) (hg : DriveGoes r.lib (r.lib.afterFailure r.env d) d)
    (hs : Settled r.env (r.lib.afterFailure r.env d) u.lib) {i : Side} (hi : s.lib.untargeted i) :
    (u.lib.health i).corrected = (s.lib.health i).corrected ∧ (u.lib.health i).uncorrectable = (s.lib.health i).uncorrectable := by
  obtain ⟨-, h2, h3, -⟩ := hs.health i ((Library.untargeted_congr (hg.roles.trans h.roles) (hg.rescue.trans h.rescue)).mpr hi)
  have hh : (r.lib.afterFailure r.env d).health i = s.lib.health i := congrArg (fun v : Vector Health 128 => look v i) (hg.health.trans h.health)
  rw [h2, h3, hh]
  exact ⟨rfl, rfl⟩

/-- R112, R86, R113: what the failure of a sector command leaves after its reactions. -/
structure CommandFailed (s u : State) (e : Env) (d : Drive) (v : InService) : Prop where
  pending : u.pending = s.pending
  fee : u.fee = s.fee
  counted : FailureCounted s u d
  out : ∃ os, u.lib.out = .stop d :: os
  now : u.env.now = e.now
  health : s.lib.untargeted v.side → (u.lib.health v.side).corrected = (s.lib.health v.side).corrected
    ∧ (u.lib.health v.side).uncorrectable = (s.lib.health v.side).uncorrectable
  other : (∀ t b f, v.command ≠ .primaryWrite t b f) → u.env = { s.env with now := u.env.now } ∧ ∀ b, (u.lib.book b).filing = (s.lib.book b).filing
  file : ∀ t x g, v.command = .primaryWrite t g.book g.frame → s.lib.fileOf t = some (x, g) →
    u.env.directory = dirPut s.env.directory (frameKey g.book g.frame) .void
    ∧ (u.lib.book g.book).filing = (s.lib.book g.book).filing + 1 ∧ RequestEnds u.lib t x .fileFailed 0
    ∧ (s.lib.log.first = none → KindSet.has s.env.mask .writeFailed = false →
      u.lib.log.first = some ⟨.writeFailed, some g.book, some v.side, some g.frame, some d, none, some t, s.env.day⟩)
  entries : ∀ r y, (∀ b f, v.command ≠ .primaryWrite r b f) → s.lib.entry r = some y → ∃ z, u.lib.entry r = some z ∧ y.KeptTo z
  locations : u.lib.picker.locations = s.lib.picker.locations
  books : ∀ b, (u.lib.book b).state = (s.lib.book b).state

theorem PageEnds.goes {l a b : Library} {k : Book} {t : Tag} {x : Entry} {o : Outcome} {moved : Nat} (h : PageEnds l a k t x o moved) (hg : DriveGoes a b d) {e : Env}
    {c : Library} (hs : Settled e b c) (hres : b.front.responses = a.front.responses ∧ b.front.ending = a.front.ending) :
    (c.book k).filing = (l.book k).filing + 1 ∧ RequestEnds c t x o moved := by
  obtain ⟨n, hend⟩ := h.ends
  have hbook (i : Book) : b.book i = a.book i := congrArg (fun v : Vector BookEntry 127 => look v i) hg.books
  have hentry (r : Tag) : b.entry r = a.entry r := congrArg (fun v : Front => look v.table r) hg.front
  refine ⟨by rw [hs.filing, hbook, h.filing], ?_⟩
  obtain ⟨y, hy, hk⟩ := hs.entry t _ ((hentry t).trans hend.entry)
  have hy' := hk.ended rfl
  subst hy'
  refine ⟨⟨_, hy, rfl, rfl, rfl, rfl, rfl, rfl⟩, ?_⟩
  obtain ⟨rs, hrs, hm⟩ := hs.responses
  rw [hrs]
  refine List.mem_append_right _ (hm _ ?_)
  rw [hres.2, hend.ending]
  exact List.mem_append_right _ (List.mem_singleton.mpr rfl)

theorem commandFailed (hv : Running s d v) (he : e = { s.env with now := e.now }) (l : Library) :
    CommandFailed s (((s.atFailure e d now).failCommand d).react l) e d v := by
  obtain ⟨r, hr, hl, hw, hg⟩ := failCommand_leaves (now := now) hv he
  rw [hw]
  have hs : Settled r.env (r.lib.afterFailure r.env d) ((r.lib.afterFailure r.env d).settle r.env l) := settle_settled ..
  have hentry (t : Tag) : (r.lib.afterFailure r.env d).entry t = r.lib.entry t := congrArg (fun v : Front => look v.table t) hg.front
  have hbook (i : Book) : (r.lib.afterFailure r.env d).book i = r.lib.book i := congrArg (fun v : Vector BookEntry 127 => look v i) hg.books
  refine ⟨hl.pending, hl.fee, hl.counted (u := State.react { r with lib := r.lib.afterFailure r.env d } l) hv.state hg hs, ?_, hl.now,
    hl.uncounted (u := State.react { r with lib := r.lib.afterFailure r.env d } l) hg hs, fun hno => ?_, fun t x g hc hx => ?_, fun t y hne hy => ?_,
    hs.locations.trans (hg.locations.trans (congrArg Picker.locations hl.picker)), fun b => (hs.state b).trans (by rw [hbook, hl.books])⟩
  · obtain ⟨os, hos⟩ := hs.out
    obtain ⟨ps, hps⟩ := hg.out
    refine ⟨ps ++ os, hos.trans ?_⟩
    rw [hps, hl.out]
    simp
  · obtain ⟨-, henv, hb⟩ := takenBack_other (now := now) hv he fun t b f hc => absurd hc (hno t b f)
    rw [← hr] at henv hb
    have hstop : CommandStops s ((s.atFailure e d now).stopped d v).lib d := stopped_stops s e d v now
    refine ⟨?_, fun b => (hs.filing b).trans ?_⟩
    · show r.env = { s.env with now := r.env.now }
      rw [henv]; exact he
    · rw [hbook, hb.filing]
      exact congrArg (fun v : Vector BookEntry 127 => (look v b).filing) hstop.books
  · obtain ⟨-, henv, hp, hfirst⟩ := takenBack_file (now := now) hv he hc hx
    rw [← hr] at henv hp hfirst
    have hstop : CommandStops s ((s.atFailure e d now).stopped d v).lib d := stopped_stops s e d v now
    obtain ⟨k1, k2⟩ := hp.goes hg hs ⟨by rw [hg.front], by rw [hg.front]⟩
    refine ⟨?_, k1.trans ?_, k2, fun h1 h2 => hs.first _ (hg.first _ (hfirst h1 h2))⟩
    · show r.env.directory = _
      rw [henv, Env.setFrame_directory, he]
    · exact congrArg (fun v : Vector BookEntry 127 => (look v g.book).filing + 1) hstop.books
  · obtain ⟨z, hz, hk⟩ := hl.entries t y hne hy
    obtain ⟨z', hz', hk'⟩ := hs.entry t z ((hentry t).trans hz)
    exact ⟨z', hz', hk.trans hk'⟩

/-- R112, R113: what the drive whose command failed is left as. -/
theorem failCommand_drive (hv : Running s d v) (he : e = { s.env with now := e.now }) :
    ((s.lib.drive d).failures = 0 → (((s.atFailure e d now).failCommand d).lib.drive d).service = none
        ∧ (((s.atFailure e d now).failCommand d).lib.drive d).state = if (s.lib.drive d).unload = true then .spinDown else .ready)
      ∧ (1 ≤ (s.lib.drive d).failures → DriveFails s.env s.lib ((s.atFailure e d now).failCommand d).lib d
        ∧ ((∀ t b f, v.command ≠ .primaryWrite t b f) → s.lib.log.first = none → KindSet.has s.env.mask .driveFailed = false →
          ((s.atFailure e d now).failCommand d).lib.log.first = some (driveFault s.env s.lib d))) := by
  obtain ⟨r, hr, hl, hw, hg⟩ := failCommand_leaves (now := now) hv he
  rw [hw]
  refine ⟨fun hf => ⟨hg.service.trans hl.service, ?_⟩, fun hf => ?_⟩
  · rw [← hl.unload]
    exact hg.goesOn (by rw [hl.failures]; omega)
  · have hst : (r.lib.drive d).state ≠ .unloading := by rw [hl.state, hv.state]; decide
    have hfail : r.lib.afterFailure r.env d = r.lib.failDrive r.env d := if_pos (by rw [hl.failures]; omega)
    dsimp only
    rw [hfail]
    refine ⟨failDrive_fails hst hl.service hl.picker hl.first hl.mask, fun hno h1 h2 => ?_⟩
    obtain ⟨-, -, hb⟩ := takenBack_other (now := now) hv he fun t b f hc => absurd hc (hno t b f)
    rw [← hr] at hb
    have hstop : CommandStops s ((s.atFailure e d now).stopped d v).lib d := stopped_stops s e d v now
    rw [failDrive_first hst (by rw [hb.log, hstop.log]; exact h1) (by rw [hl.mask]; exact h2)]
    exact congrArg some (driveFault_congr hl.picker hl.roles hl.day)

end Failure

end Sys2Proof.Machine
end

section
-- One declaration after the other: the stacks of the threads that wait for each other count against the check's memory limit.
set_option Elab.async false
namespace Sys2Proof.Machine

section Returned

variable {s : State} {e : Env} {d : Drive} {v : InService} {now : Option Nat} {c : Instr}

/-- R127: the item that its owner gives back stands on its list after the failure. -/
theorem itemReturned_giveBack {l a : Library} {i : Side} (hl : l.items i = s.lib.items i) (ha : a.items i = (l.giveBack i v.item).items i) : ItemReturned s a v i := by
  obtain ⟨h1, h2⟩ := giveBack_listed l i v.item
  unfold ItemReturned
  rw [ha, ← hl]
  exact ⟨h1, h2⟩

/-- R112: where the library of the owner and that for the reactions agree. -/
theorem failCommand_agrees (hv : Running s d v) (he : e = { s.env with now := e.now }) :
    (∀ i, ((s.atFailure e d now).failCommand d).lib.items i = (s.takenBack e d v now).lib.items i)
      ∧ (∀ b, ((s.atFailure e d now).failCommand d).lib.twin b = (s.takenBack e d v now).lib.twin b)
      ∧ ((s.atFailure e d now).failCommand d).lib.care.batch = (s.takenBack e d v now).lib.care.batch := by
  obtain ⟨r, hr, -, hw, hg⟩ := failCommand_leaves (now := now) hv he
  rw [← hr, hw]
  exact ⟨fun i => congrArg (fun v : Vector (List Item) 128 => look v i) hg.lists, fun b => congrArg (fun v : Vector TwinRecord 127 => look v b) hg.twins, hg.batch⟩

/-- R112: where the stopped library and the library that the event found agree. -/
theorem stopped_agrees (s : State) (e : Env) (d : Drive) (v : InService) (now : Option Nat) :
    (∀ i, ((s.atFailure e d now).stopped d v).lib.items i = s.lib.items i) ∧ (∀ t, ((s.atFailure e d now).stopped d v).lib.windows t = s.lib.windows t)
      ∧ (∀ b, ((s.atFailure e d now).stopped d v).lib.book b = s.lib.book b) ∧ ∀ b, ((s.atFailure e d now).stopped d v).lib.twin b = s.lib.twin b := by
  have h : CommandStops s ((s.atFailure e d now).stopped d v).lib d := stopped_stops s e d v now
  refine ⟨fun i => congrArg (fun v : Vector (List Item) 128 => look v i) h.lists, fun t => ?_, fun b => congrArg (fun v : Vector BookEntry 127 => look v b) h.books,
    fun b => congrArg (fun v : Vector TwinRecord 127 => look v b) h.twins⟩
  unfold Library.windows Library.entry
  rw [h.front]

theorem fetchFailed_found {l : Library} {t : Tag} {b : Book} {f : Nat} {x : Window}
    (hx : (l.windows t).find? (fun w => w.book == b && w.frame == f && w.reading) = some x) : l.fetchFailed v t b f = l.windowFailed t x v.side v.item := by
  unfold Library.fetchFailed
  simp only [hx]

/-- R101: the record of a re-read that failed is GRANTED again. -/
def grantAgain (f : Nat) (rs : List Reread) : List Reread := rs.map fun r => if r.frame = f then { r with state := .granted } else r

theorem rereadReturned_primary {l : Library} {b : Book} {f : Nat} {p : Side} (hp : (l.book b).primary = some p) :
    l.rereadReturned v b f = (l.mapRereads b (grantAgain f)).giveBack p v.item := by
  have hp' : ((l.mapRereads b (grantAgain f)).book b).primary = some p := hp
  unfold Library.rereadReturned
  simp only [show (l.mapRereads b fun rs => rs.map fun r => if r.frame = f then { r with state := .granted } else r) = l.mapRereads b (grantAgain f) from rfl, hp']

/-- R66: a fetch read. -/
theorem fetchRead_returned (hv : Running s d v) (he : e = { s.env with now := e.now }) {t : Tag} {b : Book} {f k : Nat} {ss : List Nat} {x : Window}
    (hc : v.command = .fetchRead t b f ss true k) (hx : (s.lib.windows t).find? (fun w => w.book == b && w.frame == f && w.reading) = some x) :
    ItemReturned s ((s.atFailure e d now).failCommand d).lib v v.side := by
  obtain ⟨h1, h2, -⟩ := stopped_agrees s e d v now
  refine itemReturned_giveBack (l := ((s.atFailure e d now).stopped d v).lib) (h1 v.side) (((failCommand_agrees hv he).1 v.side).trans ?_)
  have heq : (s.takenBack e d v now).lib = ((s.atFailure e d now).stopped d v).lib.windowFailed t x v.side v.item := by
    unfold State.takenBack State.commandReturned
    rw [hc]
    exact fetchFailed_found (by rw [h2]; exact hx)
  obtain ⟨fr, hfr⟩ := setWindow_rest (((s.atFailure e d now).stopped d v).lib.giveBack v.side v.item) t { x with reading := false, item := some v.side }
  rw [heq]
  unfold Library.windowFailed
  rw [hfr]
  rfl

/-- R170: a rescue read. -/
theorem rescueRead_returned (hv : Running s d v) (he : e = { s.env with now := e.now }) {b : Book} {f : Nat} {ss : List Nat}
    (hc : v.command = .rescueRead b f ss true) : ItemReturned s ((s.atFailure e d now).failCommand d).lib v v.side
      ∧ ∀ xs, ((s.atFailure e d now).failCommand d).lib.care.batch = some xs → ∀ x ∈ xs, x.frame = f → x.reading = false := by
  obtain ⟨h1, -⟩ := stopped_agrees s e d v now
  obtain ⟨a1, -, a3⟩ := failCommand_agrees (now := now) hv he
  have heq : (s.takenBack e d v now).lib
      = (((s.atFailure e d now).stopped d v).lib.mapBatch fun x => if x.frame = f then { x with reading := false } else x).giveBack v.side v.item := by
    unfold State.takenBack State.commandReturned
    rw [hc]
    rfl
  refine ⟨itemReturned_giveBack (l := ((s.atFailure e d now).stopped d v).lib.mapBatch _) (h1 v.side) ((a1 v.side).trans (by rw [heq])), fun xs hxs x hx hf => ?_⟩
  rw [a3, heq] at hxs
  obtain ⟨ys, -, rfl⟩ := Option.map_eq_some_iff.mp hxs
  obtain ⟨y, -, rfl⟩ := List.mem_map.mp hx
  by_cases hy : y.frame = f
  · rw [if_pos hy]
  · rw [if_neg hy] at hf
    exact absurd hf hy

/-- R173: a rescue write. -/
theorem rescueWrite_returned (hv : Running s d v) (he : e = { s.env with now := e.now }) {b : Book} {f : Nat} (hc : v.command = .rescueWrite b f true) :
    ItemReturned s ((s.atFailure e d now).failCommand d).lib v v.side
      ∧ ∀ xs, ((s.atFailure e d now).failCommand d).lib.care.batch = some xs → ∀ x ∈ xs, x.frame = f → x.state = .ready := by
  obtain ⟨h1, -⟩ := stopped_agrees s e d v now
  obtain ⟨a1, -, a3⟩ := failCommand_agrees (now := now) hv he
  have heq : (s.takenBack e d v now).lib = (((s.atFailure e d now).stopped d v).lib.setBatchState f .ready).giveBack v.side v.item := by
    unfold State.takenBack State.commandReturned
    rw [hc]
    rfl
  refine ⟨itemReturned_giveBack (l := ((s.atFailure e d now).stopped d v).lib.setBatchState f .ready) (h1 v.side) ((a1 v.side).trans (by rw [heq])), fun xs hxs x hx hf => ?_⟩
  rw [a3, heq] at hxs
  obtain ⟨ys, -, rfl⟩ := Option.map_eq_some_iff.mp hxs
  obtain ⟨y, -, rfl⟩ := List.mem_map.mp hx
  by_cases hy : y.frame = f
  · rw [if_pos hy]
  · rw [if_neg hy] at hf
    exact absurd hf hy

/-- R101: a re-read. -/
theorem reread_returned (hv : Running s d v) (he : e = { s.env with now := e.now }) {b : Book} {f n : Nat} {p : Side} (hc : v.command = .reread b f n true)
    (hp : (s.lib.book b).primary = some p) : ItemReturned s ((s.atFailure e d now).failCommand d).lib v p
      ∧ ∀ r ∈ (((s.atFailure e d now).failCommand d).lib.twin b).rereads, r.frame = f → r.state = .granted := by
  obtain ⟨h1, -, h3, -⟩ := stopped_agrees s e d v now
  obtain ⟨a1, a2, -⟩ := failCommand_agrees (now := now) hv he
  have heq : (s.takenBack e d v now).lib = (((s.atFailure e d now).stopped d v).lib.mapRereads b (grantAgain f)).giveBack p v.item := by
    unfold State.takenBack State.commandReturned
    rw [hc]
    exact rereadReturned_primary ((congrArg BookEntry.primary (h3 b)).trans hp)
  refine ⟨itemReturned_giveBack (l := ((s.atFailure e d now).stopped d v).lib.mapRereads b (grantAgain f)) (h1 p) ((a1 p).trans (by rw [heq])), fun r hr hf => ?_⟩
  rw [a2, heq, show ((((s.atFailure e d now).stopped d v).lib.mapRereads b (grantAgain f)).giveBack p v.item).twin b
    = { ((s.atFailure e d now).stopped d v).lib.twin b with rereads := grantAgain f (((s.atFailure e d now).stopped d v).lib.twin b).rereads } from Library.setTwin_twin_same ..] at hr
  obtain ⟨q, -, rfl⟩ := List.mem_map.mp hr
  by_cases hq : q.frame = f
  · rw [if_pos hq]
  · rw [if_neg hq] at hf
    exact absurd hf hq

/-- R101: a twin write. -/
theorem twinWrite_returned (hv : Running s d v) (he : e = { s.env with now := e.now }) {b : Book} {f n : Nat} {h : Bool} (hc : v.command = .twinWrite b f n h true)
    (ht : (s.lib.book b).twin = some v.side) : (((s.atFailure e d now).failCommand d).lib.twin b).writing = none
      ∧ (v.item.kind = .twinWrite b → (((s.atFailure e d now).failCommand d).lib.twin b).state = .working →
        ItemReturned s ((s.atFailure e d now).failCommand d).lib v v.side) := by
  obtain ⟨h1, -, h3, -⟩ := stopped_agrees s e d v now
  obtain ⟨a1, a2, -⟩ := failCommand_agrees (now := now) hv he
  let m := (((s.atFailure e d now).stopped d v).lib.endTwinWrite b).giveBack v.side v.item
  have htm : (m.book b).twin = some v.side := (congrArg BookEntry.twin (h3 b)).trans ht
  have heq : (s.takenBack e d v now).lib = m.examine e b := by
    unfold State.takenBack State.commandReturned
    rw [hc]
    have hstill : ((s.atFailure e d now).stopped d v).lib.stillTwin b v.side = true := by
      unfold Library.stillTwin
      rw [show (((s.atFailure e d now).stopped d v).lib.book b).twin = _ from htm]
      exact beq_self_eq_true _
    show ((s.atFailure e d now).stopped d v).lib.twinWriteReturned e v b true = _
    unfold Library.twinWriteReturned
    rw [if_pos hstill]
    rfl
  obtain ⟨k1, k2⟩ := examine_twin e m b htm
  rw [a2, heq]
  refine ⟨k1.trans (congrArg TwinRecord.writing (Library.setTwin_twin_same ..)), fun hk hw => ?_⟩
  obtain ⟨g1, g2⟩ := giveBack_listed (((s.atFailure e d now).stopped d v).lib.endTwinWrite b) v.side v.item
  have hstay := k2 hw v.side b
  have hitems : ((s.atFailure e d now).stopped d v).lib.items v.side = s.lib.items v.side := h1 v.side
  unfold ItemReturned
  rw [a1, heq]
  refine ⟨?_, g2.imp (fun hl => hitems ▸ hl) fun hi => hstay _ hk hi⟩
  obtain ⟨x, hx, hxk⟩ := listed_iff.mp g1
  exact listed_iff.mpr ⟨x, hstay x (hxk.trans hk) hx, hxk⟩

/-! ## The events -/

theorem exec_commandLimitExpiry_fails (hv : Running s d v) :
    exec (.commandLimitExpiry d) s = .next (((s.atFailure { s.env with now := max s.env.now (v.issued + 10) } d (some (max s.env.now (v.issued + 10)))).failCommand d).react
      (s.failureFound d (some (max s.env.now (v.issued + 10))))) := by
  show execCommandLimitExpiry d s = _
  unfold execCommandLimitExpiry
  rw [State.atCommand_next _ hv.started hv.state hv.service]
  rfl

theorem exec_hardwareFault_fails (hv : Running s d v) :
    exec (.hardwareFaultReport d) s = .next (((s.atFailure s.env d none).failCommand d).react (s.failureFound d none)) := by
  show execHardwareFaultReport d s = _
  unfold execHardwareFaultReport
  have hw : (s.begin.lib.drive d).isWorking = true := by
    unfold DriveRecord.isWorking
    rw [show (s.begin.lib.drive d).state = _ from hv.state]
    rfl
  rw [State.event_next _ hv.started, if_pos hw]
  rfl

/-- R109: an outcome that arrives at the time of an expiry is discarded. -/
theorem exec_late (hs : s.env.startUp = none) (hx : (s.lib.drive d).expired = some s.env.now)
    (hc : (∃ rs, c = .fetchReadOutcome d rs ∨ c = .rereadOutcome d rs ∨ c = .rescueReadOutcome d rs ∨ c = .patrolVerifyOutcome d rs)
      ∨ c = .primaryWriteOk d ∨ c = .primaryWriteFail d ∨ c = .twinWriteVerified d ∨ c = .twinWriteFail d
      ∨ c = .rescueWriteVerified d ∨ c = .rescueWriteFail d) :
    exec c s = .next { s with lib := ({ s.lib with out := [] }).setDrive d { s.lib.drive d with expired := none } } := by
  have late (f : State → InService → State) := State.outcome_late f hs hx
  rcases hc with ⟨rs, rfl | rfl | rfl | rfl⟩ | rfl | rfl | rfl | rfl | rfl | rfl
  · exact (show execFetchReadOutcome d rs s = _ from late _)
  · exact (show execRereadOutcome d rs s = _ from late _)
  · exact (show execRescueReadOutcome d rs s = _ from late _)
  · exact (show execPatrolVerifyOutcome d rs s = _ from late _)
  · exact (show execPrimaryWriteOk d s = _ from late _)
  · exact (show execPrimaryWriteFail d s = _ from late _)
  · exact (show execTwinWriteVerified d s = _ from late _)
  · exact (show execTwinWriteFail d s = _ from late _)
  · exact (show execRescueWriteVerified d s = _ from late _)
  · exact (show execRescueWriteFail d s = _ from late _)

/-- R112: everything that a sector command's failure does with the item of its owner and with its drive. -/
theorem failure_owners (hv : Running s d v) (he : e = { s.env with now := e.now }) :
    let w := (s.atFailure e d now).failCommand d
    (∀ t b f ss k x, v.command = .fetchRead t b f ss true k →
          (s.lib.windows t).find? (fun w => w.book == b && w.frame == f && w.reading) = some x →
          ItemReturned s w.lib v v.side)
        ∧ (∀ b f ss, v.command = .rescueRead b f ss true → ItemReturned s w.lib v v.side
          ∧ ∀ xs, w.lib.care.batch = some xs → ∀ x ∈ xs, x.frame = f → x.reading = false)
        ∧ (∀ b f, v.command = .rescueWrite b f true → ItemReturned s w.lib v v.side
          ∧ ∀ xs, w.lib.care.batch = some xs → ∀ x ∈ xs, x.frame = f → x.state = .ready)
        ∧ (∀ b f n p, v.command = .reread b f n true → (s.lib.book b).primary = some p → ItemReturned s w.lib v p
          ∧ ∀ r ∈ (w.lib.twin b).rereads, r.frame = f → r.state = .granted)
        ∧ (∀ b f n h, v.command = .twinWrite b f n h true → (s.lib.book b).twin = some v.side →
          (w.lib.twin b).writing = none ∧ (v.item.kind = .twinWrite b → (w.lib.twin b).state = .working → ItemReturned s w.lib v v.side))
        ∧ ((s.lib.drive d).failures = 0 → (w.lib.drive d).service = none
          ∧ (w.lib.drive d).state = if (s.lib.drive d).unload = true then .spinDown else .ready)
        ∧ (1 ≤ (s.lib.drive d).failures → DriveFails s.env s.lib w.lib d
          ∧ ((∀ t b f, v.command ≠ .primaryWrite t b f) → s.lib.log.first = none → KindSet.has s.env.mask .driveFailed = false →
            w.lib.log.first = some (driveFault s.env s.lib d))) := by
  obtain ⟨h1, h2⟩ := failCommand_drive (now := now) hv he
  exact ⟨fun t b f ss k x hc hx => fetchRead_returned hv he hc hx, fun b f ss hc => rescueRead_returned hv he hc, fun b f hc => rescueWrite_returned hv he hc,
    fun b f n p hc hp => reread_returned hv he hc hp, fun b f n h hc ht => twinWrite_returned hv he hc ht, h1, h2⟩

/-- Settles O25: the failure stops the command, its owner takes it back, and the drive goes on or fails. -/
theorem sectorCommandFailure : Obligations.SectorCommandFailure := by
  refine ⟨fun s d c hs hx hc => exec_late hs hx hc, fun s d v c hv hc => ?_⟩
  rcases hc with rfl | rfl
  · have hf : CommandFailed s _ _ d v := commandFailed (e := { s.env with now := max s.env.now (v.issued + 10) }) (now := some (max s.env.now (v.issued + 10)))
      hv rfl (s.failureFound d (some (max s.env.now (v.issued + 10))))
    obtain ⟨os, hos⟩ := hf.out
    refine ⟨⟨_, os, exec_commandLimitExpiry_fails hv, hf.pending, hf.fee, hf.counted, hos, fun _ => hf.now, fun h => (by cases h), hf.health, hf.other, hf.file,
      hf.entries, hf.locations, hf.books⟩, ?_⟩
    simp only [if_true]
    exact ⟨exec_commandLimitExpiry_fails hv, failure_owners (now := some (max s.env.now (v.issued + 10))) hv rfl⟩
  · have hf : CommandFailed s _ _ d v := commandFailed (e := s.env) (now := none) hv rfl (s.failureFound d none)
    obtain ⟨os, hos⟩ := hf.out
    refine ⟨⟨_, os, exec_hardwareFault_fails hv, hf.pending, hf.fee, hf.counted, hos, fun h => (by cases h), fun _ => hf.now, hf.health, hf.other, hf.file,
      hf.entries, hf.locations, hf.books⟩, ?_⟩
    simp only [reduceCtorEq, if_false]
    exact ⟨exec_hardwareFault_fails hv, failure_owners (now := none) hv rfl⟩

end Returned

end Sys2Proof.Machine
end

section
-- One declaration after the other: the stacks of the threads that wait for each other count against the check's memory limit.
set_option Elab.async false
namespace Sys2Proof.Machine

/-! # The comings and goings of cartridges -/

section Removal

variable (e : Env) (l : Library) (s : Slot)

theorem mem_sidesOf {s : Slot} {q : Side} : q ∈ sidesOf s ↔ slotOf q = s := by
  simp only [sidesOf, sideOf, slotOf, List.mem_cons, List.not_mem_nil, or_false, Fin.ext_iff]
  omega

/-- R17: the BLANK sides of a cartridge that is removed become UNLISTED. -/
def Library.unlistBlank (l : Library) (d : Side) : Library := if l.role d = .blank then l.setRole d .unlisted else l

theorem unlistBlank_rest (d : Side) : l.unlistBlank d = { l with roles := (l.unlistBlank d).roles } := by
  unfold Library.unlistBlank
  split <;> rfl

theorem unlistBlank_role (d q : Side) : (l.unlistBlank d).role q = if d = q ∧ l.role q = .blank then .unlisted else l.role q := by
  unfold Library.unlistBlank
  split
  next h => rw [Library.setRole_role]; grind
  next h => grind

theorem unlistSides_rest (xs : List Side) : xs.foldl Library.unlistBlank l = { l with roles := (xs.foldl Library.unlistBlank l).roles } := by
  induction xs generalizing l with
  | nil => rfl
  | cons d xs ih =>
    rw [List.foldl_cons, ih (l.unlistBlank d), unlistBlank_rest l d]

theorem unlistSides_role (xs : List Side) (q : Side) :
    (xs.foldl Library.unlistBlank l).role q = if q ∈ xs ∧ l.role q = .blank then .unlisted else l.role q := by
  induction xs generalizing l with
  | nil => simp
  | cons d xs ih =>
    rw [List.foldl_cons, ih, unlistBlank_role]
    grind

/-- R17: what a removal does before it looks for the fault and the rescue. -/
def Library.removed (l : Library) (s : Slot) : Library :=
  let l := (sidesOf s).foldl Library.unlistBlank (l.setLocation s .absent)
  if l.care.queue.any fun q => slotOf q == s then
    { l with care := { l.care with queue := l.care.queue.filter fun q => slotOf q != s, seekDue := true } }
  else l

theorem removal_eq : l.removal e s = if (l.removed s).care.rescue.any fun r => r.usesSlot s
    then ((l.removed s).faultMissing e s none).stopRescue else (l.removed s).faultMissing e s none := by
  have hm : ((l.removed s).faultMissing e s none).care = (l.removed s).care := by
    unfold Library.faultMissing
    split <;> rfl
  rw [← hm]
  rfl

theorem removed_rest : ∃ rs due, l.removed s = { l with
      picker := { l.picker with locations := put l.picker.locations s .absent }, roles := rs,
      care := { l.care with queue := l.care.queue.filter fun q => slotOf q != s, seekDue := due } }
    ∧ ∀ q, look rs q = if slotOf q = s ∧ l.role q = .blank then .unlisted else l.role q := by
  have hrest := unlistSides_rest (l.setLocation s .absent) (sidesOf s)
  have hrole := unlistSides_role (l.setLocation s .absent) (sidesOf s)
  unfold Library.removed
  dsimp only
  generalize (sidesOf s).foldl Library.unlistBlank (l.setLocation s .absent) = m at hrest hrole
  have hlook (q : Side) : look m.roles q = if slotOf q = s ∧ l.role q = .blank then .unlisted else l.role q := by
    refine (hrole q).trans ?_
    simp only [mem_sidesOf, Library.setLocation_role]
  have hcare : m.care = l.care := by rw [hrest]; rfl
  split
  next hany =>
    refine ⟨m.roles, true, ?_, hlook⟩
    rw [hrest]; rfl
  next hany =>
    refine ⟨m.roles, l.care.seekDue, ?_, hlook⟩
    have hq : l.care.queue.filter (fun q => slotOf q != s) = l.care.queue := by
      rw [hcare] at hany
      rw [List.filter_eq_self]
      intro q hq
      have : ¬ slotOf q = s := fun h => hany (List.any_eq_true.mpr ⟨q, hq, by rw [h]; exact beq_self_eq_true s⟩)
      exact bne_iff_ne.mpr this
    rw [hq, hrest]; rfl

theorem faultMissing_rest (d : Option Drive) : l.faultMissing e s d = { l with log := (l.faultMissing e s d).log } := by
  unfold Library.faultMissing
  split <;> rfl

/-- R176: what a stop of the rescue leaves alone. -/
theorem stopRescue_rest : l.stopRescue = { l with
      scheduler := { l.scheduler with lists := l.stopRescue.scheduler.lists }, drives := l.stopRescue.drives,
      care := { l.care with rescue := l.care.rescue.map fun r => { r with stopped := true }, batch := l.stopRescue.care.batch } } := by
  unfold Library.stopRescue
  split
  next r h => rw [h]; rfl
  next h =>
    have hmap : l.care.rescue.map (fun r => { r with stopped := true }) = l.care.rescue := by rw [h]; rfl
    rw [hmap]

theorem stopRescue_drive (d : Drive) : ∃ v, l.stopRescue.drive d = { l.drive d with service := v } := by
  unfold Library.stopRescue
  cases l.care.rescue with
  | none => exact ⟨_, rfl⟩
  | some r =>
    have := twinWork_mapCommands (l.withdrawAll fun k => k == .rescueRead || k == .rescueWrite) Command.orphanRescue
    obtain ⟨v, hv, -⟩ := this.drive d
    exact ⟨v, hv⟩

/-- R17, R176: what a removal leaves alone, and the marks that it makes in the locations and the roles. -/
theorem removal_rest : ∃ ds c ls b g, l.removal e s = { l with
      picker := { l.picker with locations := put l.picker.locations s .absent }, roles := (l.removed s).roles, drives := ds,
      scheduler := { l.scheduler with lists := ls }, care := { l.care with
        queue := l.care.queue.filter fun q => slotOf q != s, seekDue := c, batch := b,
        rescue := l.care.rescue.map fun r => if r.usesSlot s then { r with stopped := true } else r }, log := g } := by
  obtain ⟨rs, due, heq, -⟩ := removed_rest l s
  have hmiss := faultMissing_rest e (l.removed s) s none
  have hroles : (l.removed s).roles = rs := by rw [heq]
  have hcare : (l.removed s).care.rescue = l.care.rescue := by rw [heq]
  rw [removal_eq, hroles, hcare]
  generalize ((l.removed s).faultMissing e s none) = m at hmiss
  rw [heq] at hmiss
  split
  next hany =>
    have hstop := stopRescue_rest m
    refine ⟨m.stopRescue.drives, due, m.stopRescue.scheduler.lists, m.stopRescue.care.batch, m.log, ?_⟩
    have hmap : l.care.rescue.map (fun r => if r.usesSlot s then { r with stopped := true } else r)
        = l.care.rescue.map fun r => { r with stopped := true } := by
      refine Option.map_congr fun r hr => ?_
      rw [hr] at hany
      exact if_pos hany
    rw [hmap, hstop, hmiss]
  next hany =>
    refine ⟨l.drives, due, l.scheduler.lists, l.care.batch, m.log, hmiss.trans ?_⟩
    have hmap : l.care.rescue.map (fun r => if r.usesSlot s then { r with stopped := true } else r) = l.care.rescue := by
      refine (Option.map_congr (g := id) fun r hr => ?_).trans (congrFun Option.map_id _)
      rw [hr] at hany
      exact if_neg hany
    rw [hmap]

theorem removal_role (q : Side) : (l.removal e s).role q = if slotOf q = s ∧ l.role q = .blank then .unlisted else l.role q := by
  obtain ⟨ds, c, ls, b, g, heq⟩ := removal_rest e l s
  obtain ⟨rs, due, hrem, hlook⟩ := removed_rest l s
  rw [heq, hrem]
  exact hlook q

theorem removal_drive (d : Drive) : ∃ v, (l.removal e s).drive d = { l.drive d with service := v } := by
  obtain ⟨rs, due, heq, -⟩ := removed_rest l s
  have hm : ((l.removed s).faultMissing e s none).drive d = l.drive d := by rw [faultMissing_rest, heq]; rfl
  rw [removal_eq]
  split
  · obtain ⟨v, hv⟩ := stopRescue_drive ((l.removed s).faultMissing e s none) d
    exact ⟨v, by rw [hv, hm]⟩
  · exact ⟨_, hm⟩

end Removal

end Sys2Proof.Machine
end

section
-- One declaration after the other: the stacks of the threads that wait for each other count against the check's memory limit.
set_option Elab.async false
namespace Sys2Proof.Machine

/-! # The reports that end spins and moves -/

section Reports

/-- R108, R111: what a ready report leaves. -/
theorem driveReady_leaves (e : Env) (l : Library) (d : Drive) :
    (∀ d', d' ≠ d → (l.driveReady e d).drive d' = l.drive d')
      ∧ (l.driveReady e d).drive d = { l.drive d with
          failures := 0, lastUse := e.now, state := if (l.drive d).unload then .spinDown else .ready,
          limitStart := if (l.drive d).unload then e.now else (l.drive d).limitStart }
      ∧ (l.driveReady e d).out = l.out ++ (if (l.drive d).unload then [.spinDown d] else [])
      ∧ (l.driveReady e d).front = l.front ∧ (l.driveReady e d).books = l.books ∧ (l.driveReady e d).roles = l.roles
      ∧ (l.driveReady e d).picker = l.picker ∧ (l.driveReady e d).log = l.log
      ∧ (l.driveReady e d).care = { l.care with patrolDue := true } := by
  obtain ⟨hsame, hd, hother, hcare, hlog, -, hout⟩ := toReady_goes e (l.setDrive d { l.drive d with failures := 0, lastUse := e.now }) d
  rw [Library.setDrive_drive_same] at hd hout
  refine ⟨fun d' hd' => (hother d' hd').trans ?_, hd, hout, hsame.front, hsame.books, hsame.roles, hsame.picker, hlog, ?_⟩
  · rw [Library.setDrive_drive, if_neg (Ne.symm hd')]
  · show { (((l.setDrive d _).toReady e d).care) with patrolDue := true } = _
    rw [hcare]
    rfl

theorem exec_readyReport {s : State} {d : Drive} (hs : s.env.startUp = none) (h : (s.lib.drive d).state = .spinUp) :
    exec (.readyReport d) s = .next (State.react { s.begin with lib := s.begin.lib.driveReady s.env d } s.begin.lib) := by
  show execReadyReport d s = _
  unfold execReadyReport
  rw [State.event_next _ hs, if_pos (show (s.begin.lib.drive d).state = .spinUp from h)]
  rfl

/-- R110, R111: what the asking of a RETURN does to the move list. -/
theorem askUnload_rest (l : Library) (d : Drive) : ∃ ms, l.askUnload d = { l with picker := { l.picker with moves := ms } }
      ∧ (l.picker.state = .faulted → ms = l.picker.moves)
      ∧ ∀ m, l.picker.state ≠ .faulted → l.mountedSide d = some m → (∀ x ∈ l.picker.moves, x.drive? ≠ some d) →
        ms = l.picker.moves ++ [.back (slotOf m) (some d) .unload] := by
  unfold Library.askUnload
  split
  next hf => exact ⟨_, rfl, fun _ => rfl, fun m hn => absurd hf hn⟩
  next hf =>
    unfold Library.askReturn
    cases hm : l.mountedSide d with
    | none => exact ⟨_, rfl, fun _ => rfl, fun m _ hm => nomatch hm⟩
    | some i =>
      dsimp only
      split
      next hany =>
        refine ⟨_, rfl, fun _ => rfl, fun m _ _ hall => ?_⟩
        obtain ⟨x, hx, hxd⟩ := List.any_eq_true.mp hany
        rw [Bool.and_eq_true, beq_iff_eq] at hxd
        exact absurd hxd.1 (hall x hx)
      next => exact ⟨_, rfl, fun h => absurd h hf, fun m _ hm _ => by rw [← Option.some.inj hm]⟩

theorem driveStopped_rest (l : Library) (d : Drive) : ∃ ms, l.driveStopped d
      = { l.setDrive d { l.drive d with state := .stopped, failures := 0 } with picker := { l.picker with moves := ms } }
      ∧ ((l.drive d).unload = false → ms = l.picker.moves) ∧ (l.picker.state = .faulted → ms = l.picker.moves)
      ∧ ∀ m, (l.drive d).unload = true → l.picker.state ≠ .faulted → l.mountedSide d = some m → (∀ x ∈ l.picker.moves, x.drive? ≠ some d) →
        ms = l.picker.moves ++ [.back (slotOf m) (some d) .unload] := by
  have hu : ((l.setDrive d { l.drive d with state := .stopped, failures := 0 }).drive d).unload = (l.drive d).unload := by
    rw [Library.setDrive_drive_same]
  unfold Library.driveStopped
  dsimp only
  rw [hu]
  by_cases h : (l.drive d).unload = true
  · rw [if_pos h]
    obtain ⟨ms, heq, hf, hask⟩ := askUnload_rest (l.setDrive d { l.drive d with state := .stopped, failures := 0 }) d
    exact ⟨ms, heq, fun hn => absurd h (by rw [hn]; decide), hf, fun m _ => hask m⟩
  · rw [if_neg h]
    exact ⟨_, rfl, fun _ => rfl, fun _ => rfl, fun m hn => absurd hn h⟩

theorem exec_stoppedReport {s : State} {d : Drive} (hs : s.env.startUp = none) (h : (s.lib.drive d).state = .spinDown) :
    exec (.stoppedReport d) s = .next (State.react { s.begin with lib := s.begin.lib.driveStopped d } s.begin.lib) := by
  show execStoppedReport d s = _
  unfold execStoppedReport
  rw [State.event_next _ hs, if_pos (show (s.begin.lib.drive d).state = .spinDown from h)]

/-- R119, R108: a LOAD that completes. -/
theorem completeLoad_eq (e : Env) (l : Library) (i : Slot) (f : Face) (d : Drive) : l.completeMove e (.load i f d) = { l with
      picker := { l.picker with state := .idle, record := none, awaitCaddy := false, locations := put l.picker.locations i (.inDrive d f) },
      care := { l.care with patrolDue := true }, out := l.out ++ [.spinUp d],
      drives := put l.drives d { l.drive d with mountTime := e.now, state := .spinUp, limitStart := e.now } } := by
  unfold Library.completeMove Library.sendSpinUp
  dsimp only
  rw [Library.setDrive_drive_same, Library.setDrive_setDrive]
  rfl

theorem exec_moveCompletion {s : State} {m : Move} (hs : s.env.startUp = none) (hm : s.lib.picker.record = some m)
    (hc : s.lib.picker.awaitCaddy = false) (hp : s.lib.picker.state = .moving ∨ s.lib.picker.state = .retry)
    (hx : s.lib.picker.expired ≠ some s.env.now) :
    exec .moveCompletion s = .next (State.react { s.begin with lib := s.begin.lib.completeMove s.env m } s.begin.lib) := by
  have hlate : ¬ s.begin.lib.lateCompletion s.begin.env = true := fun h => hx (beq_iff_eq.mp h)
  have hrun : s.begin.lib.runningMove = some m := (if_pos ⟨hp, hc⟩).trans hm
  show execMoveCompletion s = _
  unfold execMoveCompletion
  rw [State.event_next _ hs, if_neg hlate, hrun]
  rfl

theorem exec_caddyReport {s : State} {i : Slot} {f : Face} {d : Drive} (hs : s.env.startUp = none)
    (hm : s.lib.picker.record = some (.load i f d)) (hc : s.lib.picker.awaitCaddy = true) (b : Bool) :
    exec (.caddyReport d b) s
      = .next (State.react { s.begin with lib := s.begin.lib.caddyAnswer s.env (.load i f d) b } s.begin.lib) := by
  have hwait : s.begin.lib.awaitedLoad d = some (.load i f d) := by
    unfold Library.awaitedLoad
    rw [if_pos (show s.begin.lib.picker.awaitCaddy = true from hc), show s.begin.lib.picker.record = _ from hm]
    exact if_pos rfl
  have hs' : s.begin.env.startUp = none := hs
  show execCaddyReport d b s = _
  unfold execCaddyReport
  dsimp only
  rw [hs', hwait]
  rfl

end Reports

section Moves

variable (e : Env) (l : Library)

/-- R119: a RETURN that completes, before the home slot is looked at. -/
def Library.homed (l : Library) (i : Slot) (od : Option Drive) : Library :=
  { l with
    picker := { l.picker with state := .idle, record := none, awaitCaddy := false, locations := put l.picker.locations i .inSlot }
    drives := match od with
      | some d => put l.drives d (l.drive d).emptied
      | none => l.drives }

theorem completeBack_eq (i : Slot) (od : Option Drive) (q : ReturnReason) :
    l.completeMove e (.back i od q) = if l.seated i then l.homed i od else (l.homed i od).removal e i := by
  cases od <;> rfl

theorem homed_drive (i : Slot) (od : Option Drive) (d : Drive) :
    (l.homed i od).drive d = if od = some d then (l.drive d).emptied else l.drive d := by
  cases od with
  | none => rfl
  | some d' =>
    show look (put l.drives d' (l.drive d').emptied) d = _
    rw [look_put]
    by_cases h : d' = d
    · subst h; rw [if_pos rfl, if_pos rfl]
    · rw [if_neg h, if_neg (fun hd => h (Option.some.inj hd))]; rfl

/-- R119: where a RETURN that completes leaves the locations, the drives, the roles and the picker. -/
theorem completeBack_leaves (i : Slot) (od : Option Drive) (q : ReturnReason) :
    (∀ j, (l.completeMove e (.back i od q)).location j
        = if i = j then (if l.seated i = true then .inSlot else .absent) else l.location j)
      ∧ (∀ d, ∃ v, (l.completeMove e (.back i od q)).drive d
        = { (if od = some d then (l.drive d).emptied else l.drive d) with service := v })
      ∧ (l.completeMove e (.back i od q)).picker.state = .idle ∧ (l.completeMove e (.back i od q)).picker.record = none
      ∧ (l.completeMove e (.back i od q)).picker.moves = l.picker.moves
      ∧ (l.seated i = false → ∀ p, (l.completeMove e (.back i od q)).role p = if slotOf p = i ∧ l.role p = .blank then .unlisted else l.role p)
      ∧ (l.completeMove e (.back i od q)).front = l.front ∧ (l.completeMove e (.back i od q)).books = l.books := by
  rw [completeBack_eq]
  have hloc (x : Location) (v : Vector Location 64) (hv : v = put l.picker.locations i .inSlot) (j : Slot) :
      look (put v i x) j = if i = j then x else l.location j := by
    rw [hv, put_put, look_put]
    rfl
  by_cases hseat : l.seated i = true
  · rw [if_pos hseat]
    refine ⟨fun j => (look_put ..).trans (by rw [if_pos hseat]; rfl), fun d => ⟨_, homed_drive l i od d⟩, rfl, rfl, rfl, fun hn => ?_, rfl, rfl⟩
    rw [hseat] at hn; cases hn
  · rw [if_neg hseat]
    have hrole := removal_role e (l.homed i od) i
    have hdrive := removal_drive e (l.homed i od) i
    obtain ⟨ds, c, ls, b, g, heq⟩ := removal_rest e (l.homed i od) i
    refine ⟨fun j => ?_, fun d => ?_, by rw [heq]; rfl, by rw [heq]; rfl, by rw [heq]; rfl, fun _ => hrole, by rw [heq]; rfl, by rw [heq]; rfl⟩
    · rw [heq, if_neg hseat]
      exact hloc _ _ rfl j
    · obtain ⟨v, hv⟩ := hdrive d
      exact ⟨v, by rw [hv, homed_drive]⟩

end Moves

section Begin

variable {e : Env} {l : Library}

/-- R118: the conditions of a move, its home slot among them. -/
def Library.moveHolds (e : Env) (l : Library) (m : Move) : Bool := l.moveAllowed e m && !l.homeSeated m

theorem tryMoves_cons {m : Move} {rest : List Move} (hh : e.hold = false) (hp : l.picker.state = .idle) (hm : l.picker.moves = m :: rest) (n : Nat) :
    l.tryMoves e (n + 1) = if Library.moveHolds e { l with picker := { l.picker with moves := rest } } m
      then Library.beginMove e { l with picker := { l.picker with moves := rest } } m
      else Library.tryMoves e n (Library.dropMove e { l with picker := { l.picker with moves := rest } } m) := by
  rw [Library.tryMoves, if_neg (by rw [hh, hp]; decide), hm]
  rfl

theorem available_moves (ms : List Move) (i : Side) :
    Library.available e { l with picker := { l.picker with moves := ms } } i = l.available e i := rfl

theorem moveHolds_load (i : Slot) (f : Face) (d : Drive) : l.moveHolds e (.load i f d) = true
    ↔ d.val < e.configured ∧ (l.drive d).state = .empty ∧ l.location i = .inSlot ∧ l.seated i = true ∧ l.available e (sideOf i f) = true := by
  simp [Library.moveHolds, Library.moveAllowed, Library.homeSeated, Env.hasDrive, and_assoc]

theorem moveHolds_back (i : Slot) (d : Drive) (q : ReturnReason) : l.moveHolds e (.back i (some d) q) = true
    ↔ ((l.drive d).state = .stopped ∨ (l.drive d).state = .failed) ∧ l.seated i = false := by
  simp [Library.moveHolds, Library.moveAllowed, Library.homeSeated]

theorem moveHolds_held (i : Slot) (q : ReturnReason) : l.moveHolds e (.back i none q) = true
    ↔ l.location i = .inPicker ∧ l.seated i = false := by
  simp [Library.moveHolds, Library.moveAllowed, Library.homeSeated]

theorem beginMove_leaves (m : Move) :
    (l.beginMove e m).picker = { l.picker with state := .moving, record := some m, limitStart := e.now, awaitCaddy := false }
      ∧ (l.beginMove e m).out = l.out ++ [.move m] ∧ (l.beginMove e m).log = l.log
      ∧ (∀ i f d, m = .load i f d → (l.beginMove e m).drive d = { l.drive d with state := .loading })
      ∧ (∀ i d q, m = .back i (some d) q → (l.drive d).state = .stopped → (l.beginMove e m).drive d = { l.drive d with state := .unloading })
      ∧ (∀ i d q, m = .back i (some d) q → (l.drive d).state = .failed → (l.beginMove e m).drive d = l.drive d) := by
  cases m with
  | load i f d =>
    refine ⟨rfl, rfl, rfl, ?_, ?_, ?_⟩
    · rintro _ _ _ ⟨⟩; exact Library.setDrive_drive_same ..
    · intro _ _ _ h; cases h
    · intro _ _ _ h; cases h
  | back i od q =>
    cases od with
    | none =>
      refine ⟨rfl, rfl, rfl, ?_, ?_, ?_⟩ <;> intro _ _ _ h <;> cases h
    | some d =>
      by_cases hd : (l.drive d).state = .failed
      · have heq : l.beginMove e (.back i (some d) q) = Library.emit { l with picker := { l.picker with
            state := .moving, record := some (.back i (some d) q), limitStart := e.now, awaitCaddy := false } } (.move (.back i (some d) q)) := if_pos hd
        rw [heq]
        refine ⟨rfl, rfl, rfl, ?_, ?_, ?_⟩
        · intro _ _ _ h; cases h
        · rintro _ _ _ ⟨⟩ h; rw [hd] at h; cases h
        · intro _ _ _ _ _; rfl
      · have heq : l.beginMove e (.back i (some d) q) = (Library.emit { l with picker := { l.picker with
            state := .moving, record := some (.back i (some d) q), limitStart := e.now, awaitCaddy := false } } (.move (.back i (some d) q))).setDrive d
              { l.drive d with state := .unloading } := if_neg hd
        rw [heq]
        refine ⟨rfl, rfl, rfl, ?_, ?_, ?_⟩
        · intro _ _ _ h; cases h
        · rintro _ _ _ ⟨⟩ _; exact Library.setDrive_drive_same ..
        · rintro _ _ _ ⟨⟩ h; exact absurd h hd

theorem dropPatrolMount_rest (s : Side) : ∃ p q, l.dropPatrolMount s = { l with scheduler := { l.scheduler with patrolMount := p, decisionDue := q } } := by
  unfold Library.dropPatrolMount
  split
  · exact ⟨_, _, rfl⟩
  · exact ⟨_, _, rfl⟩

theorem dropPatrolLoad_rest (m : Move) : ∃ p q, l.dropPatrolLoad m = { l with scheduler := { l.scheduler with patrolMount := p, decisionDue := q } } := by
  cases m with
  | load => exact dropPatrolMount_rest _
  | back => exact ⟨_, _, rfl⟩

theorem dropPatrolLoads_rest (ms : List Move) (l : Library) :
    ∃ p q, ms.foldl Library.dropPatrolLoad l = { l with scheduler := { l.scheduler with patrolMount := p, decisionDue := q } } := by
  induction ms generalizing l with
  | nil => exact ⟨_, _, rfl⟩
  | cons m ms ih =>
    obtain ⟨p, q, h⟩ := ih (l.dropPatrolLoad m)
    obtain ⟨p', q', h'⟩ := dropPatrolLoad_rest (l := l) m
    exact ⟨p, q, by rw [List.foldl_cons, h, h']⟩

/-- R121, R122: what the picker's fault leaves. -/
theorem faultPicker_rest (l : Library) : ∃ p, l.faultPicker = { l with
      scheduler := { l.scheduler with patrolMount := p, decisionDue := true },
      picker := { l.picker with state := .faulted, moves := l.picker.moves.filter fun m => !m.byScheduler, awaitCaddy := false } } := by
  obtain ⟨p, q, h⟩ := dropPatrolLoads_rest l.picker.moves l
  refine ⟨p, ?_⟩
  unfold Library.faultPicker
  rw [h]
  rfl

theorem faultMove_rest (e : Env) (l : Library) (m : Move) : l.faultMove e m = { l with log := (l.faultMove e m).log } := rfl

theorem faultMove_first (e : Env) (l : Library) (m : Move) (h : l.log.first = none) (hm : KindSet.has e.mask .pickerFault = false) :
    (l.faultMove e m).log.first = some ⟨.pickerFault, none, none, none, m.drive?, some m.slot, none, e.day⟩ := by
  simp [Library.faultMove, Library.fault, FaultLog.record, FaultRecord.of, h, hm]

/-- R118: a LOAD that is dropped. -/
theorem dropLoad_leaves (i : Slot) (f : Face) (d : Drive) :
    (l.dropMove e (.load i f d)).picker = l.picker ∧ (l.dropMove e (.load i f d)).out = l.out
      ∧ (l.dropMove e (.load i f d)).scheduler.decisionDue = true ∧ (l.dropMove e (.load i f d)).log = l.log := by
  obtain ⟨p, q, h⟩ := dropPatrolLoad_rest (l := l) (.load i f d)
  have heq : l.dropMove e (.load i f d) = (l.dropPatrolLoad (.load i f d)).callDecision := rfl
  rw [heq, h]
  exact ⟨rfl, rfl, rfl, rfl⟩

/-- R118, R111: the RETURN of a drive's cartridge that is dropped. -/
theorem dropBack_leaves (i : Slot) (d : Drive) (q : ReturnReason) :
    (l.dropMove e (.back i (some d) q)).picker = l.picker ∧ (l.dropMove e (.back i (some d) q)).out = l.out
      ∧ ((l.dropMove e (.back i (some d) q)).drive d).state = (l.drive d).state
      ∧ (l.seated i = true → ((l.dropMove e (.back i (some d) q)).drive d).askAgain = some q
        ∧ (l.dropMove e (.back i (some d) q)).log = (l.faultMove e (.back i (some d) q)).log) := by
  have heq : l.dropMove e (.back i (some d) q) = (if l.seated i then l.faultMove e (.back i (some d) q) else l).setDrive d
      { (if l.seated i then l.faultMove e (.back i (some d) q) else l).drive d with 
        unload := false,
        askAgain := (if l.seated i then some q else ((if l.seated i then l.faultMove e (.back i (some d) q) else l).drive d).askAgain) } := rfl
  rw [heq]
  by_cases h : l.seated i = true
  · simp only [h, if_true]
    exact ⟨rfl, rfl, by rw [Library.setDrive_drive_same]; rfl, fun _ => ⟨by rw [Library.setDrive_drive_same], rfl⟩⟩
  · simp only [h]
    exact ⟨rfl, rfl, by rw [Library.setDrive_drive_same]; rfl, fun hn => by cases hn⟩

/-- R122, R123: the RETURN of a held cartridge that is dropped. -/
theorem dropHeld_eq (i : Slot) (q : ReturnReason) :
    l.dropMove e (.back i none q) = if l.seated i then (l.faultMove e (.back i none q)).faultPicker else l := by
  have heq : l.dropMove e (.back i none q) = if l.seated i then (if l.seated i then l.faultMove e (.back i none q) else l).faultPicker
    else (if l.seated i then l.faultMove e (.back i none q) else l) := rfl
  rw [heq]
  by_cases h : l.seated i = true
  · simp only [h, if_true]
  · simp only [h]; rfl

end Begin

end Sys2Proof.Machine
end

section
-- One declaration after the other: the stacks of the threads that wait for each other count against the check's memory limit.
set_option Elab.async false
namespace Sys2Proof.Machine

section Reports

variable {s : State}

theorem readyReport_ends (d : Drive) (hs : s.env.startUp = none) (h : (s.lib.drive d).state = .spinUp) :
    let a := s.begin.lib.driveReady s.env d
    ∃ u, exec (.readyReport d) s = .next u ∧ Reacted s u s.env s.fee a
      ∧ (∀ d', d' ≠ d → a.drive d' = s.lib.drive d')
      ∧ ((s.lib.drive d).unload = false → a.drive d = { s.lib.drive d with failures := 0, lastUse := s.env.now, state := .ready })
      ∧ ((s.lib.drive d).unload = true → (u.lib.drive d).state = .spinDown ∧ ∃ os, u.lib.out = .spinDown d :: os)
      ∧ (u.lib.drive d).failures = 0 ∧ (u.lib.drive d).lastUse = s.env.now
      ∧ a.front = s.lib.front ∧ a.books = s.lib.books ∧ a.roles = s.lib.roles ∧ a.picker = s.lib.picker ∧ a.log = s.lib.log
      ∧ a.care = { s.lib.care with patrolDue := true } := by
  intro a
  obtain ⟨hother, hd, hout, hfront, hbooks, hroles, hpicker, hlog, hcare⟩ := driveReady_leaves s.env s.begin.lib d
  rw [State.begin_drive] at hd hout
  have hr : Reacted s (State.react { s.begin with lib := a } s.begin.lib) s.env s.fee a := State.react_reacted rfl
  refine ⟨_, exec_readyReport hs h, hr, hother, fun hu => ?_, fun hu => ⟨?_, ?_⟩, ?_, ?_, hfront, hbooks, hroles, hpicker, hlog, hcare⟩
  · rw [hd, hu]; rfl
  · exact ((hr.lib.drive d).state (by rw [hd, hu]; rfl)).trans (by rw [hd, hu]; rfl)
  · obtain ⟨os, hos⟩ := hr.lib.out
    exact ⟨os, by rw [hos, hout, hu]; rfl⟩
  · exact (hr.lib.drive d).failures.trans (by rw [hd])
  · exact (hr.lib.drive d).lastUse.trans (by rw [hd])

theorem stoppedReport_ends (d : Drive) (hs : s.env.startUp = none) (h : (s.lib.drive d).state = .spinDown) :
    let a := s.begin.lib.driveStopped d
    ∃ u, exec (.stoppedReport d) s = .next u ∧ Reacted s u s.env s.fee a
      ∧ a.drive d = { s.lib.drive d with state := .stopped, failures := 0 } ∧ (∀ d', d' ≠ d → a.drive d' = s.lib.drive d')
      ∧ ((s.lib.drive d).unload = false → a.picker = s.lib.picker)
      ∧ (s.lib.picker.state = .faulted → a.picker = s.lib.picker)
      ∧ (∀ m, (s.lib.drive d).unload = true → s.lib.picker.state ≠ .faulted → s.lib.mountedSide d = some m →
        (∀ x ∈ s.lib.picker.moves, x.drive? ≠ some d) →
        a.picker.moves = s.lib.picker.moves ++ [.back (slotOf m) (some d) .unload])
      ∧ (u.lib.drive d).failures = 0
      ∧ a.front = s.lib.front ∧ a.books = s.lib.books ∧ a.roles = s.lib.roles ∧ a.care = s.lib.care ∧ a.log = s.lib.log := by
  intro a
  obtain ⟨ms, heq, hkept, hfaulted, hasked⟩ := driveStopped_rest s.begin.lib d
  have ha : a = _ := heq
  have hd : a.drive d = { s.lib.drive d with state := .stopped, failures := 0 } := by
    rw [ha]
    exact Library.setDrive_drive_same ..
  have hpicker : a.picker = { s.lib.picker with moves := ms } := by
    rw [ha]
    rfl
  have hr : Reacted s (State.react { s.begin with lib := a } s.begin.lib) s.env s.fee a := State.react_reacted rfl
  refine ⟨_, exec_stoppedReport hs h, hr, hd, fun d' hd' => ?_, fun hu => by rw [hpicker, hkept hu]; rfl, fun hf => by rw [hpicker, hfaulted hf]; rfl,
    fun m hu hf hm hall => by rw [hpicker]; exact hasked m hu hf hm hall, (hr.lib.drive d).failures.trans (by rw [hd]), ?_, ?_, ?_, ?_, ?_⟩
  · rw [ha]
    exact (Library.setDrive_drive ..).trans (if_neg (Ne.symm hd'))
  all_goals
    rw [ha]
    rfl

theorem loadCompletes (i : Slot) (f : Face) (d : Drive) (c : Instr) (hs : s.env.startUp = none) (hm : s.lib.picker.record = some (.load i f d))
    (hc : (c = .moveCompletion ∧ s.lib.picker.awaitCaddy = false ∧ (s.lib.picker.state = .moving ∨ s.lib.picker.state = .retry)
        ∧ s.lib.picker.expired ≠ some s.env.now) ∨ (c = .caddyReport d true ∧ s.lib.picker.awaitCaddy = true)) :
    exec c s = .next (State.react { s.begin with lib := s.begin.lib.completeMove s.env (.load i f d) } s.begin.lib) := by
  rcases hc with ⟨rfl, hw, hp, hx⟩ | ⟨rfl, hw⟩
  · exact exec_moveCompletion hs hm hw hp hx
  · exact exec_caddyReport hs hm hw true

theorem moveTried (e : Env) (l : Library) (m : Move) (rest : List Move) (n : Nat) (hh : e.hold = false) (hp : l.picker.state = .idle)
    (hm : l.picker.moves = m :: rest) :
    let r := { l with picker := { l.picker with moves := rest } }
    (r.moveHolds e m = true → l.tryMoves e (n + 1) = r.beginMove e m)
      ∧ (¬ r.moveHolds e m = true → l.tryMoves e (n + 1) = (r.dropMove e m).tryMoves e n) := by
  have h := tryMoves_cons hh hp hm n
  exact ⟨fun hb => h.trans (if_pos hb), fun hb => h.trans (if_neg hb)⟩

/-- R118: what the conditions of a move say. -/
theorem moveHolds_iff (e : Env) (l : Library) (m : Move) : l.moveHolds e m = true ↔ match m with
    | .load i f d => d.val < e.configured ∧ (l.drive d).state = .empty ∧ l.location i = .inSlot ∧ l.seated i = true
      ∧ l.available e (sideOf i f) = true
    | .back i (some d) _ => ((l.drive d).state = .stopped ∨ (l.drive d).state = .failed) ∧ l.seated i = false
    | .back i none _ => l.location i = .inPicker ∧ l.seated i = false := by
  cases m with
  | load i f d => exact moveHolds_load i f d
  | back i od q =>
    cases od with
    | none => exact moveHolds_held i q
    | some d => exact moveHolds_back i d q

/-- R118: what the drop of a move leaves. -/
theorem dropMove_leaves (e : Env) (l : Library) (m : Move) :
    (l.dropMove e m).picker.locations = l.picker.locations ∧ (l.dropMove e m).out = l.out
      ∧ (∀ i f d, m = .load i f d → (l.dropMove e m).scheduler.decisionDue = true ∧ (l.dropMove e m).log = l.log)
      ∧ (∀ i d q, m = .back i (some d) q → ((l.dropMove e m).drive d).state = (l.drive d).state
        ∧ (l.seated i = true → ((l.dropMove e m).drive d).askAgain = some q))
      ∧ (∀ i q, m = .back i none q → l.seated i = true → (l.dropMove e m).picker.state = .faulted)
      ∧ (∀ i od q, m = .back i od q → l.seated i = true → (l.dropMove e m).log = (l.faultMove e m).log) := by
  cases m with
  | load i f d =>
    obtain ⟨h1, h2, h3, h4⟩ := dropLoad_leaves (e := e) (l := l) i f d
    refine ⟨by rw [h1], h2, fun _ _ _ _ => ⟨h3, h4⟩, ?_, ?_, ?_⟩
    · intro _ _ _ h; cases h
    · intro _ _ h; cases h
    · intro _ _ _ h; cases h
  | back i od q =>
    cases od with
    | none =>
      rw [dropHeld_eq]
      by_cases h : l.seated i = true
      · obtain ⟨p, hp⟩ := faultPicker_rest (l.faultMove e (.back i none q))
        rw [if_pos h, hp]
        refine ⟨rfl, rfl, ?_, ?_, fun _ _ _ _ => rfl, fun _ _ _ _ _ => rfl⟩
        · intro _ _ _ h; cases h
        · intro _ _ _ h; cases h
      · rw [if_neg h]
        refine ⟨rfl, rfl, ?_, ?_, ?_, ?_⟩
        · intro _ _ _ h; cases h
        · intro _ _ _ h; cases h
        · rintro _ _ ⟨⟩ hn; exact absurd hn h
        · rintro _ _ _ ⟨⟩ hn; exact absurd hn h
    | some d =>
      obtain ⟨h1, h2, h3, h4⟩ := dropBack_leaves (e := e) (l := l) i d q
      refine ⟨by rw [h1], h2, ?_, ?_, ?_, ?_⟩
      · intro _ _ _ h; cases h
      · rintro _ _ _ ⟨⟩; exact ⟨h3, fun hn => (h4 hn).1⟩
      · intro _ _ h; cases h
      · rintro _ _ _ ⟨⟩ hn; exact (h4 hn).2

/-- Settles O26: each report's effect is what its definition leaves; of the head of the move list, its conditions decide. -/
theorem reportsEndSpinsAndMoves : Obligations.ReportsEndSpinsAndMoves := by
  refine ⟨fun s d hs h => readyReport_ends d hs h, fun s d hs h => stoppedReport_ends d hs h, fun s i f d c hs hm hc => ?_,
    fun s i od q hs hm hw hp hx => ?_, fun e l m rest n hh hp hm => ?_⟩
  · intro a
    have ha : a = _ := completeLoad_eq s.env s.begin.lib i f d
    have hr : Reacted s (State.react { s.begin with lib := a } s.begin.lib) s.env s.fee a := State.react_reacted rfl
    obtain ⟨os, hos⟩ := hr.lib.out
    have hd (j : Drive) : a.drive j = if d = j then { s.lib.drive d with mountTime := s.env.now, state := .spinUp, limitStart := s.env.now }
        else s.lib.drive j := by rw [ha]; exact look_put ..
    have hloc (j : Slot) : (State.react { s.begin with lib := a } s.begin.lib).lib.location j = if i = j then .inDrive d f else s.lib.location j := by
      have hl : a.location j = if i = j then .inDrive d f else s.lib.location j := by rw [ha]; exact look_put ..
      exact (congrArg (fun v : Vector Location 64 => look v j) hr.lib.locations).trans hl
    have hk := hr.lib.drive d
    have hfiling := fun b => (hr.lib.filing b).trans (show (a.book b).filing = (s.lib.book b).filing by rw [ha]; rfl)
    have hlog : a.log = s.lib.log := by rw [ha]; rfl
    have hfront : a.front = s.lib.front := by rw [ha]; rfl
    refine ⟨_, os, loadCompletes i f d c hs hm hc, hr, by rw [ha], by rw [ha], by rw [ha]; rfl, (hloc i).trans (if_pos rfl),
      fun j hj => (hloc j).trans (if_neg (Ne.symm hj)), (hk.state (by rw [hd, if_pos rfl]; rfl)).trans (by rw [hd, if_pos rfl]),
      hk.mountTime.trans (by rw [hd, if_pos rfl]), by rw [hos, ha]; rfl, fun d' hd' => ?_, fun t x hx => hr.lib.entry t x ?_, hfiling,
      fun r hr' => hr.lib.first r (by rw [hlog]; exact hr')⟩
    · have := hr.lib.drive d'
      rwa [hd, if_neg (Ne.symm hd')] at this
    · exact (congrArg (fun v : Front => look v.table t) hfront).trans hx
  · intro a
    have hr : Reacted s (State.react { s.begin with lib := a } s.begin.lib) s.env s.fee a := State.react_reacted rfl
    obtain ⟨hloc, hdrive, hstate, hrec, hmoves, hrole, hfront, hbooks⟩ := completeBack_leaves s.env s.begin.lib i od q
    have hloc' (j : Slot) : (State.react { s.begin with lib := a } s.begin.lib).lib.location j
        = if i = j then (if s.lib.seated i = true then .inSlot else .absent) else s.lib.location j :=
      (congrArg (fun v : Vector Location 64 => look v j) hr.lib.locations).trans (hloc j)
    have hd (d : Drive) (h : od = some d) : (a.drive d).state = (if (s.lib.drive d).state = .failed then .failed else .empty)
        ∧ (a.drive d).unload = false := by
      obtain ⟨v, hv⟩ := hdrive d
      rw [if_pos h] at hv
      rw [show a.drive d = _ from hv]
      exact ⟨rfl, rfl⟩
    have hseated (h : s.lib.seated i = true) : a = s.begin.lib.homed i od := (completeBack_eq ..).trans (if_pos h)
    refine ⟨_, exec_moveCompletion hs hm hw hp hx, hr, (hloc' i).trans (if_pos rfl), fun j hj => (hloc' j).trans (if_neg (Ne.symm hj)),
      hstate, hrec, hmoves, fun d h => ⟨(hd d h).1, (hd d h).2, fun hf => ?_⟩, fun h => ⟨fun d hd' => ?_, ?_, ?_, ?_⟩,
      fun h p hp hb => (hrole h p).trans (if_pos ⟨hp, hb⟩), hfront, hbooks⟩
    · have hf' : (a.drive d).state = .failed := (hd d h).1.trans (if_pos hf)
      exact ((hr.lib.drive d).state (by rw [hf']; rfl)).trans hf'
    · rw [hseated h, homed_drive, if_neg hd']; rfl
    all_goals rw [hseated h]; rfl
  · intro r a holds
    obtain ⟨htake, hdrop⟩ := moveTried e l m rest n hh hp hm
    have hholds : r.moveHolds e m = true ↔ holds := by
      refine (moveHolds_iff e r m).trans ?_
      cases m with
      | load => exact Iff.rfl
      | back i od q => cases od <;> exact Iff.rfl
    refine ⟨fun h => ?_, fun h => ?_⟩
    · have ha : a = r.beginMove e m := htake (hholds.mpr h)
      obtain ⟨h1, h2, h3, h4, h5, h6⟩ := beginMove_leaves (e := e) (l := r) m
      rw [ha]
      exact ⟨h1, h2, h3, h4, h5, h6⟩
    · have hnot : ¬ r.moveHolds e m = true := fun hb => h (hholds.mp hb)
      obtain ⟨hloc, hout, hload, hback, hheld, hlog⟩ := dropMove_leaves e r m
      have hseat (i : Slot) (od : Option Drive) (q : ReturnReason) (hmq : m = .back i od q)
          (hd : ∀ d, od = some d → (l.drive d).state = .stopped ∨ (l.drive d).state = .failed) (hn : od = none → l.location i = .inPicker) :
          r.seated i = true := by
        by_contra hs
        have hs : r.seated i = false := by simpa using hs
        subst hmq
        refine hnot ((moveHolds_iff e r _).mpr ?_)
        cases od with
        | none => exact ⟨hn rfl, hs⟩
        | some d => exact ⟨hd d rfl, hs⟩
      refine ⟨hdrop hnot, hloc, hout, hload, fun i d q hmq hd => ?_, fun i q hmq hl => ?_, fun i od q hmq hd hl hf hk => ?_⟩
      · have hs := hseat i (some d) q hmq (fun d' h' => Option.some.inj h' ▸ hd) nofun
        exact ⟨(hback i d q hmq).1, (hback i d q hmq).2 hs⟩
      · exact hheld i q hmq (hseat i none q hmq nofun fun _ => hl)
      · have hs := hseat i od q hmq hd hl
        rw [hlog i od q hmq hs, faultMove_first e r m hf hk, hmq]
        rfl

end Reports

end Sys2Proof.Machine
end

section
-- One declaration after the other: the stacks of the threads that wait for each other count against the check's memory limit.
set_option Elab.async false
namespace Sys2Proof.Machine

/-! # Failures of a move and the picker clear -/

section Attempt

variable {s : State} {m : Move} {c : Instr} {grip caddy : Bool}

/-- The time of a failed attempt: the deadline of the move limit, or the time of the picker's report. -/
def State.attemptEnv (s : State) (c : Instr) (grip caddy : Bool) : Env :=
  if c = .moveLimitExpiry grip caddy then { s.env with now := max s.env.now (s.lib.picker.limitStart + 30) } else s.env

/-- The library in which an attempt fails. -/
def State.attemptLib (s : State) (c : Instr) (grip caddy : Bool) : Library :=
  if c = .moveLimitExpiry grip caddy then
    { s.lib with out := [.pickerStop], picker := { s.lib.picker with expired := some (s.attemptEnv c grip caddy).now } }
  else s.begin.lib

theorem State.attempt_same (s : State) (c : Instr) (grip caddy : Bool) :
    ∃ n os x, s.attemptEnv c grip caddy = { s.env with now := n }
      ∧ s.attemptLib c grip caddy = { s.lib with out := os, picker := { s.lib.picker with expired := x } }
      ∧ (c = .moveLimitExpiry grip caddy → os = [.pickerStop]) := by
  unfold State.attemptLib State.attemptEnv
  by_cases h : c = .moveLimitExpiry grip caddy
  · rw [if_pos h, if_pos h]
    exact ⟨_, _, _, rfl, rfl, fun _ => rfl⟩
  · rw [if_neg h, if_neg h]
    exact ⟨s.env.now, [], s.lib.picker.expired, rfl, rfl, fun hc => absurd hc h⟩

/-- R120, R121: the event of a failed attempt. -/
theorem exec_attemptFails (hs : s.env.startUp = none) (hm : s.lib.picker.record = some m) (hw : s.lib.picker.awaitCaddy = false)
    (hp : s.lib.picker.state = .moving ∨ s.lib.picker.state = .retry)
    (hc : c = .moveLimitExpiry grip caddy ∨ c = .pickerFaultReport grip caddy) :
    exec c s = .next (State.react { s.begin with
      env := s.attemptEnv c grip caddy
      lib := (s.attemptLib c grip caddy).attemptFailed (s.attemptEnv c grip caddy) grip caddy (c == .moveLimitExpiry grip caddy) } s.begin.lib) := by
  have hrun : s.begin.lib.runningMove = some m := (if_pos ⟨hp, hw⟩).trans hm
  rcases hc with rfl | rfl
  · have he : s.attemptEnv (.moveLimitExpiry grip caddy) grip caddy = { s.env with now := max s.env.now (s.lib.picker.limitStart + 30) } := if_pos rfl
    have hl : s.attemptLib (.moveLimitExpiry grip caddy) grip caddy
        = { s.lib with out := [.pickerStop], picker := { s.lib.picker with expired := some (max s.env.now (s.lib.picker.limitStart + 30)) } } :=
      (if_pos rfl).trans (by rw [he])
    have hx : (Instr.moveLimitExpiry grip caddy == .moveLimitExpiry grip caddy) = true := beq_self_eq_true _
    rw [hx, he, hl]
    show execMoveLimitExpiry grip caddy s = _
    unfold execMoveLimitExpiry
    rw [State.event_next _ hs, hrun]
    rfl
  · have hne : Instr.pickerFaultReport grip caddy ≠ .moveLimitExpiry grip caddy := nofun
    have hx : (Instr.pickerFaultReport grip caddy == .moveLimitExpiry grip caddy) = false := beq_eq_false_iff_ne.mpr hne
    rw [hx, show s.attemptEnv (.pickerFaultReport grip caddy) grip caddy = s.env from if_neg hne,
      show s.attemptLib (.pickerFaultReport grip caddy) grip caddy = s.begin.lib from if_neg hne]
    show execPickerFaultReport grip caddy s = _
    unfold execPickerFaultReport
    rw [State.event_next _ hs, hrun]
    rfl

/-- R114: which attempts end a failure return at once. -/
theorem attemptFailed_eq {e : Env} {l : Library} (hm : l.picker.record = some m) (hw : l.picker.awaitCaddy = false) (expired : Bool)
    (hf : (∃ i od, m = .back i od .failure) → grip = true ∨ expired = true) :
    (l.picker.state = .moving → l.attemptFailed e grip caddy expired = l.retryMove e m)
      ∧ (l.picker.state = .retry → l.attemptFailed e grip caddy expired = l.secondFailure e m grip caddy) := by
  have hno : ¬ (m.isFailureReturn && !grip && !expired) = true := by
    intro h
    cases m with
    | load => exact absurd h (by simp [Move.isFailureReturn])
    | back i od q =>
      cases q with
      | failure => rcases hf ⟨i, od, rfl⟩ with rfl | rfl <;> simp at h
      | unload | held | startUp => exact absurd h (by simp [Move.isFailureReturn])
  unfold Library.attemptFailed
  rw [hm]
  dsimp only
  rw [if_neg (by rw [hw]; decide), if_neg hno]
  exact ⟨fun h => by rw [h], fun h => by rw [h]⟩

theorem retryLoad_eq (e : Env) (l : Library) (i : Slot) (f : Face) (d : Drive) : l.retryMove e (.load i f d)
    = { l with picker := { l.picker with state := .retry, awaitCaddy := true }, out := l.out ++ [.askCaddy d] } := rfl

theorem retryBack_eq (e : Env) (l : Library) (i : Slot) (od : Option Drive) (q : ReturnReason) : l.retryMove e (.back i od q)
    = if l.seated i then l.homed i od else { l with
      picker := { l.picker with state := .retry, limitStart := e.now, awaitCaddy := false }, out := l.out ++ [.move (.back i od q)] } := by
  by_cases h : l.seated i = true
  · rw [if_pos h]
    have hseat : ({ l with picker := { l.picker with state := .retry } } : Library).seated i = true := h
    exact (if_pos hseat).trans ((completeBack_eq ..).trans (if_pos hseat))
  · rw [if_neg h]
    exact if_neg h

end Attempt

section Second

variable (e : Env) (l : Library) {m : Move} {grip caddy : Bool}

/-- R119: a cartridge has left the drive that it stood in. -/
def Library.leaveDrive (l : Library) (od : Option Drive) : Library := match od with
  | some d => l.setDrive d (l.drive d).emptied
  | none => l

theorem leaveDrive_drive (od : Option Drive) (d : Drive) :
    (l.leaveDrive od).drive d = if od = some d then (l.drive d).emptied else l.drive d := by
  cases od with
  | none => rfl
  | some d' => rw [Library.leaveDrive, Library.setDrive_drive]; grind

theorem leaveDrive_rest (od : Option Drive) : l.leaveDrive od = { l with drives := (l.leaveDrive od).drives } := by
  cases od <;> rfl

theorem settleFailed_load (i : Slot) (f : Face) (d : Drive) : l.settleFailed e (.load i f d) grip caddy
    = if grip then (l.setLocation i .inPicker).setDrive d { l.drive d with state := .empty }
      else if caddy then ((l.setLocation i (.inDrive d f)).callPatrol.setDrive d { l.drive d with mountTime := e.now }).sendSpinUp e d
      else l.setDrive d { l.drive d with state := .empty } := rfl

theorem settleFailed_back (i : Slot) (od : Option Drive) (q : ReturnReason) : l.settleFailed e (.back i od q) grip caddy
    = if grip then (l.setLocation i .inPicker).leaveDrive od
      else if l.seated i then (l.setLocation i .inSlot).leaveDrive od
      else match od with
        | some d => if (l.drive d).state = .failed then l else l.setDrive d { l.drive d with state := .stopped }
        | none => l := rfl

/-- R121: what settling the second failure of a move leaves alone. -/
theorem settleFailed_rest : ∃ ls ds p os, l.settleFailed e m grip caddy = { l with
      picker := { l.picker with locations := ls }, drives := ds, care := { l.care with patrolDue := p }, out := os }
    ∧ (∀ j, j ≠ m.slot → look ls j = l.location j) ∧ ∀ d, m.drive? ≠ some d → look ds d = l.drive d := by
  have hput (i : Slot) (x : Location) : ∀ j, j ≠ i → look (put l.picker.locations i x) j = l.location j :=
    fun j hj => look_put_ne _ _ (Ne.symm hj)
  have hdrive (d : Drive) (x : DriveRecord) : ∀ j, some d ≠ some j → look (put l.drives d x) j = l.drive j :=
    fun j hj => look_put_ne _ _ fun h => hj (congrArg some h)
  have hleave (k : Library) (hk : k.drives = l.drives) (od : Option Drive) : ∀ j, od ≠ some j → look (k.leaveDrive od).drives j = l.drive j :=
    fun j hj => (leaveDrive_drive k od j).trans ((if_neg hj).trans (congrArg (fun v : Vector DriveRecord 4 => look v j) hk))
  cases m with
  | load i f d =>
    rw [settleFailed_load]
    split
    · exact ⟨_, _, _, _, rfl, hput i _, hdrive d _⟩
    · split
      · refine ⟨_, _, _, _, rfl, hput i _, fun j hj => ?_⟩
        refine (Library.setDrive_drive ..).trans ((if_neg fun h => hj (congrArg some h)).trans ?_)
        exact (Library.setDrive_drive ..).trans (if_neg fun h => hj (congrArg some h))
      · exact ⟨_, _, _, _, rfl, fun _ _ => rfl, hdrive d _⟩
  | back i od q =>
    rw [settleFailed_back]
    split
    · exact ⟨put l.picker.locations i .inPicker, _, l.care.patrolDue, l.out, leaveDrive_rest _ od, hput i _, hleave (l.setLocation i _) rfl od⟩
    · split
      · exact ⟨put l.picker.locations i .inSlot, _, l.care.patrolDue, l.out, leaveDrive_rest _ od, hput i _, hleave (l.setLocation i _) rfl od⟩
      · cases od with
        | none => exact ⟨_, _, l.care.patrolDue, _, rfl, fun _ _ => rfl, fun _ _ => rfl⟩
        | some d =>
          dsimp only
          split
          · exact ⟨_, _, l.care.patrolDue, _, rfl, fun _ _ => rfl, fun _ _ => rfl⟩
          · exact ⟨_, _, l.care.patrolDue, _, rfl, fun _ _ => rfl, hdrive d _⟩

/-- R121: where the second failure of a LOAD leaves the cartridge and the drive. -/
theorem settleFailed_load_leaves (i : Slot) (f : Face) (d : Drive) :
    (grip = true → (l.settleFailed e (.load i f d) grip caddy).location i = .inPicker
        ∧ ((l.settleFailed e (.load i f d) grip caddy).drive d).state = .empty)
      ∧ (grip = false → caddy = true → (l.settleFailed e (.load i f d) grip caddy).location i = .inDrive d f
        ∧ ((l.settleFailed e (.load i f d) grip caddy).drive d).state = .spinUp)
      ∧ (grip = false → caddy = false → (l.settleFailed e (.load i f d) grip caddy).location i = l.location i
        ∧ ((l.settleFailed e (.load i f d) grip caddy).drive d).state = .empty) := by
  rw [settleFailed_load]
  refine ⟨?_, ?_, ?_⟩
  · rintro rfl
    exact ⟨look_put_same .., by rw [if_pos rfl, Library.setDrive_drive_same]⟩
  · rintro rfl rfl
    exact ⟨look_put_same .., by rw [if_neg (by decide), if_pos rfl]; exact congrArg DriveRecord.state (Library.setDrive_drive_same ..)⟩
  · rintro rfl rfl
    exact ⟨rfl, by rw [if_neg (by decide), if_neg (by decide), Library.setDrive_drive_same]⟩

/-- R121: where the second failure of a RETURN leaves the cartridge and the drive. -/
theorem settleFailed_back_leaves (i : Slot) (od : Option Drive) (q : ReturnReason) :
    (grip = true → (l.settleFailed e (.back i od q) grip caddy).location i = .inPicker)
      ∧ (grip = false → l.seated i = true → (l.settleFailed e (.back i od q) grip caddy).location i = .inSlot)
      ∧ ((grip = true ∨ l.seated i = true) → ∀ d, od = some d →
        ((l.settleFailed e (.back i od q) grip caddy).drive d).state = (if (l.drive d).state = .failed then .failed else .empty))
      ∧ (grip = false → l.seated i = false → (l.settleFailed e (.back i od q) grip caddy).location i = l.location i
        ∧ ∀ d, od = some d →
          ((l.settleFailed e (.back i od q) grip caddy).drive d).state = (if (l.drive d).state = .failed then .failed else .stopped)) := by
  have hloc (k : Library) : (k.leaveDrive od).location i = k.location i := by rw [leaveDrive_rest]; rfl
  have hdrive (k : Library) (d : Drive) (h : od = some d) :
      ((k.leaveDrive od).drive d).state = if (k.drive d).state = .failed then .failed else .empty := by
    rw [leaveDrive_drive, if_pos h]; rfl
  rw [settleFailed_back]
  refine ⟨?_, ?_, ?_, ?_⟩
  · rintro rfl
    rw [if_pos rfl, hloc]
    exact look_put_same ..
  · rintro rfl hseat
    rw [if_neg (by decide), if_pos hseat, hloc]
    exact look_put_same ..
  · intro h d hd
    by_cases hg : grip = true
    · rw [if_pos hg, hdrive _ d hd]; rfl
    · rw [if_neg hg, if_pos (h.resolve_left hg), hdrive _ d hd]; rfl
  · rintro rfl hseat
    rw [if_neg (by decide), if_neg (by rw [hseat]; decide)]
    cases od with
    | none => exact ⟨rfl, fun d h => nomatch h⟩
    | some d =>
      dsimp only
      by_cases hf : (l.drive d).state = .failed
      · rw [if_pos hf]
        refine ⟨rfl, fun d' h => ?_⟩
        obtain rfl := Option.some.inj h
        rw [if_pos hf, hf]
      · rw [if_neg hf]
        refine ⟨rfl, fun d' h => ?_⟩
        obtain rfl := Option.some.inj h
        rw [if_neg hf, Library.setDrive_drive_same]

/-- R121: what the second failure does beyond where it settles the cartridge. -/
theorem secondFailure_rest (m : Move) : ∃ p, l.secondFailure e m grip caddy = { l.settleFailed e m grip caddy with
      scheduler := { (l.settleFailed e m grip caddy).scheduler with patrolMount := p, decisionDue := true },
      picker := { (l.settleFailed e m grip caddy).picker with
        record := none, state := .faulted, awaitCaddy := false, moves := (l.settleFailed e m grip caddy).picker.moves.filter fun x => !x.byScheduler },
      log := ((l.settleFailed e m grip caddy).faultMove e m).log } := by
  unfold Library.secondFailure
  dsimp only
  generalize l.settleFailed e m grip caddy = a
  obtain ⟨p, q, h⟩ := dropPatrolLoad_rest (l := { a with picker := { a.picker with record := none } }) m
  obtain ⟨r, hr⟩ := faultPicker_rest ((Library.dropPatrolLoad { a with picker := { a.picker with record := none } } m).faultMove e m)
  refine ⟨r, ?_⟩
  rw [hr, h]
  rfl

end Second

section Clear

/-- R111, R113: what the asking of a RETURN adds to the move list. -/
theorem askReturn_adds (l : Library) (d : Drive) (q : ReturnReason) : ∃ ms, l.askReturn d q
      = { l with picker := { l.picker with moves := l.picker.moves ++ ms } }
    ∧ (∀ m ∈ ms, ∃ i, l.mountedSide d = some i ∧ m = .back (slotOf i) (some d) q)
    ∧ (∀ i, l.mountedSide d = some i → ∃ m ∈ l.picker.moves ++ ms, m.drive? = some d ∧ m.byScheduler = false)
    ∧ (∀ i, l.mountedSide d = some i → (∀ m ∈ l.picker.moves, m.drive? = some d → m.byScheduler = true) →
      ms = [.back (slotOf i) (some d) q]) := by
  unfold Library.askReturn
  cases hside : l.mountedSide d with
  | none =>
    refine ⟨[], ?_, nofun, nofun, nofun⟩
    simp
  | some i =>
    dsimp only
    split
    next hany =>
      obtain ⟨x, hx, hxd⟩ := List.any_eq_true.mp hany
      rw [Bool.and_eq_true, beq_iff_eq, Bool.not_eq_true'] at hxd
      refine ⟨[], ?_, nofun, fun _ _ => ⟨x, by rwa [List.append_nil], hxd⟩, fun _ _ hall => ?_⟩
      · rw [List.append_nil]
      · exact absurd (hall x hx hxd.1) (by rw [hxd.2]; decide)
    next =>
      refine ⟨[.back (slotOf i) (some d) q], rfl, fun m hm => ⟨i, rfl, List.mem_singleton.mp hm⟩,
        fun _ _ => ⟨_, List.mem_append_right _ (List.mem_singleton_self _), rfl, rfl⟩, fun j hj _ => ?_⟩
      rw [Option.some.inj hj]

/-- R122: what the drives that wait ask. -/
theorem askWaiting_adds (xs : List Drive) (l : Library) : ∃ ms, xs.foldl Library.askWaiting l
      = { l with picker := { l.picker with moves := l.picker.moves ++ ms } }
    ∧ ∀ d ∈ xs, ∀ i, (l.drive d).state = .stopped → (l.drive d).unload = true → l.mountedSide d = some i →
      ∃ m ∈ l.picker.moves ++ ms, m.drive? = some d ∧ m.byScheduler = false := by
  induction xs generalizing l with
  | nil => exact ⟨[], by simp, nofun⟩
  | cons d xs ih =>
    have hfirst : ∃ ms, l.askWaiting d = { l with picker := { l.picker with moves := l.picker.moves ++ ms } }
        ∧ ∀ i, (l.drive d).state = .stopped → (l.drive d).unload = true → l.mountedSide d = some i →
          ∃ m ∈ l.picker.moves ++ ms, m.drive? = some d ∧ m.byScheduler = false := by
      unfold Library.askWaiting
      dsimp only
      split
      next h =>
        obtain ⟨ms, heq, -, hask, -⟩ := askReturn_adds l d .unload
        exact ⟨ms, heq, fun i _ _ hi => hask i hi⟩
      next h => exact ⟨[], by simp, fun i h1 h2 => absurd ⟨h1, h2⟩ h⟩
    obtain ⟨ms, heq, hd⟩ := hfirst
    obtain ⟨ns, heqs, hds⟩ := ih (l.askWaiting d)
    have hside (d' : Drive) : (l.askWaiting d).mountedSide d' = l.mountedSide d' := mountedSide_congr (by rw [heq]) d'
    have hmoves : (l.askWaiting d).picker.moves = l.picker.moves ++ ms := by rw [heq]
    refine ⟨ms ++ ns, ?_, fun d' hd' i h1 h2 h3 => ?_⟩
    · rw [List.foldl_cons, heqs, heq, List.append_assoc]
    · rw [← List.append_assoc]
      rcases List.mem_cons.mp hd' with rfl | hmem
      · obtain ⟨m, hm, hk⟩ := hd i h1 h2 h3
        exact ⟨m, List.mem_append_left _ hm, hk⟩
      · obtain ⟨m, hm, hk⟩ := hds d' hmem i (by rw [heq]; exact h1) (by rw [heq]; exact h2) ((hside d').trans h3)
        exact ⟨m, by rwa [hmoves] at hm, hk⟩

/-- R122: what the picker clear leaves in FAULTED. -/
theorem clearPicker_faulted (l : Library) (h : l.picker.state = .faulted) : ∃ ms, l.clearPicker = { l with
      picker := { l.picker with state := .idle, moves := ms }, scheduler := { l.scheduler with decisionDue := true } }
    ∧ (∀ k, l.heldSlot = some k → ms.head? = some (.back k none .held)) ∧ (∀ m ∈ l.picker.moves, m ∈ ms)
    ∧ ∀ d i, (l.drive d).state = .stopped → (l.drive d).unload = true → l.mountedSide d = some i →
      ∃ m ∈ ms, m.drive? = some d ∧ m.byScheduler = false := by
  have hheld : ∃ ns, Library.returnHeld { l with picker := { l.picker with state := .idle } } .held
        = { l with picker := { l.picker with state := .idle, moves := ns ++ l.picker.moves } }
      ∧ ∀ k, l.heldSlot = some k → ns = [.back k none .held] := by
    unfold Library.returnHeld
    have hs : ({ l with picker := { l.picker with state := .idle } } : Library).heldSlot = l.heldSlot := rfl
    rw [hs]
    cases l.heldSlot with
    | none => exact ⟨[], rfl, nofun⟩
    | some k => exact ⟨[.back k none .held], rfl, fun j hj => by rw [Option.some.inj hj]⟩
  obtain ⟨ns, heq, hns⟩ := hheld
  obtain ⟨ms, hask, hmem⟩ := askWaiting_adds allDrives (Library.returnHeld { l with picker := { l.picker with state := .idle } } .held)
  rw [heq] at hask hmem
  refine ⟨ns ++ l.picker.moves ++ ms, ?_, fun k hk => ?_, fun m hm => List.mem_append_left _ (List.mem_append_right _ hm),
    fun d i h1 h2 h3 => hmem d (List.mem_finRange d) i h1 h2 h3⟩
  · unfold Library.clearPicker
    rw [if_pos h]
    dsimp only
    rw [heq, hask]
    rfl
  · rw [hns k hk]; rfl

end Clear

end Sys2Proof.Machine
end

section
-- One declaration after the other: the stacks of the threads that wait for each other count against the check's memory limit.
set_option Elab.async false
namespace Sys2Proof.Machine

section Failures

variable {s : State} {m : Move} {c : Instr} {grip caddy : Bool}

/-- R120: the retry that a first failure leads to, with the home slot of a RETURN vacant. -/
theorem retryMove_leaves (e : Env) (l : Library) (m : Move) (hv : ∀ i od q, m = .back i od q → l.seated i = false) :
    ∃ w n os, l.retryMove e m = { l with
        picker := { l.picker with state := .retry, awaitCaddy := w, limitStart := n }, out := l.out ++ os }
      ∧ (∀ i f d, m = .load i f d → w = true ∧ Output.askCaddy d ∈ os)
      ∧ ∀ i od q, m = .back i od q → w = false ∧ n = e.now ∧ Output.move m ∈ os := by
  cases m with
  | load i f d =>
    refine ⟨true, l.picker.limitStart, [.askCaddy d], retryLoad_eq e l i f d, ?_, nofun⟩
    rintro _ _ _ ⟨⟩
    exact ⟨rfl, List.mem_singleton_self _⟩
  | back i od q =>
    refine ⟨false, e.now, [.move (.back i od q)], (retryBack_eq e l i od q).trans (if_neg (by rw [hv i od q rfl]; decide)), nofun, ?_⟩
    rintro _ _ _ ⟨⟩
    exact ⟨rfl, rfl, List.mem_singleton_self _⟩

/-- R120: the first failure of a move whose retry has to be made. -/
theorem firstFailure_ends (hs : s.env.startUp = none) (hm : s.lib.picker.record = some m) (hw : s.lib.picker.awaitCaddy = false)
    (hc : c = .moveLimitExpiry grip caddy ∨ (c = .pickerFaultReport grip caddy ∧ ∀ i od, m = .back i od .failure → grip = true))
    (hp : s.lib.picker.state = .moving) (hv : ∀ i od q, m = .back i od q → s.lib.seated i = false) :
    let e := s.attemptEnv c grip caddy
    let a := (s.attemptLib c grip caddy).retryMove e m
    ∃ u, exec c s = .next u ∧ Reacted s u e s.fee a
      ∧ u.lib.picker.state = .retry ∧ u.lib.picker.record = some m ∧ u.lib.picker.locations = s.lib.picker.locations
      ∧ (∀ i f d, m = .load i f d → u.lib.picker.awaitCaddy = true ∧ Output.askCaddy d ∈ u.lib.out)
      ∧ (∀ i od q, m = .back i od q → u.lib.picker.awaitCaddy = false ∧ u.lib.picker.limitStart = e.now ∧ Output.move m ∈ u.lib.out)
      ∧ (c = .moveLimitExpiry grip caddy → Output.pickerStop ∈ u.lib.out)
      ∧ (∀ d, (s.lib.drive d).KeptTo (u.lib.drive d))
      ∧ (∀ t x, s.lib.entry t = some x → ∃ y, u.lib.entry t = some y ∧ x.KeptTo y) := by
  intro e a
  have hexec := exec_attemptFails hs hm hw (.inl hp) (hc.imp id And.left)
  obtain ⟨n, os, x, -, hl, hos⟩ := s.attempt_same c grip caddy
  have hrec : (s.attemptLib c grip caddy).picker.record = some m := by rw [hl]; exact hm
  have hwait : (s.attemptLib c grip caddy).picker.awaitCaddy = false := by rw [hl]; exact hw
  have hstate : (s.attemptLib c grip caddy).picker.state = .moving := by rw [hl]; exact hp
  have hfail : (∃ i od, m = .back i od .failure) → grip = true ∨ (c == .moveLimitExpiry grip caddy) = true := by
    rintro ⟨i, od, h⟩
    exact hc.symm.imp (fun hc => hc.2 i od h) beq_iff_eq.mpr
  rw [(attemptFailed_eq hrec hwait _ hfail).1 hstate] at hexec
  obtain ⟨w, start, es, ha, hload, hback⟩ := retryMove_leaves e (s.attemptLib c grip caddy) m fun i od q h => by rw [hl]; exact hv i od q h
  have ha : a = _ := ha
  have hr : Reacted s (State.react { s.begin with env := e, lib := a } s.begin.lib) e s.fee a := State.react_reacted rfl
  obtain ⟨k1, k2, k3, k4⟩ := hr.lib.picker (by rw [ha]; show PickerState.retry ≠ .idle; decide)
  obtain ⟨fs, hfs⟩ := hr.lib.out
  have hout : (State.react { s.begin with env := e, lib := a } s.begin.lib).lib.out = os ++ es ++ fs := by rw [hfs, ha, hl]
  refine ⟨_, hexec, hr, by rw [k1, ha], by rw [k2, ha]; exact hrec, hr.lib.locations.trans (by rw [ha, hl]),
    fun i f d h => ⟨by rw [k3, ha]; exact (hload i f d h).1, ?_⟩, fun i od q h => ⟨by rw [k3, ha]; exact (hback i od q h).1,
      by rw [k4, ha]; exact (hback i od q h).2.1, ?_⟩, fun h => ?_, fun d => ?_, fun t x hx => hr.lib.entry t x ?_⟩
  · rw [hout]
    exact List.mem_append_left _ (List.mem_append_right _ (hload i f d h).2)
  · rw [hout]
    exact List.mem_append_left _ (List.mem_append_right _ (hback i od q h).2.2)
  · rw [hout, hos h]
    exact List.mem_append_left _ (List.mem_append_left _ (List.mem_singleton_self _))
  · have hd : a.drive d = s.lib.drive d := by rw [ha, hl]; rfl
    exact hd ▸ hr.lib.drive d
  · have hf : a.front = s.lib.front := by rw [ha, hl]
    exact (congrArg (fun v : Front => look v.table t) hf).trans hx

/-- R120: the first failure of a RETURN whose home slot reads seated. -/
theorem homeFailure_ends (i : Slot) (od : Option Drive) (q : ReturnReason) (hs : s.env.startUp = none)
    (hm : s.lib.picker.record = some (.back i od q)) (hp : s.lib.picker.state = .moving) (hw : s.lib.picker.awaitCaddy = false)
    (hseat : s.lib.seated i = true)
    (hc : c = .moveLimitExpiry grip caddy ∨ (c = .pickerFaultReport grip caddy ∧ (q = .failure → grip = true))) :
    let l := s.attemptLib c grip caddy
    let a := l.retryMove (s.attemptEnv c grip caddy) (.back i od q)
    ∃ u, exec c s = .next u ∧ Reacted s u (s.attemptEnv c grip caddy) s.fee a
      ∧ a.picker = { l.picker with state := .idle, record := none, locations := put s.lib.picker.locations i .inSlot }
      ∧ (∀ j, u.lib.location j = if j = i then .inSlot else s.lib.location j)
      ∧ (∀ d, od = some d → a.drive d = { s.lib.drive d with
          state := if (s.lib.drive d).state = .failed then .failed else .empty, unload := false, askAgain := none })
      ∧ (∀ d, od ≠ some d → a.drive d = s.lib.drive d)
      ∧ a = { s.lib with picker := a.picker, drives := a.drives, out := l.out } := by
  intro l a
  have hexec := exec_attemptFails hs hm hw (.inl hp) (hc.imp id And.left)
  obtain ⟨n, os, x, -, hl, -⟩ := s.attempt_same c grip caddy
  have hl : l = _ := hl
  have hfail : (∃ i' od', Move.back i od q = .back i' od' .failure) → grip = true ∨ (c == .moveLimitExpiry grip caddy) = true := by
    rintro ⟨_, _, ⟨⟩⟩
    exact hc.symm.imp (fun hc => hc.2 rfl) beq_iff_eq.mpr
  rw [(attemptFailed_eq (l := l) (by rw [hl]; exact hm) (by rw [hl]; exact hw) _ hfail).1 (by rw [hl]; exact hp)] at hexec
  have ha : a = l.homed i od := (retryBack_eq ..).trans (if_pos (by rw [hl]; exact hseat))
  have hr : Reacted s (State.react { s.begin with env := s.attemptEnv c grip caddy, lib := a } s.begin.lib) (s.attemptEnv c grip caddy) s.fee a :=
    State.react_reacted rfl
  have hpicker : a.picker = { l.picker with state := .idle, record := none, locations := put s.lib.picker.locations i .inSlot } := by
    rw [ha, hl]
    show ({ s.lib.picker with state := .idle, record := none, awaitCaddy := false, locations := _, expired := x } : Picker) = _
    rw [← hw]
  have hdrive (d : Drive) : a.drive d = if od = some d then (s.lib.drive d).emptied else s.lib.drive d := by
    rw [ha, homed_drive, hl]; rfl
  refine ⟨_, hexec, hr, hpicker, fun j => ?_, fun d hd => (hdrive d).trans (if_pos hd), fun d hd => (hdrive d).trans (if_neg hd), by rw [ha, hl]; rfl⟩
  have := congrArg (fun v : Vector Location 64 => look v j) (hr.lib.locations.trans (congrArg Picker.locations hpicker))
  refine this.trans ((look_put ..).trans ?_)
  by_cases h : i = j
  · rw [if_pos h, if_pos h.symm]
  · rw [if_neg h, if_neg (Ne.symm h)]; rfl

/-- R121: the second failure of a move. -/
theorem secondFailure_ends (hs : s.env.startUp = none) (hm : s.lib.picker.record = some m) (hw : s.lib.picker.awaitCaddy = false)
    (hc : c = .moveLimitExpiry grip caddy ∨ (c = .pickerFaultReport grip caddy ∧ ∀ i od, m = .back i od .failure → grip = true))
    (hp : s.lib.picker.state = .retry) :
    let a := (s.attemptLib c grip caddy).secondFailure (s.attemptEnv c grip caddy) m grip caddy
    ∃ u, exec c s = .next u ∧ Reacted s u (s.attemptEnv c grip caddy) s.fee a
      ∧ u.lib.picker.state = .faulted ∧ u.lib.picker.record = none
      ∧ a.picker.moves = s.lib.picker.moves.filter (fun x => !x.byScheduler) ∧ a.scheduler.decisionDue = true
      ∧ (∀ i f d, m = .load i f d →
        (grip = true → u.lib.location i = .inPicker ∧ (a.drive d).state = .empty)
        ∧ (grip = false → caddy = true → u.lib.location i = .inDrive d f ∧ (u.lib.drive d).state = .spinUp)
        ∧ (grip = false → caddy = false → u.lib.location i = s.lib.location i ∧ (a.drive d).state = .empty))
      ∧ (∀ i od q, m = .back i od q →
        (grip = true → u.lib.location i = .inPicker)
        ∧ (grip = false → s.lib.seated i = true → u.lib.location i = .inSlot)
        ∧ ((grip = true ∨ s.lib.seated i = true) → ∀ d, od = some d →
          (a.drive d).state = (if (s.lib.drive d).state = .failed then .failed else .empty))
        ∧ (grip = false → s.lib.seated i = false → u.lib.location i = s.lib.location i
          ∧ ∀ d, od = some d → (a.drive d).state = (if (s.lib.drive d).state = .failed then .failed else .stopped)))
      ∧ (∀ d, m.drive? ≠ some d → a.drive d = s.lib.drive d)
      ∧ (∀ j, j ≠ m.slot → u.lib.location j = s.lib.location j)
      ∧ (s.lib.log.first = none → KindSet.has s.env.mask .pickerFault = false →
        u.lib.log.first = some ⟨.pickerFault, none, none, none, m.drive?, some m.slot, none, s.env.day⟩)
      ∧ (∀ t x, s.lib.entry t = some x → ∃ y, u.lib.entry t = some y ∧ x.KeptTo y) := by
  intro a
  have hexec := exec_attemptFails hs hm hw (.inr hp) (hc.imp id And.left)
  obtain ⟨n, os, x, he, hl, -⟩ := s.attempt_same c grip caddy
  have hfail : (∃ i od, m = .back i od .failure) → grip = true ∨ (c == .moveLimitExpiry grip caddy) = true := by
    rintro ⟨i, od, h⟩
    exact hc.symm.imp (fun hc => hc.2 i od h) beq_iff_eq.mpr
  rw [(attemptFailed_eq (by rw [hl]; exact hm) (by rw [hl]; exact hw) _ hfail).2 (by rw [hl]; exact hp)] at hexec
  have hr : Reacted s (State.react { s.begin with env := s.attemptEnv c grip caddy, lib := a } s.begin.lib) (s.attemptEnv c grip caddy) s.fee a :=
    State.react_reacted rfl
  obtain ⟨p, ha⟩ := secondFailure_rest (s.attemptEnv c grip caddy) (s.attemptLib c grip caddy) (grip := grip) (caddy := caddy) m
  have ha : a = _ := ha
  obtain ⟨ls, ds, pd, es, hrest, hlocs, hds⟩ := settleFailed_rest (s.attemptEnv c grip caddy) (s.attemptLib c grip caddy) (m := m) (grip := grip) (caddy := caddy)
  have hl1 (j : Slot) : (s.attemptLib c grip caddy).location j = s.lib.location j := by rw [hl]; rfl
  have hl2 (j : Slot) : (s.attemptLib c grip caddy).seated j = s.lib.seated j := by rw [hl]; rfl
  have hl3 (d : Drive) : (s.attemptLib c grip caddy).drive d = s.lib.drive d := by rw [hl]; rfl
  have hload (i : Slot) (f : Face) (d : Drive) (h : m = .load i f d) :=
    h ▸ settleFailed_load_leaves (s.attemptEnv c grip caddy) (s.attemptLib c grip caddy) (grip := grip) (caddy := caddy) i f d
  have hback (i : Slot) (od : Option Drive) (q : ReturnReason) (h : m = .back i od q) :=
    h ▸ settleFailed_back_leaves (s.attemptEnv c grip caddy) (s.attemptLib c grip caddy) (grip := grip) (caddy := caddy) i od q
  simp only [hl1, hl2, hl3] at hload hback
  have hloc (j : Slot) : (State.react { s.begin with env := s.attemptEnv c grip caddy, lib := a } s.begin.lib).lib.location j
      = ((s.attemptLib c grip caddy).settleFailed (s.attemptEnv c grip caddy) m grip caddy).location j :=
    congrArg (fun v : Vector Location 64 => look v j) (hr.lib.locations.trans (by rw [ha]))
  have hdrive (d : Drive) : a.drive d = ((s.attemptLib c grip caddy).settleFailed (s.attemptEnv c grip caddy) m grip caddy).drive d := by
    rw [ha]; rfl
  obtain ⟨k1, k2, -, -⟩ := hr.lib.picker (by rw [ha]; show PickerState.faulted ≠ .idle; decide)
  refine ⟨_, hexec, hr, by rw [k1, ha], by rw [k2, ha], by rw [ha, hrest, hl], by rw [ha], fun i f d h => ?_, fun i od q h => ?_, fun d h => ?_,
    fun j h => ?_, fun hf hk => ?_, fun t x hx => hr.lib.entry t x ?_⟩
  · obtain ⟨h1, h2, h3⟩ := hload i f d h
    rw [hloc, hdrive]
    refine ⟨h1, fun hg hc => ⟨(h2 hg hc).1, ?_⟩, h3⟩
    have hsp : (a.drive d).state = .spinUp := by rw [hdrive]; exact (h2 hg hc).2
    exact ((hr.lib.drive d).state (by rw [hsp]; rfl)).trans hsp
  · rw [hloc]
    simp only [hdrive]
    exact hback i od q h
  · rw [hdrive, hrest]
    exact (hds d h).trans (hl3 d)
  · rw [hloc, hrest]
    exact (hlocs j h).trans (hl1 j)
  · refine hr.lib.first _ ?_
    rw [ha]
    refine (faultMove_first (s.attemptEnv c grip caddy) _ m (by rw [hrest, hl]; exact hf) (by rw [he]; exact hk)).trans ?_
    rw [he]
  · have hf : a.front = s.lib.front := by rw [ha, hrest, hl]
    exact (congrArg (fun v : Front => look v.table t) hf).trans hx

/-- R122: the picker clear as a write of the picker block. -/
theorem pickerClear_ends (tag : Tag) (x : Entry) (h : AwaitsWrite s tag x .picker) :
    ∃ u, exec (.pickerClear tag) s = .next u ∧ Reacted s u s.env s.fee (s.begin.lib.clearPicker.endRequest tag .done 1 0)
      ∧ RequestEnds u.lib tag x .done 1 :=
  h.reacted (c := .pickerClear tag) (t := { s.begin with lib := s.begin.lib.clearPicker }) rfl rfl rfl rfl rfl
    ((congrArg (fun v : Front => look v.table tag) (front_clearPicker s.begin.lib)).trans h.entry)

/-- R114: the fault report that a failure return meets with the grip empty. -/
theorem exec_returnFails (i : Slot) (od : Option Drive) (hs : s.env.startUp = none) (hm : s.lib.picker.record = some (.back i od .failure))
    (hw : s.lib.picker.awaitCaddy = false) (hp : s.lib.picker.state = .moving ∨ s.lib.picker.state = .retry) :
    exec (.pickerFaultReport false caddy) s = .next (State.react { s.begin with lib :=
      { s.lib with out := [], picker := { s.lib.picker with state := .idle, record := none, awaitCaddy := false } } } s.begin.lib) := by
  have hrun : s.begin.lib.runningMove = some (.back i od .failure) := (if_pos ⟨hp, hw⟩).trans hm
  have hfail : s.begin.lib.attemptFailed s.begin.env false caddy false = s.begin.lib.failReturn := by
    unfold Library.attemptFailed
    rw [show s.begin.lib.picker.record = _ from hm]
    dsimp only
    rw [if_neg (by show ¬ s.lib.picker.awaitCaddy = true; rw [hw]; decide)]
    rfl
  show execPickerFaultReport false caddy s = _
  unfold execPickerFaultReport
  rw [State.event_next _ hs, hrun]
  dsimp only
  rw [hfail]
  rfl

/-- Settles O29: each failure of an attempt by the attempt that it ends, and the clear by what it leaves. -/
theorem moveFailuresFaultAndClear : Obligations.MoveFailuresFaultAndClear := by
  refine ⟨fun s m c grip caddy hs hm hw hc => ?_, fun s i od q c grip caddy hs hm hp hw hseat hc => ?_, fun s i f d hs hm hw => ?_,
    fun s i od caddy hs hm hw hp => ?_, fun s hs hx => ?_, fun s tag x h => ?_⟩
  · exact ⟨fun hp hv => firstFailure_ends hs hm hw hc hp hv, fun hp => secondFailure_ends hs hm hw hc hp⟩
  · exact homeFailure_ends i od q hs hm hp hw hseat hc
  · have hr : Reacted s (State.react { s.begin with lib := s.begin.lib.caddyAnswer s.env (.load i f d) false } s.begin.lib) s.env s.fee
        (s.begin.lib.caddyAnswer s.env (.load i f d) false) := State.react_reacted rfl
    have ha : s.begin.lib.caddyAnswer s.env (.load i f d) false = { s.lib with
      out := [.move (.load i f d)], picker := { s.lib.picker with limitStart := s.env.now, awaitCaddy := false } } := rfl
    refine ⟨_, exec_caddyReport hs hm hw false, ha ▸ hr, fun hp => ?_⟩
    obtain ⟨k1, k2, -, k4⟩ := hr.lib.picker (by rw [ha]; show s.lib.picker.state ≠ _; rw [hp]; decide)
    exact ⟨by rw [k1, ha]; exact hp, by rw [k2, ha]; exact hm, by rw [k4, ha]⟩
  · have hr := State.react_reacted (s := s) (u := { s.begin with lib :=
      { s.lib with out := [], picker := { s.lib.picker with state := .idle, record := none, awaitCaddy := false } } }) rfl
    exact ⟨_, exec_returnFails i od hs hm hw hp, hr, hr.lib.locations, hr.lib.drive⟩
  · have hlate : s.begin.lib.lateCompletion s.begin.env = true := beq_iff_eq.mpr hx
    show execMoveCompletion s = _
    unfold execMoveCompletion
    rw [State.event_next _ hs, if_pos hlate]
    rfl
  · intro a
    obtain ⟨u, hu, hr, hends⟩ := pickerClear_ends tag x h
    refine ⟨u, hu, hr, hends, ?_⟩
    by_cases hf : s.lib.picker.state = .faulted
    · obtain ⟨ms, heq, hheld, hmem, hask⟩ := clearPicker_faulted s.begin.lib hf
      have ha : a = _ := heq
      refine ⟨fun _ => ⟨by rw [ha], by rw [ha], fun k hk => by rw [ha]; exact hheld k hk, fun m hm => by rw [ha]; exact hmem m hm,
        fun d i h1 h2 h3 => by rw [ha]; exact hask d i h1 h2 h3⟩, fun hn => absurd hf hn, ?_, ?_, ?_, ?_, ?_, ?_⟩
      all_goals rw [ha]; rfl
    · have ha : a = s.begin.lib := if_neg hf
      refine ⟨fun hn => absurd hn hf, fun _ => ha, ?_, ?_, ?_, ?_, ?_, ?_⟩
      all_goals rw [ha]; rfl

end Failures

end Sys2Proof.Machine
end

section
-- One declaration after the other: the stacks of the threads that wait for each other count against the check's memory limit.
set_option Elab.async false
namespace Sys2Proof.Machine

/-! # The slots' presence lines -/

section Dropped

/-- R118: what one drive asks when its home slot reads vacant. -/
theorem askDropped_adds (i : Slot) (l : Library) (d : Drive) : ∃ ms ds, Library.askDropped i l d
      = { l with picker := { l.picker with moves := l.picker.moves ++ ms }, drives := ds }
    ∧ (∀ m ∈ ms, ∃ q, m = .back i (some d) q ∧ (l.drive d).askAgain = some q)
    ∧ (∀ q p, (l.drive d).askAgain = some q → l.mountedSide d = some p → slotOf p = i →
      (∀ m ∈ l.picker.moves, m.drive? = some d → m.byScheduler = true) → Move.back i (some d) q ∈ l.picker.moves ++ ms)
    ∧ (∀ d', d' ≠ d → look ds d' = l.drive d') ∧ ((l.drive d).askAgain = none → look ds d = l.drive d) := by
  have hsame : ∃ ms ds, l = { l with picker := { l.picker with moves := l.picker.moves ++ ms }, drives := ds } ∧ ms = [] ∧ ds = l.drives :=
    ⟨[], l.drives, by rw [List.append_nil], rfl, rfl⟩
  unfold Library.askDropped
  dsimp only
  cases hask : (l.drive d).askAgain with
  | none =>
    obtain ⟨ms, ds, heq, rfl, rfl⟩ := hsame
    exact ⟨[], l.drives, heq, nofun, nofun, fun _ _ => rfl, fun _ => rfl⟩
  | some q =>
    cases hside : l.mountedSide d with
    | none =>
      obtain ⟨ms, ds, heq, rfl, rfl⟩ := hsame
      exact ⟨[], l.drives, heq, nofun, nofun, fun _ _ => rfl, nofun⟩
    | some p =>
      dsimp only
      by_cases hp : slotOf p = i
      · rw [if_pos hp]
        obtain ⟨ms, heq, hof, -, hnew⟩ := askReturn_adds (l.setDrive d { l.drive d with askAgain := none }) d q
        have hside' : (l.setDrive d { l.drive d with askAgain := none }).mountedSide d = some p := hside
        refine ⟨ms, put l.drives d { l.drive d with askAgain := none }, heq, fun m hm => ?_, fun q' p' hq hp' _ hall => ?_,
          fun d' hd' => look_put_ne _ _ (Ne.symm hd'), nofun⟩
        · obtain ⟨j, hj, rfl⟩ := hof m hm
          rw [hside'] at hj
          obtain rfl := Option.some.inj hj
          exact ⟨q, by rw [hp], rfl⟩
        · obtain rfl := Option.some.inj hq
          rw [hnew p hside' hall, hp]
          exact List.mem_append_right _ (List.mem_singleton_self _)
      · rw [if_neg hp]
        obtain ⟨ms, ds, heq, rfl, rfl⟩ := hsame
        refine ⟨[], l.drives, heq, nofun, fun q' p' _ hp' hi => ?_, fun _ _ => rfl, nofun⟩
        exact absurd (Option.some.inj hp' ▸ hi) hp

/-- R118: what the drives whose RETURN was dropped ask when the slot reads vacant. -/
theorem askDroppeds_adds (i : Slot) (xs : List Drive) (hx : xs.Nodup) (l : Library) : ∃ ms ds, xs.foldl (Library.askDropped i) l
      = { l with picker := { l.picker with moves := l.picker.moves ++ ms }, drives := ds }
    ∧ (∀ m ∈ ms, ∃ d ∈ xs, ∃ q, m = .back i (some d) q ∧ (l.drive d).askAgain = some q)
    ∧ (∀ d ∈ xs, ∀ q p, (l.drive d).askAgain = some q → l.mountedSide d = some p → slotOf p = i →
      (∀ m ∈ l.picker.moves, m.drive? = some d → m.byScheduler = true) → Move.back i (some d) q ∈ l.picker.moves ++ ms)
    ∧ ∀ d, (l.drive d).askAgain = none → look ds d = l.drive d := by
  induction xs generalizing l with
  | nil => exact ⟨[], l.drives, by rw [List.append_nil]; rfl, nofun, nofun, fun _ _ => rfl⟩
  | cons d xs ih =>
    obtain ⟨hd, hx⟩ := List.nodup_cons.mp hx
    obtain ⟨ms, ds, heq, hof, hask, hother, hself⟩ := askDropped_adds i l d
    obtain ⟨ns, es, heqs, hofs, hasks, hselfs⟩ := ih hx (Library.askDropped i l d)
    have hdrive (d' : Drive) : (Library.askDropped i l d).drive d' = look ds d' := by rw [heq]; rfl
    have hside (d' : Drive) : (Library.askDropped i l d).mountedSide d' = l.mountedSide d' := mountedSide_congr (by rw [heq]) d'
    have hmoves : (Library.askDropped i l d).picker.moves = l.picker.moves ++ ms := by rw [heq]
    have hne {d' : Drive} (h : d' ∈ xs) : d' ≠ d := fun hd' => hd (hd' ▸ h)
    refine ⟨ms ++ ns, es, ?_, fun m hm => ?_, fun d' hd' q p hq hp hi hall => ?_, fun d' hn => ?_⟩
    · rw [List.foldl_cons, heqs, heq, List.append_assoc]
    · rcases List.mem_append.mp hm with hm | hm
      · obtain ⟨q, hq⟩ := hof m hm
        exact ⟨d, List.mem_cons_self, q, hq⟩
      · obtain ⟨d', hd', q, hmq, hq⟩ := hofs m hm
        rw [hdrive, hother d' (hne hd')] at hq
        exact ⟨d', List.mem_cons_of_mem _ hd', q, hmq, hq⟩
    · rw [← List.append_assoc]
      rcases List.mem_cons.mp hd' with rfl | hmem
      · exact List.mem_append_left _ (hask q p hq hp hi hall)
      · have := hasks d' hmem q p (by rw [hdrive, hother d' (hne hmem)]; exact hq) ((hside d').trans hp) hi ?_
        · rwa [hmoves] at this
        · intro m hm hdm
          rw [hmoves] at hm
          rcases List.mem_append.mp hm with hm | hm
          · exact hall m hm hdm
          · obtain ⟨q', rfl, -⟩ := hof m hm
            exact absurd (Option.some.inj hdm).symm (hne hmem)
    · have h1 : look ds d' = l.drive d' := by
        by_cases h : d' = d
        · subst h; exact hself hn
        · exact hother d' h
      rw [hselfs d' (by rw [hdrive, h1]; exact hn), hdrive, h1]

end Dropped

section Presence

variable {s : State} {i : Slot}

theorem exec_presenceChange {b : Bool} (hs : s.env.startUp = none) (h : s.lib.seated i = !b) :
    exec (.presenceChange i b) s = .next (State.react { s.begin with lib := s.begin.lib.presence s.env i b } s.begin.lib) := by
  have hne : ¬ s.begin.lib.seated i = b := by
    show ¬ s.lib.seated i = b
    rw [h]
    cases b <;> decide
  show execPresenceChange i b s = _
  unfold execPresenceChange
  dsimp only
  rw [if_neg hne, if_neg (by show ¬ s.starting = true; simp [State.starting, hs])]
  rfl

/-- R17, R118: the library in which a slot that reads vacant is looked at. -/
def Library.vacated (l : Library) (i : Slot) : Library := allDrives.foldl (Library.askDropped i) (l.setSeated i false)

theorem vacated_rest (l : Library) (i : Slot) : ∃ ms ds, l.vacated i
      = { l with picker := { l.picker with presence := put l.picker.presence i false, moves := l.picker.moves ++ ms }, drives := ds }
    ∧ (∀ m ∈ ms, ∃ d q, m = .back i (some d) q ∧ (l.drive d).askAgain = some q)
    ∧ (∀ d q p, (l.drive d).askAgain = some q → l.mountedSide d = some p → slotOf p = i →
      (∀ m ∈ l.picker.moves, m.drive? = some d → m.byScheduler = true) → Move.back i (some d) q ∈ l.picker.moves ++ ms)
    ∧ ∀ d, (l.drive d).askAgain = none → look ds d = l.drive d := by
  obtain ⟨ms, ds, heq, hof, hask, hself⟩ := askDroppeds_adds i allDrives (List.nodup_finRange 4) (l.setSeated i false)
  refine ⟨ms, ds, heq, fun m hm => ?_, fun d q p h1 h2 h3 h4 => hask d (List.mem_finRange d) q p h1 h2 h3 h4, hself⟩
  obtain ⟨d, -, q, h⟩ := hof m hm
  exact ⟨d, q, h⟩

theorem presence_removed (e : Env) (l : Library) (h : l.location i = .inSlot) (hm : l.moving i = false) :
    l.presence e i false = (l.vacated i).removal e i := by
  obtain ⟨ms, ds, heq, -⟩ := vacated_rest l i
  have hmove : ¬ (l.vacated i).moving i = true := by
    rw [heq]
    exact fun hn => absurd (hm.symm.trans hn) (by decide)
  have hloc : (l.vacated i).location i = .inSlot := by rw [heq]; exact h
  unfold Library.presence
  dsimp only
  have hv : allDrives.foldl (Library.askDropped i) (l.setSeated i false) = l.vacated i := rfl
  rw [if_neg (show ¬ false = true by decide), hv, if_neg hmove, hloc]
  exact if_neg (by decide)

theorem presence_inserted (e : Env) (l : Library) (h : l.location i = .absent) (hm : l.moving i = false) :
    l.presence e i true = (l.setSeated i true).insertion i := by
  have hmove : ¬ (l.setSeated i true).moving i = true := fun hn => absurd (hm.symm.trans hn) (by decide)
  have hloc : (l.setSeated i true).location i = .absent := h
  unfold Library.presence
  dsimp only
  rw [if_pos rfl, if_neg hmove, hloc]
  rfl

theorem presence_away (e : Env) (l : Library) (b : Bool)
    (h : l.moving i = true ∨ l.location i = .inPicker ∨ ∃ d f, l.location i = .inDrive d f) :
    l.presence e i b = if b then l.setSeated i true else l.vacated i := by
  have hsame : ∀ k : Library, (k.moving i = l.moving i) → (k.location i = l.location i) → (if k.moving i then k
      else match k.location i with
      | .inSlot => if b then k else k.removal e i
      | .absent => if b then k.insertion i else k
      | .inDrive _ _ => k
      | .inPicker => k) = k := by
    intro k h1 h2
    rw [h1, h2]
    rcases h with h | h | ⟨d, f, h⟩
    · rw [if_pos h]
    · rw [h]; split <;> rfl
    · rw [h]; split <;> rfl
  obtain ⟨ms, ds, heq, -⟩ := vacated_rest l i
  cases b with
  | true => exact hsame (l.setSeated i true) rfl rfl
  | false => exact hsame (l.vacated i) (by rw [heq]; rfl) (by rw [heq]; rfl)

/-- R17, R177: the side that CARTRIDGE_MISSING names is found as before the removal. -/
theorem inUseSide_removed (l : Library) (i : Slot) : (l.removed i).inUseSide i = l.inUseSide i := by
  obtain ⟨rs, due, heq, hrole⟩ := removed_rest l i
  unfold Library.inUseSide
  refine congrArg (fun p => List.find? p (sidesOf i)) (funext fun q => ?_)
  have hq : (l.removed i).role q = if slotOf q = i ∧ l.role q = .blank then .unlisted else l.role q := by rw [heq]; exact hrole q
  rw [hq]
  split
  next h => rw [h.2]; rfl
  next => rfl

theorem removal_first (e : Env) (l : Library) {q : Side} (hq : l.inUseSide i = some q) (hl : l.log.first = none)
    (hm : KindSet.has e.mask .cartridgeMissing = false) :
    (l.removal e i).log.first = some ⟨.cartridgeMissing, (l.role q).book?, some q, none, none, some i, none, e.day⟩ := by
  have hlog : (l.removal e i).log = ((l.removed i).faultMissing e i none).log := by
    rw [removal_eq]
    split
    · rw [stopRescue_rest]
    · rfl
  obtain ⟨rs, due, heq, hrole⟩ := removed_rest l i
  have hinuse : (l.role q).inUse = true := List.find?_some (p := fun d => (l.role d).inUse) hq
  have hr : (l.removed i).role q = l.role q := by
    have : (l.removed i).role q = if slotOf q = i ∧ l.role q = .blank then .unlisted else l.role q := by rw [heq]; exact hrole q
    rw [this, if_neg]
    rintro ⟨-, hb⟩
    rw [hb] at hinuse
    cases hinuse
  have hf : (l.removed i).log.first = none := by rw [heq]; exact hl
  rw [hlog]
  unfold Library.faultMissing
  rw [inUseSide_removed, hq]
  dsimp only
  rw [hr]
  simp [Library.fault, FaultLog.record, FaultRecord.of, hf, hm]

/-- R176: the rescue that names the cartridge stops with its batch discarded. -/
theorem removal_stops (e : Env) (l : Library) {r : RescueRecord} (hr : l.care.rescue = some r) (hu : r.usesSlot i = true) :
    (l.removal e i).care.rescue = some { r with stopped := true } ∧ (l.removal e i).care.batch = none
      ∧ ∀ j, ∀ x ∈ (l.removal e i).items j, x.kind ≠ .rescueRead ∧ x.kind ≠ .rescueWrite := by
  obtain ⟨rs, due, heq, -⟩ := removed_rest l i
  have hcare : (l.removed i).care.rescue = some r := by rw [heq]; exact hr
  have hmiss : ((l.removed i).faultMissing e i none).care.rescue = some r := by rw [faultMissing_rest]; exact hcare
  rw [removal_eq, hcare, if_pos (show (some r).any (fun r => r.usesSlot i) = true from hu)]
  generalize (l.removed i).faultMissing e i none = m at hmiss
  have hstop : m.stopRescue = { m.dropBatch with care := { m.dropBatch.care with rescue := some { r with stopped := true } } } := by
    unfold Library.stopRescue
    rw [hmiss]
  rw [hstop]
  refine ⟨rfl, rfl, fun j x hx => ?_⟩
  have hitems : ({ m.dropBatch with care := { m.dropBatch.care with rescue := some { r with stopped := true } } } : Library).items j
      = (m.items j).filter fun x => !(x.kind == .rescueRead || x.kind == .rescueWrite) := look_map ..
  rw [hitems] at hx
  have hk := (List.mem_filter.mp hx).2
  simp only [Bool.not_eq_true', Bool.or_eq_false_iff, beq_eq_false_iff_ne] at hk
  exact hk

theorem removal_batch (e : Env) (l : Library) (hu : ∀ r, l.care.rescue = some r → r.usesSlot i = false) :
    (l.removal e i).care.rescue = l.care.rescue ∧ (l.removal e i).care.batch = l.care.batch := by
  obtain ⟨rs, due, heq, -⟩ := removed_rest l i
  have hcare : (l.removed i).care.rescue = l.care.rescue := by rw [heq]
  rw [removal_eq, hcare, if_neg ?_, faultMissing_rest, heq]
  · exact ⟨rfl, rfl⟩
  · cases hr : l.care.rescue with
    | none => exact nofun
    | some r => show ¬ r.usesSlot i = true; rw [hu r hr]; decide

theorem usesSlot_iff {r : RescueRecord} : r.usesSlot i = true ↔ slotOf r.source = i ∨ r.target.map slotOf = some i := by
  simp [RescueRecord.usesSlot]

end Presence

end Sys2Proof.Machine
end

section
-- One declaration after the other: the stacks of the threads that wait for each other count against the check's memory limit.
set_option Elab.async false
namespace Sys2Proof.Machine

section Insertion

variable {i : Slot} (l : Library)

theorem inUseSide_isSome : (l.inUseSide i).isSome = true ↔ ∃ q, slotOf q = i ∧ (l.role q).inUse = true := by
  unfold Library.inUseSide
  rw [List.find?_isSome]
  simp only [mem_sidesOf]

/-- R18: the record of a cartridge that is inserted, before its sides are looked at. -/
theorem insertion_eq : l.insertion i = if (l.inUseSide i).isSome then
      (match l.care.rescue with
      | some r => if r.stopped ∧ r.usesSlot i ∧ (l.setLocation i .inSlot).rescuePresent r
        then { (l.setLocation i .inSlot) with care := { l.care with rescue := some { r with stopped := false } } } else l.setLocation i .inSlot
      | none => l.setLocation i .inSlot)
    else if (sidesOf i).all fun d => (l.role d).isFree then
      (sidesOf i).foldl (fun l d => (l.setRole d .unlisted).setHealth d .zero) (l.setLocation i .inSlot)
    else l.setLocation i .inSlot := rfl

theorem freshSides_rest (xs : List Side) : ∃ rs hs, xs.foldl (fun (l : Library) d => (l.setRole d .unlisted).setHealth d .zero) l
      = { l with roles := rs, care := { l.care with health := hs } }
    ∧ ∀ q, look rs q = (if q ∈ xs then .unlisted else l.role q) ∧ look hs q = (if q ∈ xs then .zero else l.health q) := by
  induction xs generalizing l with
  | nil => exact ⟨l.roles, l.care.health, rfl, fun q => ⟨rfl, rfl⟩⟩
  | cons d xs ih =>
    obtain ⟨rs, hs, heq, hq⟩ := ih ((l.setRole d .unlisted).setHealth d .zero)
    refine ⟨rs, hs, heq, fun q => ⟨(hq q).1.trans ?_, (hq q).2.trans ?_⟩⟩
    · rw [Library.setHealth_role, Library.setRole_role]
      grind
    · rw [Library.setHealth_health]
      have : (l.setRole d .unlisted).health q = l.health q := rfl
      grind

/-- R18, R176: what an insertion leaves alone, and the marks that it makes. -/
theorem insertion_rest : ∃ rs hs r, l.insertion i = { l with
      picker := { l.picker with locations := put l.picker.locations i .inSlot }, roles := rs, care := { l.care with health := hs, rescue := r } }
    ∧ ((∃ q, slotOf q = i ∧ (l.role q).inUse = true) → rs = l.roles ∧ hs = l.care.health)
    ∧ ((∀ q, slotOf q = i → l.role q = .unlisted ∨ ∃ b, l.role q = .retired b) →
      ∀ q, look rs q = (if slotOf q = i then .unlisted else l.role q) ∧ look hs q = (if slotOf q = i then .zero else l.health q)) := by
  rw [insertion_eq]
  by_cases hu : (l.inUseSide i).isSome = true
  · have hinuse := (inUseSide_isSome l).mp hu
    have hno : ¬ ∀ q, slotOf q = i → l.role q = .unlisted ∨ ∃ b, l.role q = .retired b := by
      obtain ⟨q, hq, hr⟩ := hinuse
      intro h
      rcases h q hq with h | ⟨b, h⟩ <;> rw [h] at hr <;> cases hr
    rw [if_pos hu]
    split
    · split
      · exact ⟨l.roles, l.care.health, _, rfl, fun _ => ⟨rfl, rfl⟩, fun h => absurd h hno⟩
      · exact ⟨l.roles, l.care.health, l.care.rescue, rfl, fun _ => ⟨rfl, rfl⟩, fun h => absurd h hno⟩
    · exact ⟨l.roles, l.care.health, l.care.rescue, rfl, fun _ => ⟨rfl, rfl⟩, fun h => absurd h hno⟩
  · rw [if_neg hu]
    have hinuse : ¬ ∃ q, slotOf q = i ∧ (l.role q).inUse = true := fun h => hu ((inUseSide_isSome l).mpr h)
    split
    next hall =>
      obtain ⟨rs, hs, heq, hq⟩ := freshSides_rest (l.setLocation i .inSlot) (sidesOf i)
      simp only [mem_sidesOf] at hq
      exact ⟨rs, hs, l.care.rescue, heq, fun h => absurd h hinuse, fun _ => hq⟩
    next hall =>
      refine ⟨l.roles, l.care.health, l.care.rescue, rfl, fun h => absurd h hinuse, fun h => absurd ?_ hall⟩
      refine List.all_eq_true.mpr fun q hq => ?_
      rcases h q (mem_sidesOf.mp hq) with h | ⟨b, h⟩ <;> rw [h] <;> rfl

theorem rescuePresent_iff {r : RescueRecord} {p : Side} (hp : r.target = some p) : l.rescuePresent r = true
    ↔ l.location (slotOf r.source) ≠ .absent ∧ l.location (slotOf p) ≠ .absent := by
  unfold Library.rescuePresent
  rw [hp]
  simp

/-- R176: a rescue whose cartridges are present again goes on. -/
theorem insertion_rescue {r : RescueRecord} {p : Side} (hu : ∃ q, slotOf q = i ∧ (l.role q).inUse = true) (hr : l.care.rescue = some r)
    (hp : r.target = some p) :
    (r.stopped = true → (slotOf r.source = i ∨ slotOf p = i) → (slotOf r.source ≠ i → l.location (slotOf r.source) ≠ .absent) →
        (slotOf p ≠ i → l.location (slotOf p) ≠ .absent) → (l.insertion i).care.rescue = some { r with stopped := false })
      ∧ (((slotOf r.source ≠ i ∧ l.location (slotOf r.source) = .absent) ∨ (slotOf p ≠ i ∧ l.location (slotOf p) = .absent)) →
        (l.insertion i).care.rescue = some r) := by
  rw [insertion_eq, if_pos ((inUseSide_isSome l).mpr hu), hr]
  dsimp only
  have hpresent : (l.setLocation i .inSlot).rescuePresent r = true ↔ (slotOf r.source ≠ i → l.location (slotOf r.source) ≠ .absent)
      ∧ (slotOf p ≠ i → l.location (slotOf p) ≠ .absent) := by
    rw [rescuePresent_iff _ hp, Library.setLocation_location, Library.setLocation_location]
    grind
  have huses : r.usesSlot i = true ↔ slotOf r.source = i ∨ slotOf p = i := by
    rw [usesSlot_iff, hp]
    simp
  refine ⟨fun hs hi h1 h2 => ?_, fun h => ?_⟩
  · rw [if_pos ⟨hs, huses.mpr hi, hpresent.mpr ⟨h1, h2⟩⟩]
  · rw [if_neg]
    · exact hr
    · rintro ⟨-, -, hk⟩
      obtain ⟨k1, k2⟩ := hpresent.mp hk
      rcases h with ⟨h, hl⟩ | ⟨h, hl⟩
      · exact k1 h hl
      · exact k2 h hl

end Insertion

section Follows

variable {s : State} {i : Slot}

theorem look_seated {v w : Library} (h : v.picker.presence = w.picker.presence) (j : Slot) : v.seated j = w.seated j :=
  congrArg (fun v : Vector Bool 64 => look v j) h

theorem look_location {v w : Library} (h : v.picker.locations = w.picker.locations) (j : Slot) : v.location j = w.location j :=
  congrArg (fun v : Vector Location 64 => look v j) h

/-- R17, R176: a removal at an event of the slot's line. -/
theorem removed_ends (hs : s.env.startUp = none) (hseat : s.lib.seated i = true) (hloc : s.lib.location i = .inSlot) (hm : s.lib.moving i = false) :
    let a := s.begin.lib.presence s.env i false
    ∃ u, exec (.presenceChange i false) s = .next u ∧ Reacted s u s.env s.fee a
      ∧ u.lib.location i = .absent ∧ u.lib.seated i = false
      ∧ (∀ j, j ≠ i → u.lib.location j = s.lib.location j ∧ u.lib.seated j = s.lib.seated j)
      ∧ (∀ q, slotOf q = i → s.lib.role q = .blank → a.role q = .unlisted)
      ∧ (∀ q, (slotOf q ≠ i ∨ s.lib.role q ≠ .blank) → a.role q = s.lib.role q)
      ∧ a.care.queue = s.lib.care.queue.filter (fun q => slotOf q != i) ∧ (∀ q ∈ u.lib.care.queue, slotOf q ≠ i)
      ∧ (∀ q, (s.lib.inUseSide i) = some q → s.lib.log.first = none → KindSet.has s.env.mask .cartridgeMissing = false →
        u.lib.log.first = some ⟨.cartridgeMissing, (s.lib.role q).book?, some q, none, none, some i, none, s.env.day⟩)
      ∧ (∀ r, s.lib.care.rescue = some r → (slotOf r.source = i ∨ r.target.map slotOf = some i) →
        a.care.rescue = some { r with stopped := true } ∧ a.care.batch = none
        ∧ ∀ j, ∀ x ∈ a.items j, x.kind ≠ .rescueRead ∧ x.kind ≠ .rescueWrite)
      ∧ ((∀ r, s.lib.care.rescue = some r → slotOf r.source ≠ i ∧ r.target.map slotOf ≠ some i) →
        a.care.rescue = s.lib.care.rescue ∧ a.care.batch = s.lib.care.batch)
      ∧ a.books = s.lib.books ∧ a.care.health = s.lib.care.health ∧ (∀ t, a.entry t = s.lib.entry t) := by
  intro a
  obtain ⟨ms, ds, hv, -⟩ := vacated_rest s.begin.lib i
  have ha : a = (s.begin.lib.vacated i).removal s.env i := presence_removed s.env s.begin.lib hloc hm
  have hrole := removal_role s.env (s.begin.lib.vacated i) i
  have hfirst (q : Side) := removal_first (i := i) (q := q) s.env (s.begin.lib.vacated i)
  have hstops (r : RescueRecord) := removal_stops (i := i) (r := r) s.env (s.begin.lib.vacated i)
  have hkeeps := removal_batch (i := i) s.env (s.begin.lib.vacated i)
  obtain ⟨es, c, ls, b, g, hrest⟩ := removal_rest s.env (s.begin.lib.vacated i) i
  rw [← ha] at hrole hfirst hstops hkeeps hrest
  have hvrole (q : Side) : (s.begin.lib.vacated i).role q = s.lib.role q := by rw [hv]; rfl
  have hvrescue : (s.begin.lib.vacated i).care = s.lib.care := by rw [hv]; rfl
  have hvuse : (s.begin.lib.vacated i).inUseSide i = s.lib.inUseSide i := by rw [hv]; rfl
  simp only [hvrole, hvrescue, hvuse] at hrole hfirst hstops hkeeps
  have hr : Reacted s (State.react { s.begin with lib := a } s.begin.lib) s.env s.fee a := State.react_reacted rfl
  have hlocs : a.picker.locations = put s.lib.picker.locations i .absent := by rw [hrest, hv]; rfl
  have hpres : a.picker.presence = put s.lib.picker.presence i false := by rw [hrest, hv]; rfl
  have hl (j : Slot) : (State.react { s.begin with lib := a } s.begin.lib).lib.location j = if i = j then .absent else s.lib.location j :=
    (congrArg (fun v : Vector Location 64 => look v j) (hr.lib.locations.trans hlocs)).trans (look_put ..)
  have hp (j : Slot) : (State.react { s.begin with lib := a } s.begin.lib).lib.seated j = if i = j then false else s.lib.seated j :=
    (congrArg (fun v : Vector Bool 64 => look v j) (hr.lib.presence.trans hpres)).trans (look_put ..)
  have hqueue : a.care.queue = s.lib.care.queue.filter (fun q => slotOf q != i) := by rw [hrest, hv]; rfl
  refine ⟨_, exec_presenceChange hs hseat, hr, (hl i).trans (if_pos rfl), (hp i).trans (if_pos rfl),
    fun j hj => ⟨(hl j).trans (if_neg (Ne.symm hj)), (hp j).trans (if_neg (Ne.symm hj))⟩, fun q hq hb => (hrole q).trans (if_pos ⟨hq, hb⟩),
    fun q hq => (hrole q).trans (if_neg fun h => hq.elim (fun k => k h.1) fun k => k h.2), hqueue, fun q hq => ?_,
    fun q hq hlog hmask => hr.lib.first _ (hfirst q hq (by rw [hv]; exact hlog) hmask), fun r hrr hu => hstops r hrr (usesSlot_iff.mpr hu),
    fun h => hkeeps fun r hrr => ?_, by rw [hrest, hv]; rfl, by rw [hrest, hv]; rfl, fun t => by rw [hrest, hv]; rfl⟩
  · have := hr.lib.queue.subset hq
    rw [hqueue, List.mem_filter] at this
    exact bne_iff_ne.mp this.2
  · have := mt usesSlot_iff.mp (fun hu => hu.elim (h r hrr).1 (h r hrr).2)
    simpa using this

/-- R18, R176: an insertion at an event of the slot's line. -/
theorem inserted_ends (hs : s.env.startUp = none) (hseat : s.lib.seated i = false) (hloc : s.lib.location i = .absent) (hm : s.lib.moving i = false) :
    let a := s.begin.lib.presence s.env i true
    ∃ u, exec (.presenceChange i true) s = .next u ∧ Reacted s u s.env s.fee a
      ∧ u.lib.location i = .inSlot ∧ u.lib.seated i = true
      ∧ (∀ j, j ≠ i → u.lib.location j = s.lib.location j ∧ u.lib.seated j = s.lib.seated j)
      ∧ ((∃ q, slotOf q = i ∧ (s.lib.role q).inUse = true) → a.roles = s.lib.roles ∧ a.care.health = s.lib.care.health
        ∧ (∀ r p, s.lib.care.rescue = some r → r.target = some p → r.stopped = true → (slotOf r.source = i ∨ slotOf p = i) →
          (slotOf r.source ≠ i → s.lib.location (slotOf r.source) ≠ .absent) → (slotOf p ≠ i → s.lib.location (slotOf p) ≠ .absent) →
          a.care.rescue = some { r with stopped := false })
        ∧ (∀ r p, s.lib.care.rescue = some r → r.target = some p →
          ((slotOf r.source ≠ i ∧ s.lib.location (slotOf r.source) = .absent) ∨ (slotOf p ≠ i ∧ s.lib.location (slotOf p) = .absent)) →
          a.care.rescue = some r))
      ∧ ((∀ q, slotOf q = i → s.lib.role q = .unlisted ∨ ∃ b, s.lib.role q = .retired b) →
        (∀ q, slotOf q = i → a.role q = .unlisted ∧ a.health q = .zero)
        ∧ ∀ q, slotOf q ≠ i → a.role q = s.lib.role q ∧ a.health q = s.lib.health q)
      ∧ a.books = s.lib.books ∧ a.log = s.lib.log ∧ (∀ t, a.entry t = s.lib.entry t) := by
  intro a
  have ha : a = (s.begin.lib.setSeated i true).insertion i := presence_inserted s.env s.begin.lib hloc hm
  obtain ⟨rs, hh, rr, hrest, hused, hfree⟩ := insertion_rest (i := i) (s.begin.lib.setSeated i true)
  have hrescue (r : RescueRecord) (p : Side) := insertion_rescue (i := i) (r := r) (p := p) (s.begin.lib.setSeated i true)
  rw [← ha] at hrest hrescue
  have hr : Reacted s (State.react { s.begin with lib := a } s.begin.lib) s.env s.fee a := State.react_reacted rfl
  have hlocs : a.picker.locations = put s.lib.picker.locations i .inSlot := by rw [hrest]; rfl
  have hpres : a.picker.presence = put s.lib.picker.presence i true := by rw [hrest]; rfl
  have hl (j : Slot) : (State.react { s.begin with lib := a } s.begin.lib).lib.location j = if i = j then .inSlot else s.lib.location j :=
    (congrArg (fun v : Vector Location 64 => look v j) (hr.lib.locations.trans hlocs)).trans (look_put ..)
  have hp (j : Slot) : (State.react { s.begin with lib := a } s.begin.lib).lib.seated j = if i = j then true else s.lib.seated j :=
    (congrArg (fun v : Vector Bool 64 => look v j) (hr.lib.presence.trans hpres)).trans (look_put ..)
  have hroles : a.roles = rs := by rw [hrest]
  have hhealth : a.care.health = hh := by rw [hrest]
  have hrole (q : Side) : a.role q = look rs q := by rw [← hroles]; rfl
  have hmarks (q : Side) : a.health q = look hh q := by rw [← hhealth]; rfl
  refine ⟨_, exec_presenceChange hs hseat, hr, (hl i).trans (if_pos rfl), (hp i).trans (if_pos rfl),
    fun j hj => ⟨(hl j).trans (if_neg (Ne.symm hj)), (hp j).trans (if_neg (Ne.symm hj))⟩, fun hu => ⟨hroles.trans (hused hu).1,
      hhealth.trans (hused hu).2, fun r p hrr hpp => (hrescue r p hu hrr hpp).1, fun r p hrr hpp => (hrescue r p hu hrr hpp).2⟩,
    fun hf => ⟨fun q hq => ?_, fun q hq => ?_⟩, by rw [hrest]; rfl, by rw [hrest]; rfl, fun t => by rw [hrest]; rfl⟩
  · rw [hrole, hmarks]
    exact ⟨(hfree hf q).1.trans (if_pos hq), (hfree hf q).2.trans (if_pos hq)⟩
  · rw [hrole, hmarks]
    exact ⟨(hfree hf q).1.trans (if_neg hq), (hfree hf q).2.trans (if_neg hq)⟩

/-- Settles O30: the branches of the presence event. -/
theorem presenceFollowsLine : Obligations.PresenceFollowsLine := by
  refine ⟨fun s i hs hseat hloc hm => removed_ends hs hseat hloc hm, fun s i hs hseat hloc hm => inserted_ends hs hseat hloc hm,
    fun s i b h => ?_, fun s i b hs hseat haway => ?_⟩
  · have hsame : s.begin.lib.seated i = b := h
    show execPresenceChange i b s = _
    unfold execPresenceChange
    dsimp only
    rw [if_pos hsame]
  · have ha := presence_away s.env s.begin.lib b haway
    obtain ⟨ms, ds, hv, hof, hask, hself⟩ := vacated_rest s.begin.lib i
    have hr := State.react_reacted (s := s) (u := { s.begin with lib := s.begin.lib.presence s.env i b }) rfl
    refine ⟨_, s.begin.lib.presence s.env i b, exec_presenceChange hs hseat, hr, ?_⟩
    have hpres (h : (s.begin.lib.presence s.env i b).picker.presence = put s.lib.picker.presence i b) (j : Slot) :
        (State.react { s.begin with lib := s.begin.lib.presence s.env i b } s.begin.lib).lib.seated j = if i = j then b else s.lib.seated j :=
      (congrArg (fun v : Vector Bool 64 => look v j) (hr.lib.presence.trans h)).trans (look_put ..)
    have hlocs := hr.lib.locations
    dsimp only at hlocs
    cases b with
    | true =>
      rw [if_pos rfl] at ha
      have hp := hpres (by rw [ha]; rfl)
      rw [ha] at hlocs
      rw [ha] at hp ⊢
      refine ⟨(hp i).trans (if_pos rfl), fun j hj => (hp j).trans (if_neg (Ne.symm hj)), hlocs, fun _ => rfl, ⟨[], ?_, fun _ => rfl, nofun⟩,
        nofun, fun _ _ => rfl, rfl, rfl, rfl, rfl, fun _ => rfl⟩
      exact (List.append_nil _).symm
    | false =>
      rw [if_neg (by decide)] at ha
      have hp := hpres (by rw [ha, hv]; rfl)
      rw [ha] at hlocs
      rw [ha] at hp ⊢
      refine ⟨(hp i).trans (if_pos rfl), fun j hj => (hp j).trans (if_neg (Ne.symm hj)), hlocs.trans (by rw [hv]; rfl), nofun,
        ⟨ms, by rw [hv]; rfl, nofun, hof⟩, fun d q p _ h1 h2 h3 h4 => by rw [hv]; exact hask d q p h1 h2 h3 h4, fun d hd => by rw [hv]; exact hself d hd,
        by rw [hv]; rfl, by rw [hv]; rfl, by rw [hv]; rfl, by rw [hv]; rfl, fun t => by rw [hv]; rfl⟩

end Follows

end Sys2Proof.Machine
end

section
-- One declaration after the other: the stacks of the threads that wait for each other count against the check's memory limit.
set_option Elab.async false
namespace Sys2Proof.Machine

/-! # Timed events, the events of a decision, and its order -/

section Timed

variable {s : State} {c : Instr} {time : Nat}

theorem timedDecision_reacted (s : State) (time : Nat) : Reacted s (s.begin.timedDecision time) { s.env with now := max s.env.now time } s.fee
      { s.lib with scheduler := { s.lib.scheduler with decisionDue := true }, out := [] } :=
  State.react_reacted (s := s) (u := { s.begin.reach time with lib := (s.begin.reach time).lib.callDecision }) rfl

theorem hasDemand_of_demand {l : Library} {i : Side} {x : Item} (h : x ∈ l.demand i) : l.hasDemand i = true := by
  unfold Library.demand at h
  unfold Library.hasDemand Library.wants
  rw [Bool.or_eq_true, List.any_eq_true]
  rcases List.mem_append.mp h with h | h
  · exact .inr (by rw [Option.mem_toList] at h; rw [h]; rfl)
  · rw [List.mem_filter] at h
    exact .inl ⟨x, h.1, h.2⟩

theorem exec_timed (hs : s.env.startUp = none)
    (h : (∃ d i, c = .dwellExpiry d ∧ s.lib.mountedSide d = some i ∧ s.lib.hasDemand i = true ∧ time = (s.lib.drive d).mountTime + 20)
      ∨ (∃ i p, c = .demandAgeLimit i p ∧ (∃ x ∈ s.lib.demand i, x.placed = p) ∧ time = p + 90)
      ∨ (c = .patrolIdleTime ∧ (∀ i, s.lib.hasDemand i = false) ∧ time = s.lib.scheduler.quiet + 180)) :
    exec c s = .next (s.begin.timedDecision time) := by
  rcases h with ⟨d, i, rfl, hm, hd, rfl⟩ | ⟨i, p, rfl, ⟨x, hx, hp⟩, rfl⟩ | ⟨rfl, hall, rfl⟩
  · have hany : (s.begin.lib.mountedSide d).any s.begin.lib.hasDemand = true := by
      rw [show s.begin.lib.mountedSide d = some i from hm]
      exact hd
    show execDwellExpiry d s = _
    unfold execDwellExpiry
    rw [State.event_next _ hs, if_pos hany]
    rfl
  · have hany : ((s.begin.lib.demand i).any fun x => x.placed == p) = true := List.any_eq_true.mpr ⟨x, hx, beq_iff_eq.mpr hp⟩
    show execDemandAgeLimit i p s = _
    unfold execDemandAgeLimit
    rw [State.event_next _ hs, if_pos hany]
    rfl
  · have hany : ¬ allSides.any s.begin.lib.hasDemand = true := by
      rw [List.any_eq_true]
      rintro ⟨i, -, hi⟩
      exact absurd ((hall i).symm.trans hi) (by decide)
    show execPatrolIdleTime s = _
    unfold execPatrolIdleTime
    rw [State.event_next _ hs, if_neg hany]
    rfl

end Timed

section Events

variable (e : Env) (l was : Library)

/-- A vector of blocks as the list of its entries, in the order of their numbers. -/
theorem toList_eq_map {α : Type} {n : Nat} (v : Vector α n) : v.toList = (List.finRange n).map (look v) := by
  apply List.ext_getElem
  · simp
  · intro i h1 h2
    simp [look]

theorem zip_rows {α β : Type} {n : Nat} (v : Vector α n) (w : Vector β n) :
    (List.finRange n).zip (v.toList.zip w.toList) = (List.finRange n).map fun q => (q, look v q, look w q) := by
  rw [toList_eq_map, toList_eq_map, List.zip_map']
  conv_lhs => arg 1; rw [← List.map_id (List.finRange n)]
  rw [List.zip_map']
  rfl

theorem sideRows_any (p : Side × List Item × List Item → Bool) :
    (sideRows was l).any p = true ↔ ∃ q, p (q, was.items q, l.items q) = true := by
  have hrows : sideRows was l = allSides.map fun q => (q, was.items q, l.items q) := zip_rows was.scheduler.lists l.scheduler.lists
  rw [hrows, List.any_map, List.any_eq_true]
  exact ⟨fun ⟨q, _, h⟩ => ⟨q, h⟩, fun ⟨q, h⟩ => ⟨q, List.mem_finRange q, h⟩⟩

theorem placedUnmounted_iff :
    Library.placedUnmounted was l = true ↔ ∃ q, l.mountedIn q = none ∧ ∃ i ∈ l.items q, i ∉ was.items q ∧ i.kind ≠ .patrol := by
  have hpatrol (k : ItemKind) : k.isPatrol = false ↔ k ≠ .patrol := by cases k <;> simp [ItemKind.isPatrol]
  refine (sideRows_any l was _).trans (exists_congr fun q => ?_)
  simp only [Bool.and_eq_true, List.any_eq_true, Bool.not_eq_true', Option.isNone_iff_eq_none, List.contains_eq_mem, decide_eq_false_iff_not, hpatrol]
  grind

theorem lostDemand_iff :
    Library.lostDemand was l = true ↔ ∃ q, was.mountedIn q ≠ none ∧ l.mountedIn q ≠ none ∧ was.hasDemand q = true ∧ l.hasDemand q = false := by
  refine (sideRows_any l was _).trans (exists_congr fun q => ?_)
  simp only [Bool.and_eq_true, Bool.not_eq_true', Option.isSome_iff_ne_none, Library.hasDemand]
  grind

theorem slotOf_sideOf (i : Slot) (f : Face) : slotOf (sideOf i f) = i ∧ faceOf (sideOf i f) = f := by
  cases f <;> simp [slotOf, sideOf, faceOf, Fin.ext_iff] <;> omega

theorem sideOf_slotOf (q : Side) : sideOf (slotOf q) (faceOf q) = q := by
  unfold faceOf
  split <;> simp only [sideOf, slotOf, Fin.ext_iff] <;> omega

theorem availabilityMoved_iff : Library.availabilityMoved e was l = true ↔ ∃ q, was.available e q ≠ l.available e q := by
  have hlist (l : Library) : l.availability e = allSlots.map fun i => (l.available e (sideOf i .a), l.available e (sideOf i .b)) := by
    unfold Library.availability
    rw [show allSlots = List.finRange 64 from rfl, zip_rows, List.map_map]
    refine List.map_congr_left fun i _ => ?_
    unfold Library.available
    rw [(slotOf_sideOf i .a).1, (slotOf_sideOf i .a).2, (slotOf_sideOf i .b).1, (slotOf_sideOf i .b).2]
    rfl
  unfold Library.availabilityMoved
  rw [bne_iff_ne, hlist, hlist, Ne, List.map_inj_left]
  constructor
  · intro h
    by_contra hn
    push Not at hn
    exact h fun i _ => by rw [hn, hn]
  · rintro ⟨q, hq⟩ h
    have := h (slotOf q) (List.mem_finRange _)
    rw [Prod.mk.injEq] at this
    rw [← sideOf_slotOf q] at hq
    cases hf : faceOf q with
    | a => rw [hf] at hq; exact hq this.1
    | b => rw [hf] at hq; exact hq this.2

theorem driveFailed_iff : Library.driveFailed was l = true ↔ ∃ d, (was.drive d).state ≠ .failed ∧ (l.drive d).state = .failed := by
  unfold Library.driveFailed
  rw [List.any_eq_true]
  simp only [Bool.and_eq_true, beq_iff_eq, bne_iff_ne]
  exact ⟨fun ⟨d, _, h1, h2⟩ => ⟨d, h2, h1⟩, fun ⟨d, h1, h2⟩ => ⟨d, List.mem_finRange d, h2, h1⟩⟩

theorem pickerFree_iff : l.pickerFree = true ↔ l.picker.state = .idle ∧ l.picker.moves = [] := by
  simp [Library.pickerFree]

theorem startReturn_iff : l.startReturn = true ↔ ∃ m, (m ∈ l.picker.moves ∨ l.picker.record = some m) ∧ m.atStartUp = true := by
  unfold Library.startReturn
  rw [Bool.or_eq_true, List.any_eq_true, Option.any_eq_true]
  grind

/-- R137: where the examination of the patrol mount record goes. -/
theorem checkPatrolMount_cases : (l.checkPatrolMount e = l ∧ ((l.scheduler.patrolMount = none) ∨ (∃ s, l.scheduler.patrolMount = some s)))
    ∨ ((∃ s, l.scheduler.patrolMount = some s)
      ∧ l.checkPatrolMount e = { l with scheduler := { l.scheduler with patrolMount := none, decisionDue := true } }) := by
  unfold Library.checkPatrolMount
  cases h : l.scheduler.patrolMount with
  | none => exact .inl ⟨rfl, .inl rfl⟩
  | some s =>
    dsimp only
    split
    · exact .inl ⟨rfl, .inr ⟨s, rfl⟩⟩
    · exact .inr ⟨⟨s, rfl⟩, if_pos h⟩

theorem callDecision_if (b : Bool) : (if b then l.callDecision else l)
    = { l with scheduler := { l.scheduler with decisionDue := l.scheduler.decisionDue || b } } := by
  cases b with
  | true => rw [Bool.or_true]; rfl
  | false => rw [Bool.or_false]; rfl

theorem callPlacement_if (b : Bool) : (if b then l.callPlacement else l)
    = { l with scheduler := { l.scheduler with decisionDue := l.scheduler.decisionDue || (b && !l.startReturn) } } := by
  unfold Library.callPlacement
  cases b with
  | false => rw [Bool.false_and, Bool.or_false]; rfl
  | true =>
    rw [Bool.true_and]
    by_cases h : l.startReturn = true
    · rw [h, if_pos rfl, if_pos rfl, Bool.not_true, Bool.or_false]
    · have h : l.startReturn = false := by simpa using h
      rw [h, if_pos rfl, if_neg (by decide), Bool.not_false, Bool.or_true]
      rfl

/-- R131, R139: what the events since an earlier state call for. -/
theorem registerEvents_calls :
    let a := l.registerEvents e was
    (a.scheduler.decisionDue = true ↔ l.scheduler.decisionDue = true
      ∨ (¬ l.startReturn = true ∧ Library.placedUnmounted was l = true)
      ∨ Library.lostDemand was l = true ∨ Library.availabilityMoved e was l = true ∨ Library.driveFailed was l = true
      ∨ (l.pickerFree = true ∧ ¬ was.pickerFree = true)
      ∨ ((was.scheduler.patrolMount ≠ none ∨ l.scheduler.patrolMount ≠ none) ∧ a.scheduler.patrolMount = none))
    ∧ a.scheduler.lists = l.scheduler.lists ∧ a.picker = l.picker ∧ a.drives = l.drives := by
  intro a
  obtain ⟨m, hm, hmount, hdue⟩ : ∃ m, l.checkPatrolMount e = m
      ∧ m = { l with scheduler := { l.scheduler with patrolMount := m.scheduler.patrolMount, decisionDue := m.scheduler.decisionDue } }
      ∧ (m.scheduler.decisionDue = true ↔ l.scheduler.decisionDue = true ∨ (l.scheduler.patrolMount ≠ none ∧ m.scheduler.patrolMount = none)) := by
    rcases checkPatrolMount_cases e l with ⟨h, hp⟩ | ⟨⟨s, hp⟩, h⟩
    · refine ⟨_, h, rfl, ⟨.inl, fun h => h.elim id fun h => absurd h.2 h.1⟩⟩
    · exact ⟨_, h, rfl, ⟨fun _ => .inr ⟨by rw [hp]; exact nofun, rfl⟩, fun _ => rfl⟩⟩
  have hplaced : Library.placedUnmounted was m = Library.placedUnmounted was l := by rw [hmount]; rfl
  have hlost : Library.lostDemand was m = Library.lostDemand was l := by rw [hmount]; rfl
  have havail : Library.availabilityMoved e was m = Library.availabilityMoved e was l := by rw [hmount]; rfl
  have hfail : Library.driveFailed was m = Library.driveFailed was l := by rw [hmount]; rfl
  have hfree : m.pickerFree = l.pickerFree := by rw [hmount]; rfl
  have hret : m.startReturn = l.startReturn := by rw [hmount]; rfl
  obtain ⟨p, ha⟩ : ∃ p, a = { m with
      scheduler := { m.scheduler with decisionDue := (m.scheduler.decisionDue || Library.decisionEvent e was m)
        || (Library.placedUnmounted was m && !m.startReturn) },
      care := { m.care with patrolDue := p } } := by
    show ∃ p, l.registerEvents e was = _
    unfold Library.registerEvents
    dsimp only
    rw [hm, callDecision_if, callPlacement_if]
    split
    · exact ⟨true, rfl⟩
    · exact ⟨m.care.patrolDue, rfl⟩
  have hpm : a.scheduler.patrolMount = m.scheduler.patrolMount := by rw [ha]
  have hlists : m.scheduler.lists = l.scheduler.lists := by rw [hmount]
  have hpicker : m.picker = l.picker := by rw [hmount]
  have hdrives : m.drives = l.drives := by rw [hmount]
  refine ⟨?_, by rw [ha]; exact hlists, by rw [ha]; exact hpicker, by rw [ha]; exact hdrives⟩
  have hdue' : a.scheduler.decisionDue = ((m.scheduler.decisionDue || Library.decisionEvent e was m)
      || (Library.placedUnmounted was m && !m.startReturn)) := by rw [ha]
  have hgone : m.scheduler.patrolMount ≠ none → l.scheduler.patrolMount ≠ none := by
    rcases checkPatrolMount_cases e l with ⟨h, -⟩ | ⟨-, h⟩
    · rw [← hm, h]; exact id
    · rw [← hm, h]; exact fun h => absurd rfl h
  rw [hdue', hpm, hplaced, hret]
  unfold Library.decisionEvent
  rw [hlost, havail, hfail, hfree]
  simp only [Bool.or_eq_true, Bool.and_eq_true, Bool.not_eq_true', Option.isSome_iff_ne_none, Option.isNone_iff_eq_none, hdue]
  grind

/-- R131: no decision is taken in HOLD, in FAULTED or without a call. -/
theorem decide_waits (h : e.hold = true ∨ l.picker.state = .faulted ∨ l.scheduler.decisionDue = false) : l.decide e = l := by
  unfold Library.decide
  refine if_neg fun hn => ?_
  simp only [Bool.and_eq_true, Bool.not_eq_true', bne_iff_ne] at hn
  obtain ⟨⟨hdue, hhold⟩, hfaulted⟩ := hn
  rcases h with h | h | h
  · rw [h] at hhold; cases hhold
  · exact hfaulted h
  · rw [h] at hdue; cases hdue

end Events

end Sys2Proof.Machine
end

section
-- One declaration after the other: the stacks of the threads that wait for each other count against the check's memory limit.
set_option Elab.async false
namespace Sys2Proof.Machine

/-! # The choice of a drive -/

section Order

theorem keyBefore_iff (a b c a' b' c' : Nat) : keyBefore [a, b, c] [a', b', c'] = true
    ↔ a < a' ∨ (a = a' ∧ (b < b' ∨ (b = b' ∧ c < c'))) := by
  unfold keyBefore
  split
  next h => simp [h]
  next h =>
    split
    next h' => simp only [Bool.false_eq_true, false_iff]; omega
    next h' =>
      unfold keyBefore
      split
      next k => simp only [true_iff]; omega
      next k =>
        split
        next k' => simp only [Bool.false_eq_true, false_iff]; omega
        next k' =>
          unfold keyBefore
          split
          next j => simp only [true_iff]; omega
          next j => simp only [keyBefore, ite_self, Bool.false_eq_true, false_iff]; omega

variable {a b c : SideRank}

theorem before_iff : a.before b = true ↔ a.priority < b.priority
    ∨ (a.priority = b.priority ∧ (a.oldest < b.oldest ∨ (a.oldest = b.oldest ∧ a.side.val < b.side.val))) := keyBefore_iff ..

theorem before_trans (h : a.before b = true) (k : b.before c = true) : a.before c = true := by
  rw [before_iff] at *; omega

theorem before_irrefl (a : SideRank) : a.before a = false := by
  rw [Bool.eq_false_iff, Ne, before_iff]; omega

theorem before_total (h : ¬ a.before b = true) (hs : a.side ≠ b.side) : b.before a = true := by
  have : a.side.val ≠ b.side.val := fun h => hs (Fin.ext h)
  rw [before_iff] at *; omega

/-- A rank that comes before one that another does not follow. -/
theorem not_before_of_before (h : b.before a = true) (k : ¬ b.before c = true) : ¬ a.before c = true := fun hc => k (before_trans h hc)

theorem mem_insertRank {x : SideRank} {xs : List SideRank} : x ∈ insertRank a xs ↔ x = a ∨ x ∈ xs := by
  induction xs with
  | nil => simp [insertRank]
  | cons y ys ih =>
    unfold insertRank
    split
    · simp
    · rw [List.mem_cons, ih, List.mem_cons]; grind

theorem insertRank_pairwise {xs : List SideRank} (h : xs.Pairwise fun a b => a.before b = true) (hs : ∀ x ∈ xs, x.side ≠ a.side) :
    (insertRank a xs).Pairwise fun a b => a.before b = true := by
  induction xs with
  | nil => exact List.pairwise_singleton ..
  | cons y ys ih =>
    obtain ⟨hy, hys⟩ := List.pairwise_cons.mp h
    unfold insertRank
    split
    next hb =>
      refine List.pairwise_cons.mpr ⟨fun x hx => ?_, h⟩
      rcases List.mem_cons.mp hx with rfl | hx
      · exact hb
      · exact before_trans hb (hy x hx)
    next hb =>
      refine List.pairwise_cons.mpr ⟨fun x hx => ?_, ih hys fun x hx => hs x (List.mem_cons_of_mem _ hx)⟩
      rcases mem_insertRank.mp hx with rfl | hx
      · exact before_total hb (hs y List.mem_cons_self).symm
      · exact hy x hx

theorem mem_foldr_insertRank {x : SideRank} {xs : List SideRank} : x ∈ xs.foldr insertRank [] ↔ x ∈ xs := by
  induction xs with
  | nil => rfl
  | cons y ys ih => rw [List.foldr_cons, mem_insertRank, ih, List.mem_cons]

theorem foldr_insertRank_pairwise {xs : List SideRank} (h : (xs.map SideRank.side).Nodup) :
    (xs.foldr insertRank []).Pairwise fun a b => a.before b = true := by
  induction xs with
  | nil => exact List.Pairwise.nil
  | cons y ys ih =>
    obtain ⟨hy, hys⟩ := List.nodup_cons.mp h
    refine insertRank_pairwise (ih hys) fun x hx hs => hy ?_
    rw [← hs]
    exact List.mem_map_of_mem (mem_foldr_insertRank.mp hx)

end Order

section Rank

variable (e : Env) (l : Library) (i : Side)

/-- The least of a list's values, as a fold from its first one takes it. -/
theorem foldl_min_le {α : Type} (f : α → Nat) (xs : List α) (n : Nat) :
    xs.foldl (fun p x => min p (f x)) n ≤ n ∧ (∀ x ∈ xs, xs.foldl (fun p x => min p (f x)) n ≤ f x)
      ∧ (xs.foldl (fun p x => min p (f x)) n = n ∨ ∃ x ∈ xs, xs.foldl (fun p x => min p (f x)) n = f x) := by
  induction xs generalizing n with
  | nil => exact ⟨le_refl _, nofun, .inl rfl⟩
  | cons y ys ih =>
    obtain ⟨h1, h2, h3⟩ := ih (min n (f y))
    rw [List.foldl_cons]
    refine ⟨by omega, fun x hx => ?_, ?_⟩
    · rcases List.mem_cons.mp hx with rfl | hx
      · omega
      · exact h2 x hx
    · rcases h3 with h3 | ⟨x, hx, h3⟩
      · rcases Nat.le_total n (f y) with h | h
        · exact .inl (by omega)
        · exact .inr ⟨y, List.mem_cons_self, by omega⟩
      · exact .inr ⟨x, List.mem_cons_of_mem _ hx, h3⟩

theorem demand_of_hasDemand : l.hasDemand i = true ↔ l.demand i ≠ [] := by
  constructor
  · intro h hn
    unfold Library.hasDemand Library.wants at h
    unfold Library.demand at hn
    rw [List.append_eq_nil_iff, List.filter_eq_nil_iff] at hn
    rw [Bool.or_eq_true, List.any_eq_true] at h
    rcases h with ⟨x, hx, hk⟩ | h
    · exact hn.2 x hx hk
    · cases hv : l.serviceItem i with
      | none => rw [hv] at h; cases h
      | some v => rw [hv] at hn; exact absurd hn.1 (by simp)
  · intro h
    obtain ⟨x, hx⟩ := List.exists_mem_of_ne_nil _ h
    exact hasDemand_of_demand hx

theorem rank_none (h : l.hasDemand i = false) : l.rank e i = none := by
  have hd : l.demand i = [] := by
    by_contra hn
    rw [(demand_of_hasDemand l i).mpr hn] at h
    cases h
  unfold Library.rank
  rw [hd]

theorem rank_some (h : l.hasDemand i = true) : ∃ r, l.rank e i = some r ∧ r.side = i
    ∧ (∃ x ∈ l.demand i, x.priority e.now l.scheduler.escalation = r.priority) ∧ (∃ x ∈ l.demand i, x.placed = r.oldest)
    ∧ (∀ x ∈ l.demand i, r.priority ≤ x.priority e.now l.scheduler.escalation ∧ r.oldest ≤ x.placed)
    ∧ (r.aged = true ↔ ∃ x ∈ l.demand i, x.placed + 90 ≤ e.now) := by
  have hd := (demand_of_hasDemand l i).mp h
  unfold Library.rank
  cases hx : l.demand i with
  | nil => exact absurd hx hd
  | cons x rest =>
    obtain ⟨p1, p2, p3⟩ := foldl_min_le (fun j : Item => j.priority e.now l.scheduler.escalation) rest (x.priority e.now l.scheduler.escalation)
    obtain ⟨o1, o2, o3⟩ := foldl_min_le (fun j : Item => j.placed) rest x.placed
    refine ⟨_, rfl, rfl, ?_, ?_, fun y hy => ?_, ?_⟩
    · rcases p3 with p3 | ⟨y, hy, p3⟩
      · exact ⟨x, List.mem_cons_self, p3.symm⟩
      · exact ⟨y, List.mem_cons_of_mem _ hy, p3.symm⟩
    · rcases o3 with o3 | ⟨y, hy, o3⟩
      · exact ⟨x, List.mem_cons_self, o3.symm⟩
      · exact ⟨y, List.mem_cons_of_mem _ hy, o3.symm⟩
    · rcases List.mem_cons.mp hy with rfl | hy
      · exact ⟨p1, o1⟩
      · exact ⟨p2 y hy, o2 y hy⟩
    · show ((x :: rest).any (Item.aged e.now)) = true ↔ _
      rw [List.any_eq_true]
      exact exists_congr fun y => and_congr_right fun _ => decide_eq_true_iff

theorem rank_side {r : SideRank} (h : l.rank e i = some r) : r.side = i := by
  by_cases hd : l.hasDemand i = true
  · obtain ⟨r', hr, hs, -⟩ := rank_some e l i hd
    rw [hr] at h
    rw [← Option.some.inj h, hs]
  · rw [rank_none e l i (by simpa using hd)] at h
    cases h

theorem slotInMoves_eq_false (j : Slot) : l.slotInMoves j = false
    ↔ (∀ m ∈ l.picker.moves, m.slot ≠ j) ∧ ∀ m, l.picker.record = some m → m.slot ≠ j := by
  unfold Library.slotInMoves Library.moving
  rw [Bool.or_eq_false_iff, List.any_eq_false]
  cases l.picker.record <;> simp [and_comm]

/-- R128, R132: what makes a side a candidate. -/
def Library.ranked (e : Env) (l : Library) (q : Side) : Option SideRank :=
  match l.rank e q with
  | some r => if l.available e q && (l.mountedIn q).isNone && !l.slotInMoves (slotOf q) then some r else none
  | none => none

theorem ranked_iff {q : Side} {c : SideRank} : l.ranked e q = some c ↔ l.rank e q = some c ∧ l.available e q = true ∧ l.mountedIn q = none
    ∧ (∀ m ∈ l.picker.moves, m.slot ≠ slotOf q) ∧ ∀ m, l.picker.record = some m → m.slot ≠ slotOf q := by
  rw [← slotInMoves_eq_false]
  unfold Library.ranked
  cases l.rank e q with
  | none => simp
  | some r =>
    simp only [Option.ite_none_right_eq_some, Bool.and_eq_true, Bool.not_eq_true', Option.isNone_iff_eq_none, Option.some.injEq]
    grind

theorem candidates_eq : l.candidates e = (allSides.filterMap (l.ranked e)).foldr insertRank [] := rfl

theorem mem_candidates {c : SideRank} : c ∈ l.candidates e ↔ l.rank e c.side = some c ∧ l.available e c.side = true ∧ l.mountedIn c.side = none
    ∧ (∀ m ∈ l.picker.moves, m.slot ≠ slotOf c.side) ∧ ∀ m, l.picker.record = some m → m.slot ≠ slotOf c.side := by
  rw [← ranked_iff, candidates_eq, mem_foldr_insertRank, List.mem_filterMap]
  constructor
  · rintro ⟨q, -, h⟩
    obtain rfl := rank_side e l q ((ranked_iff e l).mp h).1
    exact h
  · exact fun h => ⟨c.side, List.mem_finRange _, h⟩

theorem candidates_pairwise : (l.candidates e).Pairwise fun a b => a.before b = true := by
  rw [candidates_eq]
  refine foldr_insertRank_pairwise ?_
  rw [List.map_filterMap]
  have hside (q q' : Side) (h : q' ∈ (l.ranked e q).map SideRank.side) : q' = q := by
    obtain ⟨r, hr, rfl⟩ := Option.mem_map.mp h
    exact rank_side e l q ((ranked_iff e l).mp hr).1
  refine (List.nodup_finRange 128).filterMap fun q q' x hx hx' => ?_
  rw [← hside q x hx, hside q' x hx']

end Rank

end Sys2Proof.Machine
end

section
-- One declaration after the other: the stacks of the threads that wait for each other count against the check's memory limit.
set_option Elab.async false
namespace Sys2Proof.Machine

section Choice

variable {e : Env} {l : Library} {given : List Drive} {c : SideRank} {d : Drive}

/-- The first of an ascending list of numbers with a property is the lowest one. -/
theorem find_lowest {n : Nat} (xs : List (Fin n)) (hx : xs.Pairwise (· < ·)) (p : Fin n → Bool) (d : Fin n) :
    xs.find? p = some d ↔ d ∈ xs ∧ p d = true ∧ ∀ d', d' < d → d' ∈ xs → ¬ p d' = true := by
  induction xs with
  | nil => simp
  | cons y ys ih =>
    obtain ⟨hy, hys⟩ := List.pairwise_cons.mp hx
    rw [List.find?_cons]
    by_cases hp : p y = true
    · rw [hp]
      constructor
      · rintro ⟨⟩
        refine ⟨List.mem_cons_self, hp, fun d' hd' hm => ?_⟩
        rcases List.mem_cons.mp hm with rfl | hm
        · exact absurd hd' (lt_irrefl _)
        · exact absurd (hy d' hm) (lt_asymm hd')
      · rintro ⟨hm, hd, hlow⟩
        rcases List.mem_cons.mp hm with rfl | hm
        · rfl
        · exact absurd hp (hlow y (hy d hm) List.mem_cons_self)
    · have hp' : p y = false := by simpa using hp
      rw [hp']
      refine (ih hys).trans ⟨?_, ?_⟩
      · rintro ⟨hm, hd, hlow⟩
        refine ⟨List.mem_cons_of_mem _ hm, hd, fun d' hd' hm' => ?_⟩
        rcases List.mem_cons.mp hm' with rfl | hm'
        · exact hp
        · exact hlow d' hd' hm'
      · rintro ⟨hm, hd, hlow⟩
        rcases List.mem_cons.mp hm with rfl | hm
        · exact absurd hd hp
        · exact ⟨hm, hd, fun d' hd' hm' => hlow d' hd' (List.mem_cons_of_mem _ hm')⟩

/-- R133: a drive that is used less recently than another, or as recently with the lower number. -/
def Library.usedLess (l : Library) (d d' : Drive) : Prop :=
  (l.drive d).lastUse < (l.drive d').lastUse ∨ ((l.drive d).lastUse = (l.drive d').lastUse ∧ d ≤ d')

/-- R133: the choice of the least recently used drive, from a best one on. -/
theorem leastUsed_from (l : Library) (xs : List Drive) (b : Drive) (hb : ∀ x ∈ xs, b < x) (hx : xs.Pairwise (· < ·)) :
    ∃ r, xs.foldl (fun best d => match best with
      | some b => if (l.drive d).lastUse < (l.drive b).lastUse then some d else best
      | none => some d) (some b) = some r ∧ (r = b ∨ r ∈ xs) ∧ l.usedLess r b ∧ ∀ x ∈ xs, l.usedLess r x := by
  induction xs generalizing b with
  | nil => exact ⟨b, rfl, .inl rfl, .inr ⟨rfl, le_refl _⟩, nofun⟩
  | cons y ys ih =>
    obtain ⟨hy, hys⟩ := List.pairwise_cons.mp hx
    have hby := hb y List.mem_cons_self
    rw [List.foldl_cons]
    by_cases h : (l.drive y).lastUse < (l.drive b).lastUse
    · obtain ⟨r, hr, hm, hle, hall⟩ := ih y hy hys
      refine ⟨r, ?_, .inr ?_, ?_, fun x hx => ?_⟩
      · rw [← hr]
        exact congrArg (fun z => List.foldl _ z ys) (if_pos h)
      · exact hm.elim (fun h => h ▸ List.mem_cons_self) fun h => List.mem_cons_of_mem _ h
      · unfold Library.usedLess at *
        rcases hle with hle | ⟨hle, -⟩ <;> exact .inl (by omega)
      · rcases List.mem_cons.mp hx with rfl | hx
        · exact hle
        · exact hall x hx
    · obtain ⟨r, hr, hm, hle, hall⟩ := ih b (fun x hx => hb x (List.mem_cons_of_mem _ hx)) hys
      refine ⟨r, ?_, hm.imp id fun h => List.mem_cons_of_mem _ h, hle, fun x hx => ?_⟩
      · rw [← hr]
        exact congrArg (fun z => List.foldl _ z ys) (if_neg h)
      · rcases List.mem_cons.mp hx with rfl | hx
        · unfold Library.usedLess at *
          rcases hle with hle | ⟨hle, hlt⟩
          · exact .inl (by omega)
          · by_cases heq : (l.drive b).lastUse = (l.drive x).lastUse
            · exact .inr ⟨hle.trans heq, hlt.trans hby.le⟩
            · exact .inl (by omega)
        · exact hall x hx

theorem leastUsed_iff (l : Library) (xs : List Drive) (hx : xs.Pairwise (· < ·)) (d : Drive) :
    l.leastUsed xs = some d ↔ d ∈ xs ∧ ∀ x ∈ xs, l.usedLess d x := by
  have hunique {r d : Drive} (h : l.usedLess r d) (k : l.usedLess d r) : r = d := by
    unfold Library.usedLess at *
    rcases h with h | ⟨h', h⟩ <;> rcases k with k | ⟨k', k⟩
    · omega
    · omega
    · omega
    · exact le_antisymm h k
  cases xs with
  | nil => simp [Library.leastUsed]
  | cons y ys =>
    obtain ⟨hy, hys⟩ := List.pairwise_cons.mp hx
    obtain ⟨r, hr, hm, hle, hall⟩ := leastUsed_from l ys y hy hys
    have hrmem : r ∈ y :: ys := hm.elim (fun h => h ▸ List.mem_cons_self) fun h => List.mem_cons_of_mem _ h
    have hrall : ∀ x ∈ y :: ys, l.usedLess r x := fun x hx => (List.mem_cons.mp hx).elim (fun h => h ▸ hle) (hall x)
    have heq : l.leastUsed (y :: ys) = some r := hr
    rw [heq, Option.some.injEq]
    exact ⟨fun h => h ▸ ⟨hrmem, hrall⟩, fun h => hunique (hrall d h.1) (h.2 r hrmem)⟩

/-- R133, step 4: the drive whose side ranks last, from a best one on. -/
theorem lastRanked_from (xs : List (Drive × SideRank)) (b : Drive × SideRank) :
    ∃ r, xs.foldl (fun best x => match best with
      | some b => if b.2.before x.2 then some x else best
      | none => some x) (some b) = some r ∧ (r = b ∨ r ∈ xs) ∧ ¬ r.2.before b.2 = true ∧ ∀ x ∈ xs, ¬ r.2.before x.2 = true := by
  induction xs generalizing b with
  | nil => exact ⟨b, rfl, .inl rfl, by rw [before_irrefl]; decide, nofun⟩
  | cons y ys ih =>
    rw [List.foldl_cons]
    by_cases h : b.2.before y.2 = true
    · obtain ⟨r, hr, hm, hle, hall⟩ := ih y
      refine ⟨r, ?_, .inr ?_, ?_, fun x hx => ?_⟩
      · rw [← hr]
        exact congrArg (fun z => List.foldl _ z ys) (if_pos h)
      · exact hm.elim (fun h => h ▸ List.mem_cons_self) fun h => List.mem_cons_of_mem _ h
      · exact fun hrb => hle (before_trans hrb h)
      · rcases List.mem_cons.mp hx with rfl | hx
        · exact hle
        · exact hall x hx
    · obtain ⟨r, hr, hm, hle, hall⟩ := ih b
      refine ⟨r, ?_, hm.imp id fun h => List.mem_cons_of_mem _ h, hle, fun x hx => ?_⟩
      · rw [← hr]
        exact congrArg (fun z => List.foldl _ z ys) (if_neg h)
      · rcases List.mem_cons.mp hx with rfl | hx
        · intro hrx
          rw [before_iff] at *
          omega
        · exact hall x hx

theorem lastRanked_some (xs : List (Drive × SideRank)) (d : Drive) (h : lastRanked xs = some d) :
    ∃ r, (d, r) ∈ xs ∧ ∀ x ∈ xs, ¬ r.before x.2 = true := by
  cases xs with
  | nil => cases h
  | cons y ys =>
    obtain ⟨r, hr, hm, hle, hall⟩ := lastRanked_from ys y
    have heq : lastRanked (y :: ys) = some r.1 := congrArg (Option.map Prod.fst) hr
    rw [heq] at h
    obtain rfl := Option.some.inj h
    exact ⟨r.2, hm.elim (fun h => h ▸ List.mem_cons_self) fun h => List.mem_cons_of_mem _ h,
      fun x hx => (List.mem_cons.mp hx).elim (fun h => h ▸ hle) (hall x)⟩

theorem lastRanked_none (xs : List (Drive × SideRank)) : lastRanked xs = none ↔ xs = [] := by
  cases xs with
  | nil => simp [lastRanked]
  | cons y ys =>
    obtain ⟨r, hr, -⟩ := lastRanked_from ys y
    have heq : lastRanked (y :: ys) = some r.1 := congrArg (Option.map Prod.fst) hr
    rw [heq]
    simp

/-- R133: the drives that a candidate can be given, in ascending order. -/
def Library.freeDrives (e : Env) (l : Library) (given : List Drive) (i : Side) : List Drive :=
  match l.faceBound i with
  | some b => (allDrives.filter fun d => e.hasDrive d && (l.drive d).state != .failed && !given.contains d).filter fun x => x == b
  | none => allDrives.filter fun d => e.hasDrive d && (l.drive d).state != .failed && !given.contains d

theorem mem_freeDrives {i : Side} : d ∈ l.freeDrives e given i ↔ FreeDrive e l given i d := by
  have hmem : d ∈ (allDrives.filter fun d => e.hasDrive d && (l.drive d).state != .failed && !given.contains d)
      ↔ d.val < e.configured ∧ (l.drive d).state ≠ .failed ∧ d ∉ given := by
    rw [List.mem_filter]
    simp [allDrives, Env.hasDrive, and_assoc]
  unfold Library.freeDrives FreeDrive
  cases l.faceBound i with
  | none => rw [hmem]; simp
  | some b => rw [List.mem_filter, hmem]; simp [and_assoc]

theorem freeDrives_pairwise (i : Side) : (l.freeDrives e given i).Pairwise (· < ·) := by
  have h : allDrives.Pairwise (· < ·) := List.pairwise_lt_finRange 4
  unfold Library.freeDrives
  split
  · exact (h.filter _).filter _
  · exact h.filter _

theorem findDrive_eq (e : Env) (l : Library) (given : List Drive) (c : SideRank) : l.findDrive e given c
    = match (if (l.faceBound c.side).isSome then none else l.giftEmpty (l.freeDrives e given c.side)) with
    | some d => some (.empty d)
    | none =>
      match (l.freeDrives e given c.side).find? fun d => (l.drive d).vacating with
      | some d => some (.vacating d)
      | none =>
        match l.leastUsed (l.idleDrives (l.freeDrives e given c.side)) with
        | some d => some (.idle d)
        | none => (lastRanked (l.busyDrives e (l.freeDrives e given c.side) c)).map .busy := by
  unfold Library.findDrive Library.freeDrives
  cases l.faceBound c.side <;> rfl

theorem giftEmpty_iff (i : Side) : (if (l.faceBound i).isSome then none else l.giftEmpty (l.freeDrives e given i)) = some d
    ↔ FreeDrive e l given i d ∧ EmptyDrive l i d ∧ ∀ d', d' < d → FreeDrive e l given i d' → ¬ EmptyDrive l i d' := by
  by_cases hb : (l.faceBound i).isSome = true
  · rw [if_pos hb]
    refine ⟨nofun, fun ⟨_, h, _⟩ => ?_⟩
    rw [h.1] at hb
    cases hb
  · rw [if_neg hb]
    have hbound : l.faceBound i = none := by simpa using hb
    have hp (x : Drive) : ((l.drive x).state == .empty && !(l.picker.moves.any fun m => m.drive? == some x)
        && !(l.picker.record.any fun m => m.drive? == some x)) = true ↔ EmptyDrive l i x := by
      unfold EmptyDrive
      cases l.picker.record <;> simp [hbound, and_assoc]
    refine (find_lowest _ (freeDrives_pairwise i) _ d).trans ?_
    simp only [hp, mem_freeDrives]

theorem findDrive_empty : l.findDrive e given c = some (.empty d)
    ↔ (if (l.faceBound c.side).isSome then none else l.giftEmpty (l.freeDrives e given c.side)) = some d := by
  rw [findDrive_eq]
  generalize (if (l.faceBound c.side).isSome then none else l.giftEmpty (l.freeDrives e given c.side)) = o
  cases o with
  | some d' => simp
  | none =>
    dsimp only
    split
    · simp
    · split
      · simp
      · simp

theorem noGift_iff (i : Side) : (if (l.faceBound i).isSome then none else l.giftEmpty (l.freeDrives e given i)) = none
    ↔ ∀ d, FreeDrive e l given i d → ¬ EmptyDrive l i d := by
  constructor
  · intro h d hf he
    have hfind (n : Nat) : ∀ d : Drive, d.val = n → FreeDrive e l given i d → EmptyDrive l i d → False := by
      induction n using Nat.strong_induction_on with
      | _ n ih =>
        intro d hd hf he
        have := (giftEmpty_iff i).mpr ⟨hf, he, fun d' hlt hf' he' => ih d'.val (by rw [← hd]; exact hlt) d' rfl hf' he'⟩
        rw [h] at this
        cases this
    exact hfind _ d rfl hf he
  · intro h
    rw [Option.eq_none_iff_forall_ne_some]
    intro d hd
    obtain ⟨hf, he, -⟩ := (giftEmpty_iff i).mp hd
    exact h d hf he

theorem vacating_iff : (l.drive d).vacating = true ↔ VacatingDrive l d := by
  simp [DriveRecord.vacating, VacatingDrive]

theorem idleDrives_iff (i : Side) : d ∈ l.idleDrives (l.freeDrives e given i) ↔ FreeDrive e l given i d ∧ IdleDrive l d := by
  unfold Library.idleDrives IdleDrive
  rw [List.mem_filter, mem_freeDrives]
  cases l.mountedSide d <;> simp [or_assoc]

theorem strictlyBetter_iff {r : SideRank} : c.strictlyBetter r = true
    ↔ c.priority < r.priority ∨ (c.priority = 1 ∧ r.priority = 1 ∧ c.aged = true ∧ r.aged = false) := by
  simp [SideRank.strictlyBetter, and_assoc]

theorem mem_busyDrives (i : Side) (hv : ∀ d, FreeDrive e l given i d → ¬ VacatingDrive l d) {r : SideRank} :
    (d, r) ∈ l.busyDrives e (l.freeDrives e given i) c ↔ FreeDrive e l given i d ∧ BusyDrive e l c r d := by
  unfold Library.busyDrives BusyDrive
  rw [List.mem_filterMap, ← strictlyBetter_iff]
  simp only [mem_freeDrives]
  constructor
  · rintro ⟨x, hx, h⟩
    split at h
    next hs =>
      rw [Bool.and_eq_true, Bool.and_eq_true, decide_eq_true_iff] at hs
      cases hm : (l.mountedSide x).bind (l.rank e) with
      | none => rw [hm] at h; cases h
      | some m =>
        rw [hm] at h
        dsimp only at h
        split at h
        next hb =>
          obtain ⟨rfl, rfl⟩ := Prod.mk.inj (Option.some.inj h)
          refine ⟨hx, ?_, hs.2, ?_, hb⟩
          · simpa [or_assoc] using hs.1.1
          · obtain ⟨j, hj, hjr⟩ := Option.bind_eq_some_iff.mp hm
            exact ⟨j, hj, hjr⟩
        next => cases h
    next => cases h
  · rintro ⟨hf, hs, ht, ⟨j, hj, hjr⟩, hb⟩
    refine ⟨d, hf, ?_⟩
    have hnv : (l.drive d).vacating = false := by
      have := mt vacating_iff.mp (hv d hf)
      simpa using this
    rw [if_pos ?_, hj]
    · show (match l.rank e j with | some m => if c.strictlyBetter m then some (d, m) else none | none => none) = _
      rw [hjr]
      exact if_pos hb
    · rw [hnv]
      simp only [Bool.not_false, Bool.and_true, Bool.and_eq_true, decide_eq_true_iff]
      exact ⟨by simpa [or_assoc] using hs, ht⟩

end Choice

end Sys2Proof.Machine
end

section
-- One declaration after the other: the stacks of the threads that wait for each other count against the check's memory limit.
set_option Elab.async false
namespace Sys2Proof.Machine

section Found

variable {e : Env} {l : Library} {given : List Drive} {c : SideRank}

theorem mem_of_busyDrives {ds : List Drive} {d : Drive} {r : SideRank} (h : (d, r) ∈ l.busyDrives e ds c) : d ∈ ds := by
  unfold Library.busyDrives at h
  obtain ⟨x, hx, hxr⟩ := List.mem_filterMap.mp h
  dsimp only at hxr
  generalize (l.mountedSide x).bind (l.rank e) = o at hxr
  have hxd : x = d := by
    cases o with
    | none => exact absurd hxr (by simp)
    | some m =>
      dsimp only at hxr
      split at hxr
      · split at hxr
        · exact (Prod.mk.inj (Option.some.inj hxr)).1
        · cases hxr
      · cases hxr
  exact hxd ▸ hx

/-- R133: a gift takes a drive that a candidate can be given. -/
theorem findDrive_free (e : Env) (l : Library) (given : List Drive) (c : SideRank) (g : Gift) (h : l.findDrive e given c = some g) :
    FreeDrive e l given c.side g.drive := by
  rw [findDrive_eq] at h
  cases hg : (if (l.faceBound c.side).isSome then none else l.giftEmpty (l.freeDrives e given c.side)) with
  | some d =>
    rw [hg] at h
    obtain rfl := Option.some.inj h
    exact ((giftEmpty_iff c.side).mp hg).1
  | none =>
    rw [hg] at h
    cases hv : (l.freeDrives e given c.side).find? fun d => (l.drive d).vacating with
    | some d =>
      rw [hv] at h
      obtain rfl := Option.some.inj h
      exact mem_freeDrives.mp (List.mem_of_find?_eq_some hv)
    | none =>
      rw [hv] at h
      cases hi : l.leastUsed (l.idleDrives (l.freeDrives e given c.side)) with
      | some d =>
        rw [hi] at h
        obtain rfl := Option.some.inj h
        exact ((idleDrives_iff c.side).mp ((leastUsed_iff l _ ((freeDrives_pairwise c.side).filter _) d).mp hi).1).1
      | none =>
        rw [hi] at h
        obtain ⟨d, hd, rfl⟩ := Option.map_eq_some_iff.mp h
        obtain ⟨r, hr, -⟩ := lastRanked_some _ d hd
        exact mem_freeDrives.mp (mem_of_busyDrives hr)

/-- R133: the four steps of the choice of a drive. -/
theorem findDrive_steps (e : Env) (l : Library) (given : List Drive) (c : SideRank) :
    let free := FreeDrive e l given c.side
    (∀ d, l.findDrive e given c = some (.empty d) ↔ free d ∧ EmptyDrive l c.side d ∧ ∀ d', d' < d → free d' → ¬ EmptyDrive l c.side d')
    ∧ ((∀ d, free d → ¬ EmptyDrive l c.side d) →
      (∀ d, l.findDrive e given c = some (.vacating d) ↔ free d ∧ VacatingDrive l d ∧ ∀ d', d' < d → free d' → ¬ VacatingDrive l d')
      ∧ ((∀ d, free d → ¬ VacatingDrive l d) →
        (∀ d, l.findDrive e given c = some (.idle d) ↔ free d ∧ IdleDrive l d ∧ ∀ d', free d' → IdleDrive l d' →
          (l.drive d).lastUse < (l.drive d').lastUse ∨ ((l.drive d).lastUse = (l.drive d').lastUse ∧ d ≤ d'))
        ∧ ((∀ d, free d → ¬ IdleDrive l d) →
          (∀ d, l.findDrive e given c = some (.busy d) → free d ∧ ∃ r, BusyDrive e l c r d
            ∧ ∀ d' r', free d' → BusyDrive e l c r' d' → r.before r' = false)
          ∧ ((∀ d r, free d → ¬ BusyDrive e l c r d) ↔ l.findDrive e given c = none)))) := by
  intro free
  refine ⟨fun d => findDrive_empty.trans (giftEmpty_iff c.side), fun hempty => ?_⟩
  have h1 := findDrive_eq e l given c
  rw [(noGift_iff c.side).mpr hempty] at h1
  have hlow := freeDrives_pairwise (e := e) (l := l) (given := given) c.side
  have hvac (d : Drive) : (l.freeDrives e given c.side).find? (fun d => (l.drive d).vacating) = some d
      ↔ free d ∧ VacatingDrive l d ∧ ∀ d', d' < d → free d' → ¬ VacatingDrive l d' := by
    refine (find_lowest _ hlow _ d).trans ?_
    simp only [vacating_iff, mem_freeDrives]
    rfl
  have hidle (d : Drive) : l.leastUsed (l.idleDrives (l.freeDrives e given c.side)) = some d
      ↔ free d ∧ IdleDrive l d ∧ ∀ d', free d' → IdleDrive l d' → l.usedLess d d' := by
    refine (leastUsed_iff l (l.idleDrives (l.freeDrives e given c.side)) (hlow.filter _) d).trans ?_
    have hmem (x : Drive) : x ∈ l.idleDrives (l.freeDrives e given c.side) ↔ free x ∧ IdleDrive l x := idleDrives_iff c.side
    simp only [hmem, and_assoc, and_imp]
  refine ⟨fun d => ?_, fun hno => ?_⟩
  · rw [← hvac d, h1]
    generalize (l.freeDrives e given c.side).find? (fun d => (l.drive d).vacating) = o
    cases o with
    | some d' => simp
    | none =>
      generalize l.leastUsed _ = o
      cases o <;> simp
  · have hnone : (l.freeDrives e given c.side).find? (fun d => (l.drive d).vacating) = none := by
      rw [Option.eq_none_iff_forall_ne_some]
      exact fun d hd => hno d ((hvac d).mp hd).1 ((hvac d).mp hd).2.1
    rw [hnone] at h1
    refine ⟨fun d => ?_, fun hnot => ?_⟩
    · refine Iff.trans ?_ (hidle d)
      rw [h1]
      generalize l.leastUsed (l.idleDrives (l.freeDrives e given c.side)) = o
      cases o <;> simp
    · have hnone : l.leastUsed (l.idleDrives (l.freeDrives e given c.side)) = none := by
        rw [Option.eq_none_iff_forall_ne_some]
        exact fun d hd => hnot d ((hidle d).mp hd).1 ((hidle d).mp hd).2.1
      rw [hnone] at h1
      have hbusy (d : Drive) (r : SideRank) : (d, r) ∈ l.busyDrives e (l.freeDrives e given c.side) c ↔ free d ∧ BusyDrive e l c r d :=
        mem_busyDrives c.side hno
      refine ⟨fun d hd => ?_, ?_⟩
      · rw [h1] at hd
        obtain ⟨d', hd', hdd⟩ := Option.map_eq_some_iff.mp hd
        obtain rfl : d' = d := by injection hdd
        obtain ⟨r, hr, hlast⟩ := lastRanked_some _ d' hd'
        exact ⟨((hbusy d' r).mp hr).1, r, ((hbusy d' r).mp hr).2, fun d'' r' hf hb => by simpa using hlast _ ((hbusy d'' r').mpr ⟨hf, hb⟩)⟩
      · rw [h1, Option.map_eq_none_iff, lastRanked_none, List.eq_nil_iff_forall_not_mem]
        exact ⟨fun h x hx => h x.1 x.2 ((hbusy x.1 x.2).mp hx).1 ((hbusy x.1 x.2).mp hx).2, fun h d r hf hb => h (d, r) ((hbusy d r).mpr ⟨hf, hb⟩)⟩

end Found

section Give

variable (e : Env) (l : Library)

theorem dropPatrolMount_gone (j : Side) (h : l.scheduler.patrolMount = some j) : (l.dropPatrolMount j).scheduler.patrolMount = none := by
  unfold Library.dropPatrolMount
  rw [if_pos h]

/-- R111: a drive that is chosen to unload. -/
theorem chooseUnload_leaves (d : Drive) : ((l.chooseUnload e d).drive d).unload = true
    ∧ (∀ d', d' ≠ d → (l.chooseUnload e d).drive d' = l.drive d')
    ∧ ((l.drive d).state = .ready → ((l.chooseUnload e d).drive d).state = .spinDown)
    ∧ ((l.drive d).state ≠ .ready → ((l.chooseUnload e d).drive d).state = (l.drive d).state)
    ∧ ((l.drive d).state ≠ .stopped → (l.chooseUnload e d).picker = l.picker)
    ∧ (l.chooseUnload e d).scheduler = l.scheduler := by
  obtain ⟨m, hm⟩ : ∃ m, (l.setDrive d { l.drive d with unload := true }).callPatrol = m := ⟨_, rfl⟩
  have hd (d' : Drive) : m.drive d' = if d = d' then { l.drive d with unload := true } else l.drive d' := by
    rw [← hm]
    exact Library.setDrive_drive ..
  have hstate : (m.drive d).state = (l.drive d).state := by rw [hd, if_pos rfl]
  have hpicker : m.picker = l.picker := by rw [← hm]; rfl
  have hsched : m.scheduler = l.scheduler := by rw [← hm]; rfl
  have hother (d' : Drive) (h : d' ≠ d) : m.drive d' = l.drive d' := (hd d').trans (if_neg (Ne.symm h))
  have heq : l.chooseUnload e d = match (l.drive d).state with
      | .ready => m.sendSpinDown e d
      | .stopped => m.askUnload d
      | _ => m := by
    unfold Library.chooseUnload
    dsimp only
    rw [hm, hstate] <;> rfl
  have hplain (h : l.chooseUnload e d = m) (hr : (l.drive d).state ≠ .ready) : ((l.chooseUnload e d).drive d).unload = true
      ∧ (∀ d', d' ≠ d → (l.chooseUnload e d).drive d' = l.drive d')
      ∧ ((l.drive d).state = .ready → ((l.chooseUnload e d).drive d).state = .spinDown)
      ∧ ((l.drive d).state ≠ .ready → ((l.chooseUnload e d).drive d).state = (l.drive d).state)
      ∧ ((l.drive d).state ≠ .stopped → (l.chooseUnload e d).picker = l.picker)
      ∧ (l.chooseUnload e d).scheduler = l.scheduler := by
    rw [h]
    exact ⟨by rw [hd, if_pos rfl], hother, fun k => absurd k hr, fun _ => hstate, fun _ => hpicker, hsched⟩
  cases hs : (l.drive d).state with
  | ready =>
    rw [hs] at heq
    have hself : (m.sendSpinDown e d).drive d = { m.drive d with state := .spinDown, limitStart := e.now } := Library.setDrive_drive_same ..
    rw [heq]
    refine ⟨by rw [hself, hd, if_pos rfl], fun d' h => ?_, fun _ => by rw [hself], fun h => absurd rfl h, fun _ => hpicker, hsched⟩
    exact (Library.setDrive_drive ..).trans ((if_neg (Ne.symm h)).trans (hother d' h))
  | stopped =>
    rw [hs] at heq
    obtain ⟨ms, hask, -⟩ := askUnload_rest m d
    have hdrives (d' : Drive) : (m.askUnload d).drive d' = m.drive d' := by rw [hask]; rfl
    rw [heq]
    refine ⟨by rw [hdrives, hd, if_pos rfl], fun d' h => (hdrives d').trans (hother d' h), nofun, fun _ => by rw [hdrives, hstate, hs],
      fun h => absurd rfl h, by rw [hask]; exact hsched⟩
  | empty | loading | spinUp | active | spinDown | unloading | failed =>
    rw [hs] at heq
    have := hplain heq (by rw [hs]; decide)
    rwa [hs] at this

/-- R134, R137: a drive that is taken from its mounted side. -/
theorem takeDrive_leaves (d : Drive) : ((l.takeDrive e d).drive d).unload = true
    ∧ (∀ d', d' ≠ d → (l.takeDrive e d).drive d' = l.drive d')
    ∧ ((l.drive d).state = .ready → ((l.takeDrive e d).drive d).state = .spinDown)
    ∧ ((l.drive d).state ≠ .ready → ((l.takeDrive e d).drive d).state = (l.drive d).state)
    ∧ ((l.drive d).state ≠ .stopped → (l.takeDrive e d).picker = l.picker)
    ∧ (∀ j, l.mountedSide d = some j → l.scheduler.patrolMount = some j → (l.takeDrive e d).scheduler.patrolMount = none) := by
  cases hm : l.mountedSide d with
  | none =>
    have heq : l.takeDrive e d = l.chooseUnload e d := by
      unfold Library.takeDrive
      rw [hm]
    obtain ⟨h1, h2, h3, h4, h5, -⟩ := chooseUnload_leaves e l d
    rw [heq]
    exact ⟨h1, h2, h3, h4, h5, nofun⟩
  | some i =>
    have heq : l.takeDrive e d = (l.dropPatrolMount i).chooseUnload e d := by
      unfold Library.takeDrive
      rw [hm]
    obtain ⟨p, q, hdrop⟩ := dropPatrolMount_rest (l := l) i
    have hdrive (d' : Drive) : (l.dropPatrolMount i).drive d' = l.drive d' := by rw [hdrop]; rfl
    have hpicker : (l.dropPatrolMount i).picker = l.picker := by rw [hdrop]
    obtain ⟨h1, h2, h3, h4, h5, h6⟩ := chooseUnload_leaves e (l.dropPatrolMount i) d
    simp only [hdrive, hpicker] at h2 h3 h4 h5
    rw [heq]
    refine ⟨h1, h2, h3, h4, h5, fun j hj hp => ?_⟩
    obtain rfl := Option.some.inj hj
    rw [h6]
    exact dropPatrolMount_gone l i hp

end Give

section Decision

variable (e : Env)

/-- R132: what a candidate is given, when it is given a drive. -/
def Library.giveTo (e : Env) (l : Library) (p : SideRank × Option Gift) : Library :=
  match p.2 with
  | some g => l.give e p.1.side g
  | none => l

/-- R132: the candidates are taken in order, and none takes a drive that is given already. -/
theorem giveAll_gifts (cs : List SideRank) (given : List Drive) (l : Library) :
    ∃ gs : List (Option Gift), gs.length = cs.length ∧ ((gs.filterMap id).map Gift.drive).Nodup
      ∧ (∀ d ∈ (gs.filterMap id).map Gift.drive, d ∉ given)
      ∧ Library.giveAll e cs given l = (cs.zip gs).foldl (Library.giveTo e) l
      ∧ ∀ k c, cs[k]? = some c → gs[k]? = some ((((cs.zip gs).take k).foldl (Library.giveTo e) l).findDrive e
        ((((gs.take k).filterMap id).map Gift.drive).reverse ++ given) c) := by
  induction cs generalizing given l with
  | nil => exact ⟨[], rfl, List.nodup_nil, nofun, rfl, nofun⟩
  | cons c cs ih =>
    cases hf : l.findDrive e given c with
    | none =>
      obtain ⟨gs, hlen, hnodup, hgiven, heq, hk⟩ := ih given l
      refine ⟨none :: gs, by simp [hlen], hnodup, hgiven, ?_, fun k c' hc => ?_⟩
      · rw [Library.giveAll, hf]
        exact heq
      · cases k with
        | zero =>
          obtain rfl := Option.some.inj hc
          exact congrArg some hf.symm
        | succ k => exact hk k c' hc
    | some g =>
      obtain ⟨gs, hlen, hnodup, hgiven, heq, hk⟩ := ih (g.drive :: given) (l.give e c.side g)
      refine ⟨some g :: gs, by simp [hlen], ?_, fun d hd => ?_, ?_, fun k c' hc => ?_⟩
      · exact List.nodup_cons.mpr ⟨fun hd => hgiven _ hd List.mem_cons_self, hnodup⟩
      · rcases List.mem_cons.mp hd with rfl | hd
        · exact (findDrive_free e l given c g hf).2.2.1
        · exact fun hn => hgiven d hd (List.mem_cons_of_mem _ hn)
      · rw [Library.giveAll, hf]
        exact heq
      · cases k with
        | zero =>
          obtain rfl := Option.some.inj hc
          exact congrArg some hf.symm
        | succ k =>
          refine (hk k c' hc).trans ?_
          simp only [List.zip_cons_cons, List.take_succ_cons, List.foldl_cons, List.filterMap_cons_some (f := id) rfl, List.map_cons,
            List.reverse_cons, List.append_assoc, List.singleton_append]
          rfl

end Decision

/-- Settles O31: the timed events, the calls, the order of the candidates and the four steps of a choice. -/
theorem timedEventsAndDecisions : Obligations.TimedEventsAndDecisions := by
  refine ⟨fun s c time hs h => ?_, fun e l h => decide_waits e l h, fun e l was => ?_, fun e l hdue hhold hp => ?_, fun e l i => ?_, fun e l => ?_,
    fun e l given c => findDrive_steps e l given c, fun e l i d => ⟨?_, rfl, fun g hg => ?_⟩⟩
  · have hr := timedDecision_reacted s time
    exact ⟨_, exec_timed hs h, hr, hr.lib.locations, hr.lib.drive⟩
  · intro a free returning
    obtain ⟨hcalls, hrest⟩ := registerEvents_calls e l was
    refine ⟨hcalls.trans ?_, hrest⟩
    rw [startReturn_iff, placedUnmounted_iff, lostDemand_iff, availabilityMoved_iff, driveFailed_iff, pickerFree_iff, pickerFree_iff]
  · intro l₀
    obtain ⟨gs, hlen, hnodup, -, heq, hk⟩ := giveAll_gifts e (l.candidates e) [] l₀
    refine ⟨gs, hlen, hnodup, ?_, fun k c hc => ?_⟩
    · have hdecide : l.decide e = (Library.giveAll e (l.candidates e) [] l₀).considerPatrol e := by
        unfold Library.decide
        rw [if_pos]
        · rfl
        · simp [hdue, hhold, hp]
      have htake : ((l.candidates e).zip gs).take gs.length = (l.candidates e).zip gs :=
        List.take_of_length_le (by rw [List.length_zip]; exact Nat.min_le_right _ _)
      have hfound : Library.giveAll e (l.candidates e) [] l₀ = (((l.candidates e).zip gs).take gs.length).foldl (Library.giveTo e) l₀ := by
        rw [htake, heq]
      rw [hdecide, hfound]
      rfl
    · have := hk k c hc
      rwa [List.append_nil] at this
  · exact ⟨rank_none e l i, rank_some e l i⟩
  · exact ⟨fun c => mem_candidates e l, candidates_pairwise e l⟩
  · show (if l.pickerFree then l.askLoad i d else l).picker.moves = _
    by_cases h : l.pickerFree = true
    · rw [if_pos h, if_pos ((pickerFree_iff l).mp h)]
      rfl
    · rw [if_neg h, if_neg (mt (pickerFree_iff l).mpr h), List.append_nil]
  · rcases hg with rfl | rfl
    · exact takeDrive_leaves e l d
    · exact takeDrive_leaves e l d

end Sys2Proof.Machine
end

section
-- One declaration after the other: the stacks of the threads that wait for each other count against the check's memory limit.
set_option Elab.async false
namespace Sys2Proof.Machine

/-! # What the windows and the Twin Writer leave alone -/

section WindowWork

/-- Chapters 3.2 and 4: the turning and staging of windows touch the requests, the slots' waiting lists, the demand lists and whether a command is still wanted. -/
structure WindowWork (a b : Library) : Prop where
  books : b.books = a.books
  roles : b.roles = a.roles
  twins : b.twins = a.twins
  picker : b.picker = a.picker
  care : b.care = a.care
  log : b.log = a.log
  out : b.out = a.out
  buffer : b.buffer = { a.buffer with lookWait := b.buffer.lookWait, deliveryWait := b.buffer.deliveryWait, openings := b.buffer.openings }
  scheduler : b.scheduler = { a.scheduler with lists := b.scheduler.lists, quiet := b.scheduler.quiet }
  drive : ∀ d, ∃ v, b.drive d = { a.drive d with service := v } ∧ v.isSome = (a.drive d).service.isSome

theorem WindowWork.refl (a : Library) : WindowWork a a := ⟨rfl, rfl, rfl, rfl, rfl, rfl, rfl, rfl, rfl, fun _ => ⟨_, rfl, rfl⟩⟩

theorem WindowWork.trans {a b c : Library} (h : WindowWork a b) (k : WindowWork b c) : WindowWork a c where
  books := k.books.trans h.books
  roles := k.roles.trans h.roles
  twins := k.twins.trans h.twins
  picker := k.picker.trans h.picker
  care := k.care.trans h.care
  log := k.log.trans h.log
  out := k.out.trans h.out
  buffer := by rw [k.buffer, h.buffer]
  scheduler := by rw [k.scheduler, h.scheduler]
  drive d := by
    obtain ⟨v, hv, hv'⟩ := h.drive d
    obtain ⟨w, hw, hw'⟩ := k.drive d
    exact ⟨w, by rw [hw, hv], by rw [hw', hv]; exact hv'⟩

theorem WindowWork.foldl {α : Type} {f : Library → α → Library} (h : ∀ l x, WindowWork l (f l x)) (xs : List α) (l : Library) :
    WindowWork l (xs.foldl f l) := by
  induction xs generalizing l with
  | nil => exact .refl l
  | cons x xs ih => exact (h l x).trans (ih _)

variable (e : Env) (l : Library)

theorem windowWork_setWindows (t : Tag) (ws : List Window) : WindowWork l (l.setWindows t ws) := by
  unfold Library.setWindows
  split <;> exact ⟨rfl, rfl, rfl, rfl, rfl, rfl, rfl, rfl, rfl, fun _ => ⟨_, rfl, rfl⟩⟩

theorem windowWork_setWindow (t : Tag) (w : Window) : WindowWork l (l.setWindow t w) := windowWork_setWindows l t _

theorem windowWork_setEntry (t : Tag) (x : Option Entry) : WindowWork l (l.setEntry t x) :=
  ⟨rfl, rfl, rfl, rfl, rfl, rfl, rfl, rfl, rfl, fun _ => ⟨_, rfl, rfl⟩⟩

theorem windowWork_withdraw (s : Side) (k : ItemKind) : WindowWork l (l.withdraw s k) :=
  ⟨rfl, rfl, rfl, rfl, rfl, rfl, rfl, rfl, rfl, fun _ => ⟨_, rfl, rfl⟩⟩

theorem windowWork_withdrawAll (p : ItemKind → Bool) : WindowWork l (l.withdrawAll p) :=
  ⟨rfl, rfl, rfl, rfl, rfl, rfl, rfl, rfl, rfl, fun _ => ⟨_, rfl, rfl⟩⟩

theorem windowWork_place (s : Side) (k : ItemKind) : WindowWork l (l.place e s k) :=
  ⟨rfl, rfl, rfl, rfl, rfl, rfl, rfl, rfl, rfl, fun _ => ⟨_, rfl, rfl⟩⟩

theorem windowWork_lookWait (ts : List Tag) : WindowWork l { l with buffer := { l.buffer with lookWait := ts } } :=
  ⟨rfl, rfl, rfl, rfl, rfl, rfl, rfl, rfl, rfl, fun _ => ⟨_, rfl, rfl⟩⟩

theorem windowWork_mapCommands (f : Command → Command) : WindowWork l (l.mapCommands f) where
  __ := WindowWork.refl l
  drive := (onlyDemand_mapCommands l f).drive

theorem windowWork_release (t : Tag) (w : Window) (n : Option Nat) : WindowWork l (l.release t w n) := by
  have hoff : WindowWork l (match w.item with
      | some s => l.withdraw s (.fetch t w.book w.frame)
      | none => l) := by
    cases w.item with
    | none => exact .refl l
    | some s => exact windowWork_withdraw l s _
  unfold Library.release
  dsimp only
  split
  · exact hoff.trans (windowWork_mapCommands _ _)
  · exact hoff

theorem windowWork_recordStop (t : Tag) (w : Window) (st : Stop) : WindowWork l (l.recordStop t w st) := by
  unfold Library.recordStop
  dsimp only
  exact ((WindowWork.foldl (fun l v => windowWork_release l t v none) _ l).trans (windowWork_setWindows _ t _)).trans (windowWork_lookWait _ _)

theorem windowWork_holdFallback (t : Tag) (w : Window) : WindowWork l (l.holdFallback t w) := by
  unfold Library.holdFallback
  dsimp only
  split
  · exact windowWork_setWindow l t _
  · split
    · exact windowWork_setWindow l t _
    · exact windowWork_recordStop l t _ _

theorem windowWork_twinFallback (t : Tag) (w : Window) : WindowWork l (l.twinFallback e t w) := by
  unfold Library.twinFallback
  split
  · exact windowWork_setWindow l t _
  · split
    · split
      · exact (windowWork_place e l _ _).trans (windowWork_setWindow _ t _)
      · exact windowWork_holdFallback l t w
    · exact windowWork_holdFallback l t w

theorem windowWork_eachWindow (t : Tag) (f : Library → Window → Library) (h : ∀ l w, WindowWork l (f l w)) : WindowWork l (l.eachWindow t f) := by
  unfold Library.eachWindow
  refine WindowWork.foldl (fun l w => ?_) _ _
  split
  · exact h l _
  · exact .refl l

theorem windowWork_untwinWindows (t : Tag) (b : Book) : WindowWork l (l.untwinWindows t b) := by
  refine windowWork_eachWindow l t _ fun l w => ?_
  split
  · split
    · exact (windowWork_withdraw l _ _).trans (windowWork_holdFallback _ t w)
    · exact .refl l
  · exact .refl l

theorem windowWork_endRequest (t : Tag) (o : Outcome) (moved discard : Nat) : WindowWork l (l.endRequest t o moved discard) := by
  unfold Library.endRequest
  split
  · exact .refl l
  next x _ =>
    dsimp only
    have h := (WindowWork.foldl (fun l w => windowWork_release l t w none) x.windows l).trans (windowWork_withdrawAll _ (ItemKind.ofTag t))
    exact h.trans ⟨rfl, rfl, rfl, rfl, rfl, rfl, rfl, rfl, rfl, fun _ => ⟨_, rfl, rfl⟩⟩

end WindowWork

section TwinBooks

variable (e : Env) (l : Library)

theorem books_syncReread (b : Book) : (l.syncReread e b).books = l.books := by
  unfold Library.syncReread
  (repeat' split) <;> rfl

theorem books_grantFrom : ∀ (xs : List (Book × Nat)) (l : Library), (Library.grantFrom e xs l).books = l.books
  | [], _ => rfl
  | (b, f) :: rest, l => by
    unfold Library.grantFrom
    split
    · exact books_grantFrom rest l
    · split
      · exact (books_grantFrom rest _).trans (books_syncReread e _ b)
      · rfl

theorem books_stopTwinWork (b : Book) : (l.stopTwinWork e b).books = l.books := by
  unfold Library.stopTwinWork Library.dropRereads
  exact (books_grantFrom e _ _).trans (books_syncReread e _ b)

theorem books_askWindow (b : Book) : (l.askWindow e b).books = l.books :=
  foldl_same _ Library.books (fun m f => by
    dsimp only
    split
    · unfold Library.askReread
      split
      · exact books_syncReread e _ b
      · rfl
    · rfl) _ l

theorem books_wantTwinWrite (b : Book) (s : Side) : (l.wantTwinWrite e b s).books = l.books := by
  unfold Library.wantTwinWrite
  dsimp only
  split <;> rfl

/-- R95: the frames that an examination passes over. -/
theorem skipFrames_marks (b : Book) (n : Nat) : ∃ m, Library.skipFrames e b n l = l.setBook b { l.book b with twinMark := m }
    ∧ (l.book b).twinMark ≤ m ∧ ((l.book b).twinMark ≤ (l.book b).filing → m ≤ (l.book b).filing)
    ∧ (∀ g, (l.book b).twinMark ≤ g → g < m → (e.frame b g).skipped = true)
    ∧ (m < (l.book b).filing → (e.frame b m).skipped = true → (l.book b).twinMark + n ≤ m) := by
  induction n generalizing l with
  | zero =>
    refine ⟨(l.book b).twinMark, ?_, le_refl _, id, fun g h1 h2 => absurd h1 (Nat.not_le.mpr h2), fun _ _ => le_refl _⟩
    show l = l.setBook b (l.book b)
    unfold Library.setBook Library.book
    rw [put_look_self]
  | succ n ih =>
    unfold Library.skipFrames
    dsimp only
    by_cases h : (l.book b).twinMark < (l.book b).filing ∧ (e.frame b (l.book b).twinMark).skipped = true
    · rw [if_pos h]
      obtain ⟨m, heq, hle, htop, hskip, hend⟩ := ih (l.setBook b { l.book b with twinMark := (l.book b).twinMark + 1 })
      rw [Library.setBook_book_same] at heq hle htop hskip hend
      dsimp only at hle htop hskip hend
      refine ⟨m, ?_, by omega, fun _ => htop h.1, fun g h1 h2 => ?_, fun h1 h2 => ?_⟩
      · rw [heq]
        unfold Library.setBook
        rw [put_put]
      · rcases Nat.eq_or_lt_of_le h1 with rfl | h1
        · exact h.2
        · exact hskip g h1 h2
      · have := hend h1 h2
        omega
    · rw [if_neg h]
      refine ⟨(l.book b).twinMark, ?_, le_refl _, id, fun g h1 h2 => absurd h1 (Nat.not_le.mpr h2), fun h1 h2 => absurd ⟨h1, h2⟩ h⟩
      unfold Library.setBook Library.book
      rw [put_look_self]

theorem examine_alone (b : Book) (h : (l.book b).twin = none) : (l.examine e b).books = l.books ∧ (l.examine e b).twin b = .none := by
  unfold Library.examine
  rw [h]
  exact ⟨books_stopTwinWork e l b, Library.setTwin_twin_same ..⟩

/-- R94, R95: the examination of a book that has a twin and is not PAUSED. -/
theorem examine_judges (b : Book) {s : Side} (h : (l.book b).twin = some s) (hp : (l.twin b).state ≠ .paused) :
    (l.examine e b).books = (Library.skipFrames e b Config.framesPerBook l).books
      ∧ ((l.examine e b).twin b).state = twinStateOf ((l.examine e b).book b) (l.twin b).failed
      ∧ ((l.examine e b).twin b).failed = (l.twin b).failed := by
  unfold Library.examine
  rw [h]
  dsimp only
  rw [if_neg hp]
  obtain ⟨-, ht⟩ := skipFrames_rest e b Config.framesPerBook l
  generalize Library.skipFrames e b Config.framesPerBook l = m at ht
  have hm : m.twin b = l.twin b := by unfold Library.twin; rw [ht]
  generalize hn : m.setTwin b { m.twin b with state := twinStateOf (m.book b) (m.twin b).failed } = n
  have hnb : n.twin b = { l.twin b with state := twinStateOf (m.book b) (l.twin b).failed } := by
    rw [← hn, Library.setTwin_twin, if_pos rfl, hm]
  have hbooks : n.books = m.books := by rw [← hn]; rfl
  split
  next hst =>
    have hk := ((sameTwins_askWindow e n b).trans (sameTwins_wantTwinWrite e _ b s)) b
    have hb : ((n.askWindow e b).wantTwinWrite e b s).books = m.books := (books_wantTwinWrite e _ b s).trans ((books_askWindow e n b).trans hbooks)
    refine ⟨hb, ?_, by rw [hk.2.2, hnb]⟩
    rw [hk.1, hnb]
    exact congrArg (fun v : Vector BookEntry 127 => twinStateOf (look v b) (l.twin b).failed) hb.symm
  next hst =>
    have hk := sameTwins_stopTwinWork e n b b
    have hb : (n.stopTwinWork e b).books = m.books := (books_stopTwinWork e n b).trans hbooks
    refine ⟨hb, ?_, by rw [hk.2.2, hnb]⟩
    rw [hk.1, hnb]
    exact congrArg (fun v : Vector BookEntry 127 => twinStateOf (look v b) (l.twin b).failed) hb.symm

end TwinBooks

end Sys2Proof.Machine
end

section
-- One declaration after the other: the stacks of the threads that wait for each other count against the check's memory limit.
set_option Elab.async false
namespace Sys2Proof.Machine

/-! # The changes to the book table -/

section Changes

variable (e : Env) (l : Library) {b : Book}

theorem takeSides_role (p : Side) (q : Option Side) (i : Side) (h : q ≠ some p) : (l.takeSides b p q).role i
    = if i = p then .primary b else if q = some i then .twin b else l.role i := by
  cases q with
  | none => exact (Library.setRole_role ..).trans (by grind)
  | some t =>
    show ((l.takeSide p (.primary b)).takeSide t (.twin b)).role i = _
    unfold Library.takeSide
    rw [Library.setHealth_role, Library.setRole_role, Library.setHealth_role, Library.setRole_role]
    grind

theorem takeSides_health (p : Side) (q : Option Side) (i : Side) : (l.takeSides b p q).health i
    = if i = p ∨ q = some i then .zero else l.health i := by
  cases q with
  | none => exact (Library.setHealth_health ..).trans (by rw [show (l.setRole p (.primary b)).health i = l.health i from rfl]; grind)
  | some t =>
    show ((l.takeSide p (.primary b)).takeSide t (.twin b)).health i = _
    unfold Library.takeSide
    rw [Library.setHealth_health, show (((l.setRole p (.primary b)).setHealth p .zero).setRole t (.twin b)).health i
      = ((l.setRole p (.primary b)).setHealth p .zero).health i from rfl, Library.setHealth_health,
      show (l.setRole p (.primary b)).health i = l.health i from rfl]
    grind

theorem takeSides_rest (p : Side) (q : Option Side) : l.takeSides b p q = { l with
      roles := (l.takeSides b p q).roles, care := { l.care with health := (l.takeSides b p q).care.health } } := by
  cases q <;> rfl

/-- R6: what an assignment leaves. -/
theorem assignSides_leaves (p : Side) (q : Option Side) (hq : q ≠ some p) :
    let a := l.assignSides e b p q
    a.book b = .fresh p q ∧ (∀ c, c ≠ b → a.book c = l.book c)
      ∧ (∀ i, a.role i = if i = p then .primary b else if q = some i then .twin b else l.role i)
      ∧ (∀ i, a.health i = if i = p ∨ q = some i then .zero else l.health i)
      ∧ (a.twin b).state = (if q = none then .none else .caughtUp)
      ∧ a.care.queue = l.care.queue ∧ a.care.rescue = l.care.rescue ∧ a.picker = l.picker ∧ a.log = l.log ∧ a.front = l.front := by
  intro a
  have hrest := takeSides_rest l p q (b := b)
  have hroles := takeSides_role l p q (b := b)
  have hhealth := takeSides_health l p q (b := b)
  have ha : a = (((l.takeSides b p q).setBook b (.fresh p q)).setTwin b .none).examine e b := Library.assignSides_eq ..
  have hbook (c : Book) : (((l.takeSides b p q).setBook b (.fresh p q)).setTwin b .none).book c
      = if b = c then .fresh p q else l.book c := by
    rw [Library.setTwin_book, Library.setBook_book, Library.takeSides_book]
  have htwin : (((l.takeSides b p q).setBook b (.fresh p q)).setTwin b .none).twin b = .none := Library.setTwin_twin_same ..
  have hrole (i : Side) : (((l.takeSides b p q).setBook b (.fresh p q)).setTwin b .none).role i = (l.takeSides b p q).role i := rfl
  have hcare : (((l.takeSides b p q).setBook b (.fresh p q)).setTwin b .none).care = (l.takeSides b p q).care := rfl
  have hpicker : (((l.takeSides b p q).setBook b (.fresh p q)).setTwin b .none).picker = l.picker := by
    rw [hrest]; rfl
  have hlog : (((l.takeSides b p q).setBook b (.fresh p q)).setTwin b .none).log = l.log := by
    rw [hrest]; rfl
  have hfront : (((l.takeSides b p q).setBook b (.fresh p q)).setTwin b .none).front = l.front := by
    rw [hrest]; rfl
  have hqueue : (l.takeSides b p q).care.queue = l.care.queue ∧ (l.takeSides b p q).care.rescue = l.care.rescue := by
    rw [hrest]; exact ⟨rfl, rfl⟩
  generalize (((l.takeSides b p q).setBook b (.fresh p q)).setTwin b .none) = m at ha hbook htwin hrole hcare hpicker hlog hfront
  have hwork := twinWork_examine e m b
  rw [← ha] at hwork
  have hmarks : a.books = m.books ∧ (a.twin b).state = (if q = none then .none else .caughtUp) := by
    cases hq' : q with
    | none =>
      obtain ⟨h1, h2⟩ := examine_alone e m b (by rw [hbook, if_pos rfl, hq']; rfl)
      rw [ha]
      exact ⟨h1, by rw [h2]; rfl⟩
    | some t =>
      obtain ⟨h1, h2, -⟩ := examine_judges e m b (s := t) (by rw [hbook, if_pos rfl, hq']; rfl) (by rw [htwin]; decide)
      obtain ⟨k, hk, -, htop, -⟩ := skipFrames_marks e m b Config.framesPerBook
      have hmb : m.book b = .fresh p q := (hbook b).trans (if_pos rfl)
      have hzero : k = 0 := Nat.le_zero.mp (by simpa [hmb, BookEntry.fresh] using htop (by rw [hmb]; exact le_refl _))
      have hsame : (Library.skipFrames e b Config.framesPerBook m).books = m.books := by
        rw [hk, hzero, hmb]
        have : m.book b = { BookEntry.fresh p q with twinMark := 0 } := hmb
        rw [← this]
        unfold Library.setBook Library.book
        rw [put_look_self]
      have hbooks : (m.examine e b).books = m.books := h1.trans hsame
      rw [ha]
      refine ⟨hbooks, ?_⟩
      rw [h2, show (m.examine e b).book b = m.book b from congrArg (fun v : Vector BookEntry 127 => look v b) hbooks, hmb]
      rfl
  have hab (c : Book) : a.book c = if b = c then .fresh p q else l.book c :=
    (congrArg (fun v : Vector BookEntry 127 => look v c) hmarks.1).trans (hbook c)
  have har (i : Side) : a.role i = (l.takeSides b p q).role i := (congrArg (fun v : Vector Role 128 => look v i) hwork.roles).trans (hrole i)
  have hac : a.care = (l.takeSides b p q).care := hwork.care.trans hcare
  refine ⟨(hab b).trans (if_pos rfl), fun c hc => (hab c).trans (if_neg (Ne.symm hc)), fun i => (har i).trans (hroles i hq), fun i => ?_,
    hmarks.2, (congrArg Care.queue hac).trans hqueue.1, (congrArg Care.rescue hac).trans hqueue.2, hwork.picker.trans hpicker,
    hwork.log.trans hlog, hwork.front.trans hfront⟩
  exact (congrArg (fun c : Care => look c.health i) hac).trans (hhealth i)

/-- R7: what a twin addition leaves. -/
theorem addTwin_leaves (t : Side) :
    let a := (((l.takeSide t (.twin b)).setBook b { l.book b with twin := some t, twinMark := 0 }).setTwin b .none).examine e b
    a.role t = .twin b ∧ a.health t = .zero ∧ (a.book b).twin = some t
      ∧ (∀ i, i ≠ t → a.role i = l.role i ∧ a.health i = l.health i)
      ∧ (a.book b).primary = (l.book b).primary ∧ (a.book b).filing = (l.book b).filing
      ∧ ((e.frame b 0).filed = true → (a.book b).twinMark = 0)
      ∧ ((l.book b).filing ≤ 4096 → ∀ g, g < (a.book b).twinMark → (e.frame b g).skipped = true)
      ∧ (a.twin b).state = twinStateOf (a.book b) none ∧ (a.twin b).failed = none
      ∧ a.care.queue = l.care.queue ∧ a.care.rescue = l.care.rescue
      ∧ (∀ c, c ≠ b → a.book c = l.book c) ∧ a.picker = l.picker ∧ a.log = l.log ∧ a.front = l.front := by
  intro a
  obtain ⟨m, hm⟩ : ∃ m, ((l.takeSide t (.twin b)).setBook b { l.book b with twin := some t, twinMark := 0 }).setTwin b .none = m := ⟨_, rfl⟩
  have ha : a = m.examine e b := by rw [← hm]
  have hbook (c : Book) : m.book c = if b = c then { l.book b with twin := some t, twinMark := 0 } else l.book c := by
    rw [← hm, Library.setTwin_book, Library.setBook_book]; rfl
  have hrole (i : Side) : m.role i = if t = i then .twin b else l.role i := by
    rw [← hm]; exact Library.setRole_role ..
  have hhealth (i : Side) : m.health i = if t = i then .zero else l.health i := by
    rw [← hm]; exact Library.setHealth_health ..
  have htwin : m.twin b = .none := by rw [← hm]; exact Library.setTwin_twin_same ..
  have hwork := twinWork_examine e m b
  rw [← ha] at hwork
  have hmb := (hbook b).trans (if_pos rfl)
  obtain ⟨h1, h2, h3⟩ := examine_judges e m b (s := t) (by rw [hmb]) (by rw [htwin]; decide)
  obtain ⟨k, hk, -, -, hskip, -⟩ := skipFrames_marks e m b Config.framesPerBook
  rw [hmb] at hk hskip
  dsimp only at hk hskip
  rw [← ha] at h1 h2 h3
  have hab (c : Book) : a.book c = if b = c then { l.book b with twin := some t, twinMark := k } else l.book c := by
    have : a.book c = (m.setBook b { l.book b with twin := some t, twinMark := k }).book c :=
      congrArg (fun v : Vector BookEntry 127 => look v c) (h1.trans (by rw [hk]))
    rw [this, Library.setBook_book, hbook]
    split <;> rfl
  have hb := (hab b).trans (if_pos rfl)
  have har (i : Side) : a.role i = if t = i then .twin b else l.role i := (congrArg (fun v : Vector Role 128 => look v i) hwork.roles).trans (hrole i)
  have hah (i : Side) : a.health i = if t = i then .zero else l.health i := (congrArg (fun c : Care => look c.health i) hwork.care).trans (hhealth i)
  have hskipped (g : Nat) (hg : g < k) : (e.frame b g).skipped = true := hskip g (Nat.zero_le _) hg
  refine ⟨(har t).trans (if_pos rfl), (hah t).trans (if_pos rfl), by rw [hb], fun i hi => ⟨(har i).trans (if_neg (Ne.symm hi)),
    (hah i).trans (if_neg (Ne.symm hi))⟩, by rw [hb], by rw [hb], fun hf => ?_, fun _ g hg => hskipped g (by rwa [hb] at hg), by rw [h2, htwin]; rfl,
    by rw [h3, htwin]; rfl, ?_, ?_, fun c hc => (hab c).trans (if_neg (Ne.symm hc)), ?_, ?_, ?_⟩
  · rw [hb]
    by_contra hn
    have hs := hskipped 0 (Nat.pos_of_ne_zero hn)
    cases hfr : e.frame b 0 <;> rw [hfr] at hf hs <;> simp [Frame.filed, Frame.skipped] at hf hs
  · rw [hwork.care, ← hm]; rfl
  · rw [hwork.care, ← hm]; rfl
  · rw [hwork.picker, ← hm]; rfl
  · rw [hwork.log, ← hm]; rfl
  · rw [hwork.front, ← hm]; rfl

/-- R8: what the removal of a twin does once the side and the book entry have changed. -/
theorem afterRemoval_leaves (s : Side) (hb : (l.book b).twin = none) :
    let a := l.afterRemoval e b s
    a.roles = l.roles ∧ a.books = l.books ∧ a.twin b = .none
      ∧ a.buffer.hold = l.buffer.hold.filter (fun h => !(h.book == b)) ∧ EscalationTested l a
      ∧ a.care.queue = l.care.queue.filter (fun i => i != s) ∧ a.care.rescue = l.care.rescue ∧ a.care.health = l.care.health
      ∧ a.picker = l.picker ∧ a.log = l.log := by
  intro a
  obtain ⟨c, hc⟩ : ∃ c, l.mapCommands (Command.orphanTwinWrite b fun _ => true) = c := ⟨_, rfl⟩
  have hcommands := windowWork_mapCommands l (Command.orphanTwinWrite b fun _ => true)
  rw [hc] at hcommands
  obtain ⟨hhold, htested, hleave⟩ := leaveHold_rest c fun h => h.book == b
  obtain ⟨m, hm⟩ : ∃ m, c.leaveHold (fun h => h.book == b) = m := ⟨_, rfl⟩
  rw [hm] at hhold htested hleave
  obtain ⟨n, hn, due, hcare, hqueue⟩ : ∃ n, (if m.care.queue.contains s then
      { m with care := { m.care with queue := m.care.queue.filter fun q => q != s, seekDue := true } } else m) = n
    ∧ ∃ due, n = { m with care := { m.care with queue := m.care.queue.filter fun q => q != s, seekDue := due } } ∧ True := by
    refine ⟨_, rfl, ?_⟩
    split
    · exact ⟨true, rfl, trivial⟩
    next h =>
      have hq : m.care.queue.filter (fun q => q != s) = m.care.queue := by
        rw [List.filter_eq_self]
        intro q hq
        refine bne_iff_ne.mpr fun he => h ?_
        rw [List.contains_iff_mem, ← he]
        exact hq
      exact ⟨m.care.seekDue, by rw [hq], trivial⟩
  have ha : a = allTags.foldl (fun l t => l.untwinWindows t b) (n.examine e b) := by
    show l.afterRemoval e b s = _
    unfold Library.afterRemoval
    dsimp only
    rw [hc, hm, hn]
  have hwork := twinWork_examine e n b
  have hnb : (n.book b).twin = none := by
    have : n.book b = l.book b := by
      rw [hcare, hleave]
      exact congrArg (fun v : Vector BookEntry 127 => look v b) hcommands.books
    rw [this, hb]
  obtain ⟨hbooks, htwin⟩ := examine_alone e n b hnb
  have hwin := WindowWork.foldl (fun l t => windowWork_untwinWindows l t b) allTags (n.examine e b)
  rw [← ha] at hwin
  have hbuf : a.buffer.hold = m.buffer.hold ∧ a.buffer.escalation = m.buffer.escalation := by
    rw [hwin.buffer]
    exact ⟨hwork.hold.trans (by rw [hcare]), hwork.escalation.trans (by rw [hcare])⟩
  have hsch : a.scheduler.escalation = m.scheduler.escalation ∧ a.scheduler.decisionDue = m.scheduler.decisionDue := by
    rw [hwin.scheduler]
    exact ⟨hwork.copy.trans (by rw [hcare]), hwork.decisionDue.trans (by rw [hcare])⟩
  have hla : EscalationTested l a := htested.congr (by rw [hcommands.buffer]) (by rw [hcommands.scheduler]) hbuf.2 hbuf.1 hsch.1 hsch.2
  have hac : a.care = { l.care with queue := l.care.queue.filter fun q => q != s, seekDue := due } := by
    rw [hwin.care, hwork.care, hcare, hleave]
    show { c.care with queue := c.care.queue.filter fun q => q != s, seekDue := due } = _
    rw [hcommands.care]
  refine ⟨hwin.roles.trans (hwork.roles.trans ?_), hwin.books.trans (hbooks.trans ?_), ?_, ?_, hla,
    by rw [hac], by rw [hac], by rw [hac], hwin.picker.trans (hwork.picker.trans ?_), hwin.log.trans (hwork.log.trans ?_)⟩
  · rw [hcare, hleave]; exact hcommands.roles
  · rw [hcare, hleave]; exact hcommands.books
  · exact (congrArg (fun v : Vector TwinRecord 127 => look v b) hwin.twins).trans htwin
  · rw [hbuf.1, hhold, hcommands.buffer]
  · rw [hcare, hleave]; exact hcommands.picker
  · rw [hcare, hleave]; exact hcommands.log

end Changes

end Sys2Proof.Machine
end

section
-- One declaration after the other: the stacks of the threads that wait for each other count against the check's memory limit.
set_option Elab.async false
namespace Sys2Proof.Machine

section Refusals

variable {s : State} {tag : Tag} {x : Entry} {b : Book}

theorem asIndex_some {n y : Nat} (h : y < n) : asIndex n y = some ⟨y, h⟩ := dif_pos h

/-- R9: the number of a side that the rescue record names. -/
def Library.rescued (l : Library) (b : Book) (n : Nat) : Prop :=
  ∃ r, l.care.rescue = some r ∧ (r.book = b ∨ r.source.val = n ∨ ∃ t, r.target = some t ∧ t.val = n)

theorem rescued_under {l : Library} {p : Side} (h : l.rescued b p.val) : l.bookUnderRescue b = true ∨ l.sideUnderRescue p = true := by
  obtain ⟨r, hr, h⟩ := h
  unfold Library.bookUnderRescue Library.sideUnderRescue
  rw [hr]
  rcases h with h | h | ⟨t, ht, h⟩
  · exact .inl (beq_iff_eq.mpr h)
  · obtain rfl : r.source = p := Fin.ext h
    exact .inr (by simp)
  · obtain rfl : t = p := Fin.ext h
    exact .inr (by simp [ht])

/-- R6, R9: what an assignment with a failing check meets. -/
theorem assignBook_refused (p t : Nat)
    (h : (s.lib.book b).state ≠ .unassigned ∨ (∀ h : p < 128, s.lib.role ⟨p, h⟩ ≠ .blank) ∨ s.lib.rescued b p
      ∨ (t ≠ 255 ∧ ((∀ h : t < 128, s.lib.role ⟨t, h⟩ ≠ .blank) ∨ t / 2 = p / 2 ∨ s.lib.rescued b t))) : s.assignBook b p t = none := by
  cases ha : s.assignBook b p t with
  | none => rfl
  | some u =>
    exfalso
    unfold State.assignBook at ha
    split at ha
    next p' t' hp ht =>
      obtain rfl := sideField_eq_some.mp hp
      split at ha
      next hok =>
        have hp' : (⟨p'.val, p'.isLt⟩ : Side) = p' := rfl
        simp only [Library.assignable, Bool.and_eq_true, Bool.not_eq_true', beq_iff_eq] at hok
        obtain ⟨⟨⟨⟨h1, h2⟩, h3⟩, h4⟩, h5⟩ := hok
        rcases h with h | h | h | ⟨h255, h⟩
        · exact h h1
        · exact h p'.isLt h2
        · rcases rescued_under h with h | h
          · rw [h3] at h; cases h
          · rw [h4] at h; cases h
        · unfold twinField at ht
          rw [if_neg h255] at ht
          obtain ⟨q, hq, rfl⟩ := Option.map_eq_some_iff.mp ht
          obtain rfl := sideField_eq_some.mp hq
          simp only [Bool.and_eq_true, Bool.not_eq_true', beq_iff_eq, bne_iff_ne] at h5
          obtain ⟨⟨k1, k2⟩, k3⟩ := h5
          rcases h with h | h | h
          · exact h q.isLt k1
          · exact k2 (Fin.ext h)
          · rcases rescued_under h with h | h
            · rw [h3] at h; cases h
            · rw [k3] at h; cases h
      next => cases ha
    next => cases ha

theorem addTwin_refused (e : Env) (l : Library) (t : Nat)
    (h : (l.book b).state = .unassigned ∨ (l.book b).twin ≠ none ∨ (∀ h : t < 128, l.role ⟨t, h⟩ ≠ .blank) ∨ l.rescued b t
      ∨ (∃ p, (l.book b).primary = some p ∧ p.val / 2 = t / 2)) : l.addTwin e b t = none := by
  cases ha : l.addTwin e b t with
  | none => rfl
  | some m =>
    exfalso
    obtain ⟨q, hq, hok, -⟩ := Library.addTwin_eq_some e l ha
    obtain rfl := sideField_eq_some.mp hq
    simp only [Library.twinAddable, Bool.and_eq_true, Bool.not_eq_true', beq_iff_eq, bne_iff_ne, Option.isNone_iff_eq_none] at hok
    obtain ⟨⟨⟨⟨⟨h1, h2⟩, h3⟩, h4⟩, h5⟩, h6⟩ := hok
    rcases h with h | h | h | h | ⟨p, hp, h⟩
    · exact h1 h
    · exact h h2
    · exact h q.isLt h3
    · rcases rescued_under h with h | h
      · rw [h5] at h; cases h
      · rw [h6] at h; cases h
    · rw [hp] at h4
      exact h4 (congrArg some (Fin.ext h))

theorem removeTwin_refused (e : Env) (l : Library)
    (h : (l.book b).state = .unassigned ∨ (∃ t, (l.book b).twin = some t ∧ l.rescued b t.val) ∨ (l.book b).twin = none) :
    l.removeTwin e b = none := by
  cases ha : l.removeTwin e b with
  | none => rfl
  | some m =>
    exfalso
    obtain ⟨q, hq, -⟩ := Library.removeTwin_eq_some e l ha
    unfold Library.twinRemovable at hq
    dsimp only at hq
    split at hq
    next hok =>
      rw [Bool.and_eq_true, bne_iff_ne, Bool.not_eq_true'] at hok
      split at hq
      next t ht =>
        split at hq
        · cases hq
        next hs =>
          rcases h with h | ⟨t', ht', h⟩ | h
          · exact hok.1 h
          · rw [ht] at ht'
            obtain rfl := Option.some.inj ht'
            rcases rescued_under h with h | h
            · rw [hok.2] at h; cases h
            · exact hs h
          · rw [ht] at h; cases h
      next => cases hq
    next => cases hq

/-- R186: a change to the book table that its owner refuses. -/
theorem AwaitsWrite.tableRefused (h : AwaitsWrite s tag x (.book b)) {c : Instr} {w : ServiceWrite} {read : Block → Option ServiceWrite}
    (hc : serviceRow c = some (tag, .opened, read)) (hr : read (.book b) = some w) (hk : w.refusal .opened = none)
    (hw : w.ownerRefusal = .tableRefused) (ha : s.begin.applyWrite w = none) :
    ∃ u, exec c s = .next u ∧ WriteEnds s u tag x .tableRefused 0 ∧ u.env = s.env ∧ u.fee = s.fee ∧ SameBlocks s.lib u.lib :=
  h.refused hc hr (hw ▸ State.checkWrite_ownerRefused hk ha) nofun

end Refusals

section Settled

variable {s : State} {tag : Tag} {x : Entry} {b : Book}

/-- R6, R160: an assignment whose checks pass. -/
theorem assignment_ends (h : AwaitsWrite s tag x (.book b)) {p : Side} {t : Option Side} (n : Nat) (hfield : twinField n = some t)
    (hstate : (s.lib.book b).state = .unassigned) (hp : s.lib.role p = .blank) (hbr : s.lib.bookUnderRescue b = false)
    (hsr : s.lib.sideUnderRescue p = false) (ht : ∀ q, t = some q → s.lib.role q = .blank ∧ slotOf q ≠ slotOf p ∧ s.lib.sideUnderRescue q = false) :
    let e := { s.env with directory := dirClear s.env.directory b }
    let a := s.begin.lib.assignSides e b p t
    ∃ u, exec (.assignment tag .opened p.val n) s = .next u
      ∧ Reacted s u e s.fee (a.endRequest tag .done 1 0) ∧ RequestEnds u.lib tag x .done 1
      ∧ a.book b = ⟨.opened, some p, t, 0, 0, 0⟩ ∧ (∀ c, c ≠ b → a.book c = s.lib.book c)
      ∧ a.role p = .primary b ∧ a.health p = .zero ∧ (∀ q, t = some q → a.role q = .twin b ∧ a.health q = .zero)
      ∧ (∀ i, i ≠ p → t ≠ some i → a.role i = s.lib.role i ∧ a.health i = s.lib.health i)
      ∧ (u.lib.book b).state = .opened ∧ (u.lib.book b).filing = 0 ∧ (∀ f, f < 4096 → u.env.frame b f = .blank)
      ∧ (a.twin b).state = (if t = none then .none else .caughtUp)
      ∧ a.care.queue = s.lib.care.queue ∧ a.care.rescue = s.lib.care.rescue ∧ a.picker = s.lib.picker ∧ a.log = s.lib.log := by
  intro e a
  have hq : t ≠ some p := fun hq => (ht p hq).2.1 rfl
  obtain ⟨h1, h2, h3, h4, h5, h6, h7, h8, h9, h10⟩ := assignSides_leaves e s.begin.lib (b := b) p t hq
  have hok : s.begin.lib.assignable b p t = true := by
    unfold Library.assignable
    simp only [Bool.and_eq_true, Bool.not_eq_true', beq_iff_eq]
    refine ⟨⟨⟨⟨hstate, hp⟩, hbr⟩, hsr⟩, ?_⟩
    cases t with
    | none => rfl
    | some q =>
      obtain ⟨k1, k2, k3⟩ := ht q rfl
      simp only [Bool.and_eq_true, Bool.not_eq_true', beq_iff_eq, bne_iff_ne]
      exact ⟨⟨k1, k2⟩, k3⟩
  have happly : s.begin.applyWrite (.assign b p.val n) = some { s.begin with env := e, lib := a } := by
    show s.begin.assignBook b p.val n = _
    unfold State.assignBook
    rw [hfield, sideField_eq_some.mpr rfl]
    exact if_pos hok
  have hentry : a.entry tag = some x := (congrArg (fun v : Front => look v.table tag) h10).trans h.entry
  obtain ⟨u, hu, hr, hends⟩ := h.reacted (c := .assignment tag .opened p.val n) (t := { s.begin with env := e, lib := a }) rfl rfl rfl happly rfl hentry
  have hbook (c : Book) : (a.endRequest tag .done 1 0).book c = a.book c :=
    congrArg (fun v : Vector BookEntry 127 => look v c) (endRequest_ends hentry .done 1 0).books
  refine ⟨u, hu, hr, hends, h1, h2, (h3 p).trans (if_pos rfl), (h4 p).trans (if_pos (.inl rfl)), fun q hq' => ⟨?_, (h4 q).trans (if_pos (.inr hq'))⟩,
    fun i hi hi' => ⟨?_, ?_⟩, ?_, ?_, fun f hf => ?_, h5, h6, h7, h8, h9⟩
  · have hne : ¬ q = p := fun he => hq (he ▸ hq')
    exact (h3 q).trans ((if_neg hne).trans (if_pos hq'))
  · exact (h3 i).trans ((if_neg hi).trans (if_neg hi'))
  · exact (h4 i).trans (if_neg fun h => h.elim hi hi')
  · exact (hr.lib.state b).trans (by rw [hbook, h1]; rfl)
  · exact (hr.lib.filing b).trans (by rw [hbook, h1]; rfl)
  · rw [hr.env]
    show dirGet (dirClear s.env.directory b) (frameKey b f) = _
    rw [dirGet_dirClear, if_pos]
    unfold frameKey
    show (4096 * b.val + f) / 4096 = b.val
    omega

/-- R7, R160, R94: a twin addition whose checks pass. -/
theorem twinAddition_ends (h : AwaitsWrite s tag x (.book b)) {t : Side} (hstate : (s.lib.book b).state ≠ .unassigned)
    (htwin : (s.lib.book b).twin = none) (hrole : s.lib.role t = .blank) (hslot : (s.lib.book b).primary.map slotOf ≠ some (slotOf t))
    (hbr : s.lib.bookUnderRescue b = false) (hsr : s.lib.sideUnderRescue t = false) :
    ∃ u, exec (.twinAddition tag .opened t.val) s = .next u
      ∧ s.begin.lib.addTwin s.env b t.val = some ((((s.begin.lib.takeSide t (.twin b)).setBook b
        { s.begin.lib.book b with twin := some t, twinMark := 0 }).setTwin b .none).examine s.env b)
      ∧ Reacted s u s.env s.fee (Library.endRequest ((((s.begin.lib.takeSide t (.twin b)).setBook b
        { s.begin.lib.book b with twin := some t, twinMark := 0 }).setTwin b .none).examine s.env b) tag .done 1 0)
      ∧ RequestEnds u.lib tag x .done 1 := by
  obtain ⟨-, -, -, -, -, -, -, -, -, -, -, -, -, -, -, hfront⟩ := addTwin_leaves s.env s.begin.lib (b := b) t
  have hok : s.begin.lib.twinAddable b t = true := by
    unfold Library.twinAddable
    simp only [Bool.and_eq_true, Bool.not_eq_true', beq_iff_eq, bne_iff_ne, Option.isNone_iff_eq_none]
    exact ⟨⟨⟨⟨⟨hstate, htwin⟩, hrole⟩, hslot⟩, hbr⟩, hsr⟩
  have hadd : s.begin.lib.addTwin s.env b t.val = some ((((s.begin.lib.takeSide t (.twin b)).setBook b
      { s.begin.lib.book b with twin := some t, twinMark := 0 }).setTwin b .none).examine s.env b) := by
    unfold Library.addTwin
    rw [sideField_eq_some.mpr rfl]
    exact if_pos hok
  generalize (((s.begin.lib.takeSide t (.twin b)).setBook b { s.begin.lib.book b with twin := some t, twinMark := 0 }).setTwin b
    .none).examine s.env b = a at hfront hadd
  have happly : s.begin.applyWrite (.addTwin b t.val) = some { s.begin with lib := a } := by
    show s.begin.withLib (s.begin.lib.addTwin s.env b t.val) = _
    rw [hadd]; rfl
  have hentry : a.entry tag = some x := (congrArg (fun v : Front => look v.table tag) hfront).trans h.entry
  obtain ⟨u, hu, hr, hends⟩ := h.reacted (c := .twinAddition tag .opened t.val) (t := { s.begin with lib := a }) rfl rfl rfl happly rfl hentry
  exact ⟨u, hu, hadd, hr, hends⟩

/-- R8, R4, R55: a twin removal whose checks pass. -/
theorem twinRemoval_ends (h : AwaitsWrite s tag x (.book b)) {t : Side} (hstate : (s.lib.book b).state ≠ .unassigned)
    (htwin : (s.lib.book b).twin = some t) (hbr : s.lib.bookUnderRescue b = false) (hsr : s.lib.sideUnderRescue t = false) :
    ∃ u a, exec (.twinRemoval tag .opened) s = .next u ∧ s.begin.lib.removeTwin s.env b = some a
      ∧ Reacted s u s.env s.fee (a.endRequest tag .done 1 0) ∧ RequestEnds u.lib tag x .done 1
      ∧ a.role t = .retired b ∧ (∀ i, i ≠ t → a.role i = s.lib.role i)
      ∧ a.book b = { s.lib.book b with twin := none, twinMark := (s.lib.book b).filing } ∧ (∀ c, c ≠ b → a.book c = s.lib.book c)
      ∧ a.twin b = .none
      ∧ u.lib.buffer.hold = s.lib.buffer.hold.filter (fun h => !(h.book == b))
      ∧ u.lib.buffer.escalation = escalationAfter s.lib.buffer.escalation (u.lib.buffer.hold.map fun h => h.data.length).sum
      ∧ EscalationTested s.lib a ∧ u.lib.buffer.escalation = a.buffer.escalation ∧ u.lib.scheduler.escalation = a.scheduler.escalation
      ∧ a.care.queue = s.lib.care.queue.filter (fun i => i != t) ∧ a.care.rescue = s.lib.care.rescue
      ∧ a.care.health = s.lib.care.health ∧ a.picker = s.lib.picker ∧ a.log = s.lib.log := by
  have hrem : s.begin.lib.twinRemovable b = some t := by
    unfold Library.twinRemovable
    dsimp only
    rw [if_pos, show (s.begin.lib.book b).twin = some t from htwin]
    · exact if_neg (by rw [show s.begin.lib.sideUnderRescue t = false from hsr]; decide)
    · simp only [Bool.and_eq_true, bne_iff_ne, Bool.not_eq_true']
      exact ⟨hstate, hbr⟩
  obtain ⟨a, ha⟩ : ∃ a, s.begin.lib.removeTwin s.env b = some a := by
    unfold Library.removeTwin
    rw [hrem]
    exact ⟨_, rfl⟩
  obtain ⟨t', ht', hm⟩ := Library.removeTwin_eq_some s.env s.begin.lib ha
  obtain rfl := Option.some.inj (hrem.symm.trans ht')
  obtain ⟨m, hm'⟩ : ∃ m, (s.begin.lib.setRole t (.retired b)).setBook b { s.begin.lib.book b with
      twin := none, twinMark := (s.begin.lib.book b).filing } = m := ⟨_, rfl⟩
  have hmb (c : Book) : m.book c = if b = c then { s.lib.book b with twin := none, twinMark := (s.lib.book b).filing } else s.lib.book c := by
    rw [← hm', Library.setBook_book]; rfl
  have hmr (i : Side) : m.role i = if t = i then .retired b else s.lib.role i := by
    rw [← hm']; exact Library.setRole_role ..
  have hleaves := afterRemoval_leaves s.env m (b := b) t (by rw [hmb, if_pos rfl])
  have hentry : a.entry tag = some x := by
    rw [hm]
    exact afterRemoval_entry s.env _ b t (show s.lib.entry tag = some x from h.entry) (fun g hg => by rw [h.job] at hg; cases hg)
      (fun g hg => by rw [h.job] at hg; cases hg)
  rw [hm'] at hm
  rw [← hm] at hleaves
  obtain ⟨h1, h2, h3, h4, h5, h6, h7, h8, h9, h10⟩ := hleaves
  have hcare : m.care = s.lib.care := by rw [← hm']; rfl
  have hbuffer : m.buffer = s.lib.buffer := by rw [← hm']; rfl
  have hsched : m.scheduler = s.lib.scheduler := by rw [← hm']; rfl
  have happly : s.begin.applyWrite (.removeTwin b) = some { s.begin with lib := a } := by
    show s.begin.withLib (s.begin.lib.removeTwin s.env b) = _
    rw [ha]; rfl
  obtain ⟨u, hu, hr, hends⟩ := h.reacted (c := .twinRemoval tag .opened) (t := { s.begin with lib := a }) rfl rfl rfl happly rfl hentry
  have hreq := endRequest_ends hentry .done 1 0
  have hhold : u.lib.buffer.hold = a.buffer.hold := hr.lib.hold.trans hreq.hold
  have hesc : u.lib.buffer.escalation = a.buffer.escalation := hr.lib.escalation.trans hreq.escalation
  have hrole (i : Side) : a.role i = if t = i then .retired b else s.lib.role i := (congrArg (fun v : Vector Role 128 => look v i) h1).trans (hmr i)
  have hbook (c : Book) : a.book c = if b = c then { s.lib.book b with twin := none, twinMark := (s.lib.book b).filing } else s.lib.book c :=
    (congrArg (fun v : Vector BookEntry 127 => look v c) h2).trans (hmb c)
  have htested : EscalationTested s.lib a := h5.congr (by rw [hbuffer]) (by rw [hsched]) rfl rfl rfl rfl
  refine ⟨u, a, hu, ha, hr, hends, (hrole t).trans (if_pos rfl), fun i hi => (hrole i).trans (if_neg (Ne.symm hi)), (hbook b).trans (if_pos rfl),
    fun c hc => (hbook c).trans (if_neg (Ne.symm hc)), h3, by rw [hhold, h4, hbuffer], ?_, htested, hesc, ?_,
    by rw [h6, hcare], by rw [h7, hcare], by rw [h8, hcare], by rw [h9, ← hm']; rfl, by rw [h10, ← hm']; rfl⟩
  · rw [hesc, hhold]
    exact htested.flag
  · rw [hr.lib.escalationCopy, (windowWork_endRequest a tag .done 1 0).scheduler]

/-- Settles O43: each change by what it leaves when its checks pass, and its refusal else. -/
theorem bookTableWrites : Obligations.BookTableWrites := by
  refine ⟨fun s tag x b p t h hstate hp hbr hsr ht => ?_, fun s tag x b h => ⟨fun t hstate htwin hrole hslot hbr hsr => ?_, fun n hn => ?_⟩,
    fun s tag x b h => ⟨fun t hstate htwin hbr hsr => twinRemoval_ends h hstate htwin hbr hsr, fun hn => ?_⟩, fun s tag x b h => ?_⟩
  · refine assignment_ends h _ ?_ hstate hp hbr hsr ht
    cases t with
    | none => rfl
    | some q =>
      have : ¬ q.val = 255 := by have := q.isLt; omega
      show (if q.val = 255 then _ else (sideField q.val).map some) = _
      rw [if_neg this, sideField_eq_some.mpr rfl]
      rfl
  · obtain ⟨u, hu, hadd, hr, hends⟩ := twinAddition_ends h hstate htwin hrole hslot hbr hsr
    obtain ⟨h1, h2, h3, h4, h5, h6, h7, h8, h9, h10, h11, h12, h13, h14, h15, -⟩ := addTwin_leaves s.env s.begin.lib (b := b) t
    exact ⟨u, _, hu, hadd, hr, hends, h1, h2, h3, h4, h5, h6, h7, h8, h9, h10, h11, h12, h13, h14, h15⟩
  · refine h.tableRefused (c := .twinAddition tag .opened n) rfl rfl rfl rfl ?_
    show s.begin.withLib (s.begin.lib.addTwin s.env b n) = none
    rw [addTwin_refused s.env s.begin.lib n (.inr (.inr (.inl fun hlt => absurd hlt (by omega))))]
    rfl
  · refine h.tableRefused (c := .twinRemoval tag .opened) rfl rfl rfl rfl ?_
    show s.begin.withLib (s.begin.lib.removeTwin s.env b) = none
    rw [removeTwin_refused s.env s.begin.lib (.inr (.inr hn))]
    rfl
  · intro refused rescued notBlank
    refine ⟨fun p t hf => ?_, fun t hf => ?_, fun hf => ?_⟩
    · exact h.tableRefused (c := .assignment tag .opened p t) rfl rfl rfl rfl (assignBook_refused (s := s.begin) p t hf)
    · refine h.tableRefused (c := .twinAddition tag .opened t) rfl rfl rfl rfl ?_
      show s.begin.withLib (s.begin.lib.addTwin s.env b t) = none
      rw [addTwin_refused s.env s.begin.lib t hf]
      rfl
    · refine h.tableRefused (c := .twinRemoval tag .opened) rfl rfl rfl rfl ?_
      show s.begin.withLib (s.begin.lib.removeTwin s.env b) = none
      rw [removeTwin_refused s.env s.begin.lib (hf.imp id .inl)]
      rfl

end Settled

end Sys2Proof.Machine
end

section
-- One declaration after the other: the stacks of the threads that wait for each other count against the check's memory limit.
set_option Elab.async false
namespace Sys2Proof.Machine

/-! # The windows of a request -/

section Windows

variable {l m : Library} {t u : Tag} {w v : Window} {ws : List Window}

theorem same_iff : v.same w = true ↔ v.book = w.book ∧ v.frame = w.frame := by simp [Window.same]

theorem windows_of_entry (h : m.entry t = l.entry t) : m.windows t = l.windows t := by
  unfold Library.windows
  rw [h]

theorem windows_of_front (h : m.front = l.front) (t : Tag) : m.windows t = l.windows t :=
  windows_of_entry (congrArg (fun v : Front => look v.table t) h)

/-- R58: the windows of a tag, once replaced, are the new ones. -/
theorem windows_setWindows (h : l.windows t ≠ []) (ws : List Window) : (l.setWindows t ws).windows t = ws := by
  unfold Library.windows at h
  unfold Library.setWindows
  cases hx : l.entry t with
  | none => rw [hx] at h; exact absurd rfl h
  | some x =>
    rw [hx] at h
    have hentry : (l.setEntry t (some (x.setWindows ws))).entry t = some (x.setWindows ws) := Library.setEntry_entry_same ..
    show (l.setEntry t (some (x.setWindows ws))).windows t = ws
    unfold Library.windows
    rw [hentry]
    show (x.setWindows ws).windows = ws
    unfold Entry.windows at h
    by_cases hl : x.live = true
    · simp only [hl, if_true] at h
      cases hj : x.job with
      | fetch g =>
        have hs : x.setWindows ws = { x with job := .fetch { g with windows := ws } } := by
          unfold Entry.setWindows
          rw [if_pos hl, hj]
        rw [hs]
        unfold Entry.windows
        exact if_pos hl
      | file | servicePages | serviceWrite | refused => simp [hj] at h
    · exact absurd (if_neg hl) h

theorem entry_setWindows (hu : u ≠ t) (ws : List Window) : (l.setWindows t ws).entry u = l.entry u := by
  unfold Library.setWindows
  split
  · exact (Library.setEntry_entry ..).trans (if_neg (Ne.symm hu))
  · rfl

theorem windows_setWindow (h : ∃ v ∈ l.windows t, v.book = w.book ∧ v.frame = w.frame) :
    (l.setWindow t w).windows t = (l.windows t).map fun v => if v.same w then w else v := by
  obtain ⟨v, hv, -⟩ := h
  exact windows_setWindows (List.ne_nil_of_mem hv) _

theorem mem_setWindow (h : ∃ v ∈ l.windows t, v.book = w.book ∧ v.frame = w.frame) : w ∈ (l.setWindow t w).windows t := by
  rw [windows_setWindow h]
  obtain ⟨v, hv, hs⟩ := h
  exact List.mem_map.mpr ⟨v, hv, if_pos (same_iff.mpr hs)⟩

theorem scheduler_setWindow : (l.setWindow t w).scheduler = l.scheduler := by
  unfold Library.setWindow Library.setWindows
  split <;> rfl

/-- R42: the stopped record of a window. -/
def Window.stoppedAt (w : Window) (st : Stop) : Window := { w.withStop st with state := .stopped, item := none, reading := false }

theorem stoppedAt_key (w : Window) (st : Stop) : (w.stoppedAt st).book = w.book ∧ (w.stoppedAt st).frame = w.frame
    ∧ (w.stoppedAt st).sectors = w.sectors := by
  unfold Window.stoppedAt Window.withStop
  split
  · split <;> exact ⟨rfl, rfl, rfl⟩
  · exact ⟨rfl, rfl, rfl⟩

theorem stoppedAt_stop (h : w.stop = none) (st : Stop) : (w.stoppedAt st).stop = some st := by
  unfold Window.stoppedAt Window.withStop
  rw [h]

theorem windowsUpTo_last (h : ∃ v ∈ ws, v.book = w.book ∧ v.frame = w.frame) : (windowsUpTo w ws).getLast? = some w := by
  induction ws with
  | nil => obtain ⟨v, hv, -⟩ := h; cases hv
  | cons y ys ih =>
    unfold windowsUpTo
    split
    · rfl
    next hy =>
      have htail : ∃ v ∈ ys, v.book = w.book ∧ v.frame = w.frame := by
        obtain ⟨v, hv, hs⟩ := h
        rcases List.mem_cons.mp hv with rfl | hv
        · exact absurd (same_iff.mpr hs) hy
        · exact ⟨v, hv, hs⟩
      have hne : windowsUpTo w ys ≠ [] := fun hn => by
        have := ih htail
        rw [hn] at this
        cases this
      rw [List.getLast?_cons_of_ne_nil hne]
      exact ih htail

theorem mem_windowsUpTo (h : v ∈ windowsUpTo w ws) : v = w ∨ v ∈ ws := by
  induction ws with
  | nil => cases h
  | cons y ys ih =>
    unfold windowsUpTo at h
    split at h
    · exact .inl (List.mem_singleton.mp h)
    · rcases List.mem_cons.mp h with rfl | h
      · exact .inr List.mem_cons_self
      · exact (ih h).imp id (List.mem_cons_of_mem _)

theorem windows_recordStop (h : ∃ v ∈ l.windows t, v.book = w.book ∧ v.frame = w.frame) (st : Stop) :
    (l.recordStop t w st).windows t = windowsUpTo (w.stoppedAt st) (l.windows t) := by
  obtain ⟨v, hv, -⟩ := h
  have hfront : ((windowsAbove w (l.windows t)).foldl (fun l v => l.release t v none) l).front = l.front :=
    (onlyDemand_releases t none (windowsAbove w (l.windows t)) l).front
  have hne : ((windowsAbove w (l.windows t)).foldl (fun l v => l.release t v none) l).windows t ≠ [] := by
    rw [windows_of_front hfront]
    exact List.ne_nil_of_mem hv
  exact windows_setWindows hne (windowsUpTo (w.stoppedAt st) (l.windows t))

theorem recordStop_last (h : ∃ v ∈ l.windows t, v.book = w.book ∧ v.frame = w.frame) (st : Stop) :
    ((l.recordStop t w st).windows t).getLast? = some (w.stoppedAt st) := by
  rw [windows_recordStop h]
  obtain ⟨hb, hf, -⟩ := stoppedAt_key w st
  exact windowsUpTo_last (by rw [hb, hf]; exact h)

end Windows

section Turns

/-- Chapter 4: what the turning of a window of a tag leaves: every other window that is left is as it was, the window itself holds its slots, and no tag joins the look-ahead
waiting list. -/
structure Turns (l a : Library) (t : Tag) (w : Window) : Prop where
  work : WindowWork l a
  kept : ∀ v ∈ a.windows t, v.same w = true ∨ v ∈ l.windows t
  wait : ∀ u, u ∈ a.buffer.lookWait → u ∈ l.buffer.lookWait
  opens : ∃ v ∈ a.windows t, v.book = w.book ∧ v.frame = w.frame ∧ v.isOpen = true

variable {e : Env} {l : Library} {t : Tag} {w : Window}

/-- The window has a record in the request. -/
def Library.hasWindow (l : Library) (t : Tag) (w : Window) : Prop := ∃ v ∈ l.windows t, v.book = w.book ∧ v.frame = w.frame

theorem Turns.before {l' a : Library} {w' : Window} (h : Turns l' a t w') (hw : WindowWork l l') (hf : l'.front = l.front)
    (hl : l'.buffer = l.buffer) (hk : w'.book = w.book ∧ w'.frame = w.frame) : Turns l a t w where
  work := hw.trans h.work
  kept v hv := by
    rw [← windows_of_front hf]
    refine (h.kept v hv).imp (fun hs => ?_) id
    rw [same_iff] at *
    exact ⟨hs.1.trans hk.1, hs.2.trans hk.2⟩
  wait u hu := by rw [← hl]; exact h.wait u hu
  opens := by rw [← hk.1, ← hk.2]; exact h.opens

theorem turns_setWindow {w' : Window} (h : l.hasWindow t w) (hk : w'.book = w.book ∧ w'.frame = w.frame) (ho : w'.isOpen = true) :
    Turns l (l.setWindow t w') t w where
  work := windowWork_setWindow l t w'
  kept v hv := by
    have h' : l.hasWindow t w' := by unfold Library.hasWindow; rw [hk.1, hk.2]; exact h
    rw [windows_setWindow h'] at hv
    obtain ⟨y, hy, rfl⟩ := List.mem_map.mp hv
    split
    · exact .inl (same_iff.mpr hk)
    · exact .inr hy
  wait u hu := by
    unfold Library.setWindow Library.setWindows at hu
    split at hu <;> exact hu
  opens := by
    have h' : l.hasWindow t w' := by unfold Library.hasWindow; rw [hk.1, hk.2]; exact h
    exact ⟨w', mem_setWindow h', hk.1, hk.2, ho⟩

theorem turns_recordStop {w' : Window} (h : l.hasWindow t w) (hk : w'.book = w.book ∧ w'.frame = w.frame) (st : Stop) :
    Turns l (l.recordStop t w' st) t w where
  work := windowWork_recordStop l t w' st
  kept v hv := by
    have h' : l.hasWindow t w' := by unfold Library.hasWindow; rw [hk.1, hk.2]; exact h
    rw [windows_recordStop h'] at hv
    refine (mem_windowsUpTo hv).imp (fun hs => ?_) id
    obtain ⟨hb, hf, -⟩ := stoppedAt_key w' st
    rw [same_iff, hs]
    exact ⟨hb.trans hk.1, hf.trans hk.2⟩
  wait u hu := by
    unfold Library.recordStop at hu
    dsimp only at hu
    have hbuf : ((((windowsAbove w' (l.windows t)).foldl (fun l v => l.release t v none) l).setWindows t
        (windowsUpTo { w'.withStop st with state := .stopped, item := none, reading := false } (l.windows t))).buffer) = l.buffer := by
      have := (onlyDemand_releases t none (windowsAbove w' (l.windows t)) l).buffer
      unfold Library.setWindows
      split <;> exact this
    rw [hbuf] at hu
    split at hu
    · exact hu
    · exact (List.mem_filter.mp hu).1
  opens := by
    have h' : l.hasWindow t w' := by unfold Library.hasWindow; rw [hk.1, hk.2]; exact h
    obtain ⟨hb, hf, -⟩ := stoppedAt_key w' st
    exact ⟨w'.stoppedAt st, List.mem_of_getLast? (recordStop_last h' st), hb.trans hk.1, hf.trans hk.2, rfl⟩

theorem judge_isOpen (w : Window) : w.judge.isOpen = true := by
  unfold Window.judge Window.isOpen
  split
  · split <;> rfl
  · rfl

theorem turns_holdFallback {w' : Window} (h : l.hasWindow t w) (hk : w'.book = w.book ∧ w'.frame = w.frame) : Turns l (l.holdFallback t w') t w := by
  unfold Library.holdFallback
  dsimp only
  split
  · exact turns_setWindow h hk (judge_isOpen _)
  · split
    · exact turns_setWindow h hk (judge_isOpen _)
    · exact turns_recordStop h (by exact hk) _

theorem turns_twinFallback {w' : Window} (h : l.hasWindow t w) (hk : w'.book = w.book ∧ w'.frame = w.frame) : Turns l (l.twinFallback e t w') t w := by
  unfold Library.twinFallback
  split
  · exact turns_setWindow h hk (judge_isOpen _)
  · split
    · split
      · exact (turns_setWindow (l := l.place e _ (.fetch t w'.book w'.frame)) (w := w) h (by exact hk) rfl).before (windowWork_place e l _ _) rfl rfl ⟨rfl, rfl⟩
      · exact turns_holdFallback h hk
    · exact turns_holdFallback h hk

theorem turns_source {w' : Window} (h : l.hasWindow t w) (hk : w'.book = w.book ∧ w'.frame = w.frame) : Turns l (l.source e t w') t w := by
  unfold Library.source
  split
  · exact turns_setWindow h hk (judge_isOpen _)
  · split
    · split
      · exact (turns_setWindow (l := l.place e _ (.fetch t w'.book w'.frame)) (w := w) h (by exact hk) rfl).before (windowWork_place e l _ _) rfl rfl ⟨rfl, rfl⟩
      · exact turns_twinFallback h hk
    · exact turns_twinFallback h hk

theorem turns_resolve (h : l.hasWindow t w) : Turns l (l.resolve e t w) t w := by
  unfold Library.resolve
  dsimp only
  split
  · split
    · exact turns_setWindow h ⟨rfl, rfl⟩ rfl
    · exact turns_setWindow h ⟨rfl, rfl⟩ (judge_isOpen _)
  · exact turns_setWindow h ⟨rfl, rfl⟩ (judge_isOpen _)
  · exact turns_recordStop h (by exact ⟨rfl, rfl⟩) _
  · exact turns_source h ⟨rfl, rfl⟩
  · exact turns_source h ⟨rfl, rfl⟩

theorem eachWindow_same (f : Library → Window → Library) (h : ∀ v ∈ l.windows t, f l v = l) : l.eachWindow t f = l := by
  have hstep (xs : List Window) : xs.foldl (fun l w => match (l.windows t).find? fun v => v.same w with
      | some v => f l v
      | none => l) l = l := by
    induction xs with
    | nil => rfl
    | cons x xs ih =>
      rw [List.foldl_cons]
      cases hf : (l.windows t).find? fun v => v.same x with
      | none => exact ih
      | some v =>
        dsimp only
        rw [h v (List.mem_of_find?_eq_some hf)]
        exact ih
  exact hstep _

/-- A visit of the windows at which one alone turns. -/
theorem eachWindow_one (f : Library → Window → Library) (hw : w ∈ l.windows t) (hn : ((l.windows t).map fun v => (v.book, v.frame)).Nodup)
    (hothers : ∀ v ∈ l.windows t, v ≠ w → f l v = l) (hturn : Turns l (f l w) t w)
    (hafter : ∀ v ∈ l.windows t, v ≠ w → f (f l w) v = f l w) : l.eachWindow t f = f l w := by
  have hunique : ∀ v ∈ l.windows t, ∀ v' ∈ l.windows t, v.same v' = true → v = v' := fun v hv v' hv' hs =>
    List.inj_on_of_nodup_map hn hv hv' (Prod.ext (same_iff.mp hs).1 (same_iff.mp hs).2)
  have hfind (v : Window) (hv : v ∈ l.windows t) : (l.windows t).find? (fun y => y.same v) = some v := by
    obtain ⟨y, hy⟩ := Option.isSome_iff_exists.mp (List.find?_isSome (p := fun y => y.same v) (xs := l.windows t) |>.mpr ⟨v, hv, same_iff.mpr ⟨rfl, rfl⟩⟩)
    rw [hy, hunique y (List.mem_of_find?_eq_some hy) v hv (List.find?_some (p := fun y : Window => y.same v) hy)]
  have hbefore (xs : List Window) (hxs : ∀ x ∈ xs, x ∈ l.windows t ∧ x ≠ w) : xs.foldl (fun l w => match (l.windows t).find? fun v => v.same w with
      | some v => f l v
      | none => l) l = l := by
    induction xs with
    | nil => rfl
    | cons x xs ih =>
      obtain ⟨hx, hxw⟩ := hxs x List.mem_cons_self
      rw [List.foldl_cons, hfind x hx]
      show List.foldl _ (f l x) xs = l
      rw [hothers x hx hxw]
      exact ih fun y hy => hxs y (List.mem_cons_of_mem _ hy)
  have hrest (xs : List Window) (hxs : ∀ x ∈ xs, x ∈ l.windows t ∧ x ≠ w) : xs.foldl (fun l w => match (l.windows t).find? fun v => v.same w with
      | some v => f l v
      | none => l) (f l w) = f l w := by
    induction xs with
    | nil => rfl
    | cons x xs ih =>
      obtain ⟨hx, hxw⟩ := hxs x List.mem_cons_self
      rw [List.foldl_cons]
      cases hf : ((f l w).windows t).find? fun v => v.same x with
      | none => exact ih fun y hy => hxs y (List.mem_cons_of_mem _ hy)
      | some v =>
        have hvx : v.same x = true := List.find?_some (p := fun v : Window => v.same x) hf
        have hv : v = x := by
          rcases hturn.kept v (List.mem_of_find?_eq_some hf) with hs | hv
          · refine absurd (hunique x hx w hw ?_) hxw
            rw [same_iff] at *
            exact ⟨hvx.1.symm.trans hs.1, hvx.2.symm.trans hs.2⟩
          · exact hunique v hv x hx hvx
        show List.foldl _ (f (f l w) v) xs = f l w
        rw [hv, hafter x hx hxw]
        exact ih fun y hy => hxs y (List.mem_cons_of_mem _ hy)
  obtain ⟨pre, post, hsplit⟩ := List.append_of_mem hw
  have hnodup : (pre ++ w :: post).Nodup := by
    rw [← hsplit]
    exact List.Nodup.of_map _ hn
  have hpre : ∀ x ∈ pre, x ∈ l.windows t ∧ x ≠ w := fun x hx => by
    refine ⟨by rw [hsplit]; exact List.mem_append_left _ hx, fun hxw => ?_⟩
    exact (List.nodup_append.mp hnodup).2.2 x hx w List.mem_cons_self hxw
  have hpost : ∀ x ∈ post, x ∈ l.windows t ∧ x ≠ w := fun x hx => by
    refine ⟨by rw [hsplit]; exact List.mem_append_right _ (List.mem_cons_of_mem _ hx), fun hxw => ?_⟩
    exact (List.nodup_cons.mp (List.nodup_append.mp hnodup).2.1).1 (hxw ▸ hx)
  have hvisit : (l.windows t).foldl (fun l w => match (l.windows t).find? fun v => v.same w with
      | some v => f l v
      | none => l) l = f l w := by
    conv_lhs => arg 3; rw [hsplit]
    rw [List.foldl_append, hbefore pre hpre, List.foldl_cons, hfind w hw]
    exact hrest post hpost
  exact hvisit

end Turns

end Sys2Proof.Machine
end

section
-- One declaration after the other: the stacks of the threads that wait for each other count against the check's memory limit.
set_option Elab.async false
namespace Sys2Proof.Machine

/-! # How a window turns through its copies -/

section Sectors

variable {w : Window} {n i : Nat}

theorem mem_missing : i ∈ w.missing ↔ w.first ≤ i ∧ i ≤ w.last ∧ i < w.resolved.length ∧ (w.sector i).source = .none := by
  unfold Window.missing
  rw [List.mem_filter, List.mem_range'_1, beq_iff_eq]
  constructor
  · rintro ⟨⟨h1, h2⟩, h3⟩
    exact ⟨h1, by omega, by omega, h3⟩
  · rintro ⟨h1, h2, h3, h4⟩
    exact ⟨⟨h1, by omega⟩, h4⟩

theorem sector_split (h1 : w.first ≤ i) (h2 : i ≤ w.last) : (w.split n).sector i = if i < n then .empty else .zero := by
  unfold Window.split Window.sector
  dsimp only
  have hlt : i - w.first < w.size := by unfold Window.size; omega
  rw [List.getElem?_map, List.getElem?_range' hlt]
  show (if w.first + 1 * (i - w.first) < n then SectorState.empty else .zero) = _
  rw [show w.first + 1 * (i - w.first) = i by omega]

theorem missing_split (h : w.resolved.length = n) : (w.split n).missing = List.range' w.first (min (w.last + 1) n - w.first) := by
  have heq : (w.split n).missing = (List.range' w.first (min (w.last + 1) w.resolved.length - w.first)).filter
      fun i => ((w.split n).sector i).source == .none := rfl
  rw [heq, h, List.filter_eq_self]
  intro i hi
  rw [List.mem_range'_1] at hi
  rw [sector_split hi.1 (by omega), if_pos (by omega)]
  rfl

theorem split_zeros (h : n ≤ w.first) : (w.split n).sectors = List.replicate w.size .zero := by
  have heq : (w.split n).sectors = (List.range' w.first w.size).map fun i => if i < n then SectorState.empty else .zero := rfl
  rw [heq, List.map_congr_left (g := fun _ => SectorState.zero), List.map_const', List.length_range']
  intro i hi
  rw [List.mem_range'_1] at hi
  exact if_neg (by omega)

theorem missing_short (h : w.resolved.length ≤ w.first) : w.missing = [] := by
  rw [List.eq_nil_iff_forall_not_mem]
  intro i hi
  rw [mem_missing] at hi
  omega

theorem judge_staged (hm : w.missing = []) (hs : w.stop = none) : w.judge = { w with state := .staged } := by
  unfold Window.judge
  rw [hm, hs]
  rfl

/-- R69: what a hold entry leaves in a sector of a window. -/
theorem fillFrom_sectors (h : HoldEntry) (j : Nat) : (w.fillFrom h).sectors[j]? = w.sectors[j]?.map fun old =>
    if w.first + j ∈ w.missing then { old with source := .hold, data := (h.data[w.first + j]?).getD Sector.zeros } else old := by
  have heq : (w.fillFrom h).sectors = w.sectors.mapIdx fun j s => if w.missing.contains (w.first + j) then
      { s with source := .hold, data := (h.data[w.first + j]?).getD Sector.zeros } else s := rfl
  rw [heq, List.getElem?_mapIdx]
  simp only [List.contains_iff_mem]

theorem fillFrom_missing (h : HoldEntry) (hl : w.sectors.length = w.size) : (w.fillFrom h).missing = [] := by
  rw [List.eq_nil_iff_forall_not_mem]
  intro i hi
  obtain ⟨h1, h2, h3, h4⟩ := mem_missing.mp hi
  have h1 : w.first ≤ i := h1
  have h2 : i ≤ w.last := h2
  have hlt : i - w.first < w.sectors.length := by rw [hl]; unfold Window.size; omega
  have hidx : w.first + (i - w.first) = i := by omega
  have hsec : (w.fillFrom h).sector i = (if i ∈ w.missing then
      { w.sector i with source := .hold, data := (h.data[i]?).getD Sector.zeros } else w.sector i) := by
    have hold : w.sector i = w.sectors[i - w.first] := by
      unfold Window.sector
      rw [List.getElem?_eq_getElem hlt]
      rfl
    have hfill := fillFrom_sectors (w := w) h (i - w.first)
    rw [List.getElem?_eq_getElem hlt, hidx] at hfill
    have hnew : (w.fillFrom h).sector i = ((w.fillFrom h).sectors[i - w.first]?).getD .empty := rfl
    rw [hnew, hfill, hold]
    rfl
  rw [hsec] at h4
  split at h4
  · cases h4
  next hm => exact hm (mem_missing.mpr ⟨h1, h2, h3, h4⟩)

end Sectors

section Turning

variable {e : Env} {l : Library} {t : Tag} {w : Window}

theorem place_listed (e : Env) (l : Library) (s : Side) (k : ItemKind) : listed k ((l.place e s k).items s) = true := by
  have hitems : (l.place e s k).items s = joinItem ⟨k, e.now⟩ (look l.scheduler.lists s) := look_put_same ..
  rw [hitems]
  exact (joinItem_listed _ _).1

/-- R60: a frame that holds nothing leaves zero-filled sectors. -/
theorem resolve_zeros (h : l.hasWindow t w) (hf : e.frame w.book w.frame = .void
      ∨ (e.frame w.book w.frame = .blank ∧ ¬ ((l.book w.book).filing ≤ w.frame ∧ w.frame < (l.book w.book).intake))) (hs : w.stop = none) :
    (l.resolve e t w).scheduler = l.scheduler ∧ ∃ v ∈ (l.resolve e t w).windows t, v = { w with
      resolved := v.resolved, state := .staged, sectors := List.replicate w.size .zero, item := none, onTwin := false, reading := false } := by
  obtain ⟨r, hr, hlen⟩ : ∃ r : Frame, l.resolve e t w = l.setWindow t
      ({ w with resolved := r, item := none, onTwin := false, reading := false } : Window).zeroFill.judge ∧ r.length = 0 := by
    unfold Library.resolve
    rcases hf with hf | ⟨hf, hn⟩
    · exact ⟨.void, by rw [hf], rfl⟩
    · refine ⟨.blank, ?_, rfl⟩
      rw [hf]
      exact if_neg hn
  have hj : ({ w with resolved := r, item := none, onTwin := false, reading := false } : Window).zeroFill.judge
      = { ({ w with resolved := r, item := none, onTwin := false, reading := false } : Window).zeroFill with state := .staged } :=
    judge_staged (missing_short (by show r.length ≤ w.first; omega)) hs
  rw [hr, hj]
  exact ⟨scheduler_setWindow, _, mem_setWindow (by exact h), rfl⟩

theorem resolve_pending (h : l.hasWindow t w) (hf : e.frame w.book w.frame = .blank) (h1 : (l.book w.book).filing ≤ w.frame)
    (h2 : w.frame < (l.book w.book).intake) : (l.resolve e t w).scheduler = l.scheduler
      ∧ { w with
        resolved := .blank, state := .pending, sectors := List.replicate w.size SectorState.empty, item := none, onTwin := false, reading := false }
          ∈ (l.resolve e t w).windows t := by
  have heq : l.resolve e t w = l.setWindow t { w with
      resolved := .blank, state := .pending, sectors := List.replicate w.size SectorState.empty, item := none, onTwin := false, reading := false } := by
    unfold Library.resolve
    rw [hf]
    exact if_pos ⟨h1, h2⟩
  rw [heq]
  exact ⟨scheduler_setWindow, mem_setWindow (by exact h)⟩

theorem resolve_lost (h : l.hasWindow t w) (hf : (e.frame w.book w.frame).isLost = true) (hs : w.stop = none) :
    ∃ v, ((l.resolve e t w).windows t).getLast? = some v ∧ v.book = w.book ∧ v.frame = w.frame ∧ v.state = .stopped ∧ v.item = none
      ∧ v.stop = some ⟨w.first, .unreadable⟩ := by
  obtain ⟨r, hr⟩ : ∃ r : Frame, l.resolve e t w = l.recordStop t { w with
      resolved := r, item := none, onTwin := false, reading := false, sectors := List.replicate w.size .empty } ⟨w.first, .unreadable⟩ := by
    unfold Library.resolve
    cases hfr : e.frame w.book w.frame with
    | lost k c => exact ⟨.lost k c, rfl⟩
    | blank | void | head | cont => rw [hfr] at hf; cases hf
  rw [hr]
  refine ⟨_, recordStop_last (by exact h) _, ?_, ?_, rfl, rfl, stoppedAt_stop (by exact hs) _⟩
  · exact (stoppedAt_key _ _).1
  · exact (stoppedAt_key _ _).2.1

/-- R59, R64: a filed frame is asked for at its sources. -/
theorem resolve_filed {n : Nat} (hf : (e.frame w.book w.frame).filed = true) (hn : (e.frame w.book w.frame).length = n) :
    l.resolve e t w = l.source e t
      (({ w with resolved := e.frame w.book w.frame, item := none, onTwin := false, reading := false } : Window).split n) := by
  unfold Library.resolve
  cases hfr : e.frame w.book w.frame with
  | head k m => rw [hfr] at hn; subst hn; rfl
  | cont k m => rw [hfr] at hn; subst hn; rfl
  | blank | void | lost => rw [hfr] at hf; cases hf

theorem resolve_asks {n : Nat} (h : l.hasWindow t w) (hf : (e.frame w.book w.frame).filed = true) (hn : (e.frame w.book w.frame).length = n)
    (hs : w.stop = none) :
    (n ≤ w.first → (l.resolve e t w).scheduler = l.scheduler
        ∧ ∃ v ∈ (l.resolve e t w).windows t, v.book = w.book ∧ v.frame = w.frame ∧ v.state = .staged ∧ v.sectors = List.replicate w.size .zero)
      ∧ (∀ p, w.first < n → w.first ≤ w.last → (l.book w.book).primary = some p → l.available e p = true →
        listed (.fetch t w.book w.frame) ((l.resolve e t w).items p) = true
        ∧ ∃ v ∈ (l.resolve e t w).windows t, v.book = w.book ∧ v.frame = w.frame ∧ v.state = .sourcing ∧ v.item = some p ∧ v.onTwin = false
          ∧ v.missing = List.range' w.first (min (w.last + 1) n - w.first)
          ∧ ∀ i, n ≤ i → w.first ≤ i → i ≤ w.last → v.sector i = .zero)
      ∧ (∀ p, w.first < n → w.first ≤ w.last → (l.book w.book).primary = some p → l.available e p = false →
        l.resolve e t w = l.twinFallback e t { w.split n with resolved := e.frame w.book w.frame, item := none, onTwin := false, reading := false }) := by
  obtain ⟨w', hw'⟩ : ∃ w' : Window, ({ w with resolved := e.frame w.book w.frame, item := none, onTwin := false, reading := false } : Window) = w' := ⟨_, rfl⟩
  have hres : w'.resolved.length = n := by rw [← hw']; exact hn
  have hmiss := missing_split hres
  have hfirst : w'.first = w.first := by rw [← hw']
  have hlast : w'.last = w.last := by rw [← hw']
  have hkey : (w'.split n).book = w.book ∧ (w'.split n).frame = w.frame := by rw [← hw']; exact ⟨rfl, rfl⟩
  have hsize : w'.size = w.size := by rw [← hw']; rfl
  have hstop : (w'.split n).stop = none := by rw [← hw']; exact hs
  have hwin : ∃ v ∈ l.windows t, v.book = (w'.split n).book ∧ v.frame = (w'.split n).frame := by rw [hkey.1, hkey.2]; exact h
  rw [resolve_filed hf hn, hw']
  rw [hfirst, hlast] at hmiss
  have hsome (p1 : w.first < n) (p2 : w.first ≤ w.last) : ¬ (w'.split n).missing.isEmpty = true := by
    rw [List.isEmpty_iff, hmiss, List.range'_eq_nil_iff]
    omega
  refine ⟨fun hle => ?_, fun p p1 p2 hp ha => ?_, fun p p1 p2 hp ha => ?_⟩
  · have hnil : (w'.split n).missing = [] := by rw [hmiss, List.range'_eq_nil_iff]; omega
    have heq : l.source e t (w'.split n) = l.setWindow t { w'.split n with state := .staged } := by
      unfold Library.source
      rw [if_pos (by rw [hnil]; rfl), judge_staged hnil hstop]
    rw [heq]
    refine ⟨scheduler_setWindow, _, mem_setWindow (by exact hwin), hkey.1, hkey.2, rfl, ?_⟩
    rw [← hsize]
    exact split_zeros (by rw [hfirst]; exact hle)
  · have hp' : (l.book (w'.split n).book).primary = some p := by rw [hkey.1]; exact hp
    have heq : l.source e t (w'.split n) = (l.place e p (.fetch t (w'.split n).book (w'.split n).frame)).setWindow t
        { w'.split n with item := some p, onTwin := false, reading := false, state := .sourcing } := by
      unfold Library.source
      rw [if_neg (hsome p1 p2), hp']
      exact if_pos ha
    have hitems (v : Window) : listed (.fetch t w.book w.frame) (((l.place e p (.fetch t (w'.split n).book (w'.split n).frame)).setWindow t v).items p)
        = true := by
      refine (congrArg (fun c : Scheduler => listed (.fetch t w.book w.frame) (look c.lists p)) scheduler_setWindow).trans ?_
      rw [hkey.1, hkey.2]
      exact place_listed e l p _
    rw [heq]
    refine ⟨hitems _, _, mem_setWindow (by exact hwin), hkey.1, hkey.2, rfl, rfl, rfl, hmiss, fun i h1 h2 h3 => ?_⟩
    have := sector_split (w := w') (n := n) (i := i) (by rw [hfirst]; exact h2) (by rw [hlast]; exact h3)
    rw [if_neg (by omega)] at this
    exact this
  · have heq : l.source e t (w'.split n) = l.twinFallback e t (w'.split n) := by
      unfold Library.source
      rw [if_neg (hsome p1 p2), hkey.1, hp]
      exact if_neg (by rw [ha]; decide)
    rw [heq, ← hw']
    rfl

theorem twinFallback_asks (h : l.hasWindow t w) (hm : w.missing ≠ []) {s : Side} (hs : (l.book w.book).twin = some s)
    (hf : w.frame < (l.book w.book).twinMark) (ha : l.available e s = true) :
    listed (.fetch t w.book w.frame) ((l.twinFallback e t w).items s) = true
      ∧ { w with item := some s, onTwin := true, reading := false, state := .sourcing } ∈ (l.twinFallback e t w).windows t := by
  have heq : l.twinFallback e t w = (l.place e s (.fetch t w.book w.frame)).setWindow t
      { w with item := some s, onTwin := true, reading := false, state := .sourcing } := by
    unfold Library.twinFallback
    rw [if_neg (by rw [List.isEmpty_iff]; exact hm), hs]
    exact if_pos ⟨hf, ha⟩
  rw [heq]
  refine ⟨?_, mem_setWindow (by exact h)⟩
  exact (congrArg (fun c : Scheduler => listed (.fetch t w.book w.frame) (look c.lists s)) scheduler_setWindow).trans (place_listed e l s _)

theorem twinFallback_falls (hm : w.missing ≠ [])
    (h : ∀ s, (l.book w.book).twin = some s → (l.book w.book).twinMark ≤ w.frame ∨ l.available e s = false) :
    l.twinFallback e t w = l.holdFallback t w := by
  unfold Library.twinFallback
  rw [if_neg (by rw [List.isEmpty_iff]; exact hm)]
  cases hs : (l.book w.book).twin with
  | none => rfl
  | some s =>
    refine if_neg fun hn => ?_
    rcases h s hs with hk | hk
    · omega
    · rw [hk] at hn; cases hn.2

/-- R69: the hold fallback of a window that lacks sectors. -/
theorem holdFallback_held (h : l.hasWindow t w) (hm : w.missing ≠ []) (hl : w.sectors.length = w.size) {x : HoldEntry}
    (hx : l.held w.book w.frame = some x) (hs : w.stop = none) :
    ∃ v ∈ (l.holdFallback t w).windows t, v.book = w.book ∧ v.frame = w.frame ∧ v.state = .staged ∧ v.item = none
      ∧ v.sectors.length = w.sectors.length
      ∧ ∀ (j : Nat) old, w.sectors[j]? = some old →
        (w.first + j ∈ w.missing → v.sectors[j]? = some { old with source := .hold, data := (x.data[w.first + j]?).getD Sector.zeros })
        ∧ (w.first + j ∉ w.missing → v.sectors[j]? = some old) := by
  obtain ⟨w', hw'⟩ : ∃ w' : Window, { w with item := none, reading := false } = w' := ⟨_, rfl⟩
  have hmiss : w'.missing = w.missing := by rw [← hw']; rfl
  have hsecs : w'.sectors = w.sectors := by rw [← hw']
  have hfirst : w'.first = w.first := by rw [← hw']
  have hfill := fillFrom_missing (w := w') x (by rw [← hw']; exact hl)
  have hget := fillFrom_sectors (w := w') x
  have heq : l.holdFallback t w = l.setWindow t { w'.fillFrom x with state := .staged } := by
    obtain ⟨i, rest, hir⟩ := List.exists_cons_of_ne_nil hm
    unfold Library.holdFallback
    dsimp only
    rw [hw', hmiss, hir]
    dsimp only
    rw [hx]
    dsimp only
    rw [judge_staged hfill (by rw [← hw']; exact hs)]
  rw [heq]
  have hkey : w'.book = w.book ∧ w'.frame = w.frame := by rw [← hw']; exact ⟨rfl, rfl⟩
  have hwin : ∃ v ∈ l.windows t, v.book = w'.book ∧ v.frame = w'.frame := by rw [hkey.1, hkey.2]; exact h
  refine ⟨_, mem_setWindow (by exact hwin), hkey.1, hkey.2, rfl, by rw [← hw']; rfl, ?_, fun j old ho => ?_⟩
  · show (w'.fillFrom x).sectors.length = _
    unfold Window.fillFrom
    rw [List.length_mapIdx, hsecs]
  · have := hget j
    rw [hsecs, ho, hfirst, hmiss] at this
    exact ⟨fun hin => this.trans (congrArg some (if_pos hin)), fun hout => this.trans (congrArg some (if_neg hout))⟩

theorem holdFallback_stops (h : l.hasWindow t w) {i : Nat} (hx : l.held w.book w.frame = none) (hi : w.missing.head? = some i) (hs : w.stop = none) :
    ∃ v, ((l.holdFallback t w).windows t).getLast? = some v ∧ v.book = w.book ∧ v.frame = w.frame ∧ v.state = .stopped ∧ v.item = none
      ∧ v.stop = some ⟨i, if (w.sector i).failed = true then .unreadable else .sideUnavailable⟩ ∧ v.sectors = w.sectors := by
  have heq : l.holdFallback t w = l.recordStop t { w with item := none, reading := false }
      ⟨i, if (w.sector i).failed then .unreadable else .sideUnavailable⟩ := by
    obtain ⟨j, rest, hjr⟩ : ∃ j rest, w.missing = j :: rest := List.exists_cons_of_ne_nil (by rintro h; rw [h] at hi; cases hi)
    rw [hjr] at hi
    obtain rfl := Option.some.inj hi
    unfold Library.holdFallback
    dsimp only
    rw [show ({ w with item := none, reading := false } : Window).missing = w.missing from rfl, hjr]
    dsimp only
    rw [hx]
    rfl
  rw [heq]
  obtain ⟨k1, k2, k3⟩ := stoppedAt_key { w with item := none, reading := false } ⟨i, if (w.sector i).failed then .unreadable else .sideUnavailable⟩
  exact ⟨_, recordStop_last (by exact h) _, k1, k2, rfl, rfl, stoppedAt_stop (by exact hs) _, k3⟩

end Turning

end Sys2Proof.Machine
end

section
-- One declaration after the other: the stacks of the threads that wait for each other count against the check's memory limit.
set_option Elab.async false
namespace Sys2Proof.Machine

section Staging

variable {e : Env} {l : Library} {t u : Tag} {w v : Window}

theorem lookAhead_mem (h : l.lookAhead t = some v) : v ∈ l.windows t := by
  unfold Library.lookAhead at h
  split at h
  next x y ys hw =>
    obtain rfl := Option.some.inj h
    rw [hw]
    exact List.mem_cons_of_mem _ List.mem_cons_self
  next => cases h

/-- R46: a window that is opened holds its slots, and no tag joins the look-ahead waiting list. -/
theorem openWindow_opens (h : l.hasWindow t w) :
    (∃ v ∈ (l.openWindow e t w).windows t, v.book = w.book ∧ v.frame = w.frame ∧ v.isOpen = true)
      ∧ ∀ u, u ∈ (l.openWindow e t w).buffer.lookWait → u ∈ l.buffer.lookWait := by
  obtain ⟨m, hm⟩ : ∃ m : Library, { l with buffer := { l.buffer with openings := l.buffer.openings + 1 } } = m := ⟨_, rfl⟩
  obtain ⟨w', hw'⟩ : ∃ w' : Window, { w with opened := l.buffer.openings, state := .sourcing } = w' := ⟨_, rfl⟩
  have heq : l.openWindow e t w = (m.setWindow t w').resolve e t w' := by rw [← hm, ← hw']; rfl
  have hkey : w'.book = w.book ∧ w'.frame = w.frame := by rw [← hw']; exact ⟨rfl, rfl⟩
  have hmw : m.hasWindow t w := by rw [← hm]; exact h
  have hset := turns_setWindow hmw hkey (by rw [← hw']; rfl)
  have hhas : (m.setWindow t w').hasWindow t w' := by
    obtain ⟨v, hv, h1, h2, -⟩ := hset.opens
    exact ⟨v, hv, h1.trans hkey.1.symm, h2.trans hkey.2.symm⟩
  have hres := turns_resolve (e := e) hhas
  rw [heq]
  refine ⟨?_, fun u hu => ?_⟩
  · rw [← hkey.1, ← hkey.2]
    exact hres.opens
  · have := hset.wait u (hres.wait u hu)
    rw [← hm] at this
    exact this

/-- R46, R48: a look-ahead window is opened when the free slots hold it. -/
theorem openLookAhead_opens (h : l.lookAhead t = some v) (ho : v.isOpen = false) :
    (l.stagingFree < v.size → l.openLookAhead e t = l)
      ∧ (v.size ≤ l.stagingFree → t ∉ (l.openLookAhead e t).buffer.lookWait
        ∧ ∃ w ∈ (l.openLookAhead e t).windows t, w.book = v.book ∧ w.frame = v.frame ∧ w.isOpen = true) := by
  obtain ⟨m, hm⟩ : ∃ m : Library, { l with buffer := { l.buffer with lookWait := l.buffer.lookWait.filter fun u => u != t } } = m := ⟨_, rfl⟩
  have heq : l.openLookAhead e t = if v.size ≤ l.stagingFree then m.openWindow e t v else l := by
    unfold Library.openLookAhead
    dsimp only
    rw [hm, h]
    exact if_neg (by rw [ho]; decide)
  rw [heq]
  refine ⟨fun hlt => if_neg (by omega), fun hle => ?_⟩
  rw [if_pos hle]
  have hhas : m.hasWindow t v := by rw [← hm]; exact ⟨v, lookAhead_mem h, rfl, rfl⟩
  obtain ⟨h1, h2⟩ := openWindow_opens (e := e) hhas
  refine ⟨fun hn => ?_, h1⟩
  have := h2 t hn
  rw [← hm] at this
  exact absurd (List.mem_filter.mp this).2 (by simp)

theorem displaceIdle_succ (need : Nat) (t : Tag) (n : Nat) (l : Library) :
    (need ≤ l.stagingFree → Library.displaceIdle need t (n + 1) l = l)
      ∧ (l.stagingFree < need →
        (∀ u v, l.lastLookAhead t false = some (u, v) →
          Library.displaceIdle need t (n + 1) l = Library.displaceIdle need t n (l.displace u v))
        ∧ (l.lastLookAhead t false = none → Library.displaceIdle need t (n + 1) l = l)) := by
  rw [Library.displaceIdle]
  refine ⟨fun h => if_pos h, fun h => ⟨fun u v hv => ?_, fun hv => ?_⟩⟩
  · rw [if_neg (by omega), hv]
  · rw [if_neg (by omega), hv]

/-- R47: where a delivery window's opening goes. -/
theorem openDelivery_cases (e : Env) (l : Library) (t : Tag) (w : Window) :
    (w.size ≤ l.stagingFree → l.openDelivery e t w = l.openWindow e t w)
      ∧ (let m := Library.displaceIdle w.size t 16 l
        (w.size ≤ m.stagingFree → l.openDelivery e t w = m.openWindow e t w)
        ∧ (m.stagingFree < w.size → ∃ x ∈ (l.openDelivery e t w).buffer.deliveryWait, x.tag = t ∧ x.held = m.stagingFree)) := by
  have hopen (m : Library) (hm : Library.displaceIdle w.size t 16 l = m) (h : w.size ≤ m.stagingFree) : l.openDelivery e t w = m.openWindow e t w := by
    unfold Library.openDelivery
    dsimp only
    rw [hm]
    exact if_pos h
  refine ⟨fun h => hopen l ((displaceIdle_succ w.size t 15 l).1 h) h, ?_⟩
  intro m
  refine ⟨fun h => hopen m rfl h, fun h => ?_⟩
  have heq : l.openDelivery e t w = { (Library.displaceReading (w.size - m.stagingFree) t 16 [] m).2 with
      buffer := { (Library.displaceReading (w.size - m.stagingFree) t 16 [] m).2.buffer with
        deliveryWait := (Library.displaceReading (w.size - m.stagingFree) t 16 [] m).2.buffer.deliveryWait
          ++ [⟨t, m.stagingFree, (Library.displaceReading (w.size - m.stagingFree) t 16 [] m).1⟩] } } := by
    unfold Library.openDelivery
    exact if_neg (Nat.not_le.mpr h)
  rw [heq]
  exact ⟨_, List.mem_append_right _ (List.mem_singleton_self _), rfl, rfl⟩

/-- R47: an open look-ahead window of another request, with a read in progress or without. -/
def Library.openAhead (l : Library) (t : Tag) (reading : Bool) (u : Tag) (v : Window) : Prop :=
  u ≠ t ∧ l.lookAhead u = some v ∧ v.isOpen = true ∧ v.reading = reading

/-- R47: the search for the look-ahead window opened last, over some tags. -/
def Library.lastAhead (l : Library) (t : Tag) (reading : Bool) (us : List Tag) (best : Option (Tag × Window)) : Option (Tag × Window) :=
  us.foldl (fun best u =>
    match l.lookAhead u with
    | some v =>
      if u != t && v.isOpen && v.reading == reading then
        match best with
        | some (_, b) => if b.opened < v.opened then some (u, v) else best
        | none => some (u, v)
      else best
    | none => best) best

theorem lastAhead_step (l : Library) (t : Tag) (reading : Bool) (u : Tag) (us : List Tag) (best : Option (Tag × Window)) :
    ∃ next, l.lastAhead t reading (u :: us) best = l.lastAhead t reading us next
      ∧ (next = best ∨ ∃ v, next = some (u, v) ∧ l.openAhead t reading u v)
      ∧ (∀ p, best = some p → ∃ q, next = some q ∧ p.2.opened ≤ q.2.opened)
      ∧ ∀ v, l.openAhead t reading u v → ∃ q, next = some q ∧ v.opened ≤ q.2.opened := by
  have hskip (h : ∀ v, ¬ l.openAhead t reading u v) (heq : l.lastAhead t reading (u :: us) best = l.lastAhead t reading us best) :
      ∃ next, l.lastAhead t reading (u :: us) best = l.lastAhead t reading us next
        ∧ (next = best ∨ ∃ v, next = some (u, v) ∧ l.openAhead t reading u v)
        ∧ (∀ p, best = some p → ∃ q, next = some q ∧ p.2.opened ≤ q.2.opened)
        ∧ ∀ v, l.openAhead t reading u v → ∃ q, next = some q ∧ v.opened ≤ q.2.opened :=
    ⟨best, heq, .inl rfl, fun p hp => ⟨p, hp, le_refl _⟩, fun v hv => absurd hv (h v)⟩
  cases hu : l.lookAhead u with
  | none =>
    refine hskip (fun v hv => ?_) ?_
    · rw [hv.2.1] at hu; cases hu
    · unfold Library.lastAhead
      rw [List.foldl_cons, hu]
  | some v =>
    by_cases hc : (u != t && v.isOpen && v.reading == reading) = true
    · have hopen : l.openAhead t reading u v := by
        simp only [Bool.and_eq_true, bne_iff_ne, beq_iff_eq] at hc
        exact ⟨hc.1.1, hu, hc.1.2, hc.2⟩
      have honly : ∀ v', l.openAhead t reading u v' → v' = v := fun v' hv' => Option.some.inj (hv'.2.1.symm.trans hu)
      cases best with
      | none =>
        refine ⟨some (u, v), ?_, .inr ⟨v, rfl, hopen⟩, nofun, fun v' hv' => ⟨_, rfl, by rw [honly v' hv']⟩⟩
        unfold Library.lastAhead
        rw [List.foldl_cons, hu]
        dsimp only
        rw [if_pos hc]
      | some b =>
        obtain ⟨u', b⟩ := b
        by_cases hlt : b.opened < v.opened
        · refine ⟨some (u, v), ?_, .inr ⟨v, rfl, hopen⟩, fun p hp => ⟨_, rfl, ?_⟩, fun v' hv' => ⟨_, rfl, by rw [honly v' hv']⟩⟩
          · unfold Library.lastAhead
            rw [List.foldl_cons, hu]
            dsimp only
            rw [if_pos hc, if_pos hlt]
          · rw [← Option.some.inj hp]
            exact hlt.le
        · refine ⟨some (u', b), ?_, .inl rfl, fun p hp => ⟨p, hp, le_refl _⟩, fun v' hv' => ⟨_, rfl, ?_⟩⟩
          · unfold Library.lastAhead
            rw [List.foldl_cons, hu]
            dsimp only
            rw [if_pos hc, if_neg hlt]
          · rw [honly v' hv']
            exact Nat.le_of_not_lt hlt
    · refine hskip (fun v' hv' => hc ?_) ?_
      · obtain ⟨h1, h2, h3, h4⟩ := hv'
        obtain rfl := Option.some.inj (hu.symm.trans h2)
        simp [h1, h3, h4]
      · unfold Library.lastAhead
        rw [List.foldl_cons, hu]
        dsimp only
        rw [if_neg hc]

theorem lastAhead_last (l : Library) (t : Tag) (reading : Bool) (us : List Tag) (best : Option (Tag × Window)) :
    (∀ p, l.lastAhead t reading us best = some p → (best = some p ∨ (p.1 ∈ us ∧ l.openAhead t reading p.1 p.2))
        ∧ (∀ q, best = some q → q.2.opened ≤ p.2.opened) ∧ ∀ u ∈ us, ∀ v, l.openAhead t reading u v → v.opened ≤ p.2.opened)
      ∧ (l.lastAhead t reading us best = none → best = none ∧ ∀ u ∈ us, ∀ v, ¬ l.openAhead t reading u v) := by
  induction us generalizing best with
  | nil =>
    refine ⟨fun p hp => ⟨.inl hp, fun q hq => ?_, nofun⟩, fun h => ⟨h, nofun⟩⟩
    rw [Option.some.inj (hq.symm.trans hp)]
  | cons u us ih =>
    obtain ⟨next, heq, hnext, hbest, hu⟩ := lastAhead_step l t reading u us best
    obtain ⟨h1, h2⟩ := ih next
    rw [heq]
    refine ⟨fun p hp => ?_, fun hn => ?_⟩
    · obtain ⟨k1, k2, k3⟩ := h1 p hp
      refine ⟨?_, fun q hq => ?_, fun u' hu' v hv => ?_⟩
      · rcases k1 with k1 | ⟨k1, k1'⟩
        · rcases hnext with hnext | ⟨v, hv, hopen⟩
          · exact .inl (hnext.symm.trans k1)
          · obtain rfl := Option.some.inj (hv.symm.trans k1)
            exact .inr ⟨List.mem_cons_self, hopen⟩
        · exact .inr ⟨List.mem_cons_of_mem _ k1, k1'⟩
      · obtain ⟨q', hq', hle⟩ := hbest q hq
        exact hle.trans (k2 q' hq')
      · rcases List.mem_cons.mp hu' with rfl | hu'
        · obtain ⟨q', hq', hle⟩ := hu v hv
          exact hle.trans (k2 q' hq')
        · exact k3 u' hu' v hv
    · obtain ⟨k1, k2⟩ := h2 hn
      refine ⟨?_, fun u' hu' v hv => ?_⟩
      · cases best with
        | none => rfl
        | some q => obtain ⟨q', hq', -⟩ := hbest q rfl; rw [k1] at hq'; cases hq'
      · rcases List.mem_cons.mp hu' with rfl | hu'
        · obtain ⟨q', hq', -⟩ := hu v hv; rw [k1] at hq'; cases hq'
        · exact k2 u' hu' v hv

theorem lastLookAhead_eq (l : Library) (t : Tag) (reading : Bool) : l.lastLookAhead t reading = l.lastAhead t reading allTags none := rfl

/-- R47: a displaced window. -/
theorem displace_leaves (l : Library) (u : Tag) (v : Window) (h : l.lookAhead u = some v) :
    let a := l.displace u v
    a.buffer.lookWait = l.buffer.lookWait ++ [u] ∧ v.close ∈ a.windows u ∧ v.close.isOpen = false ∧ v.close.stop = v.stop
      ∧ (∀ i, v.item = some i → listed (.fetch u v.book v.frame) (a.items i) = false)
      ∧ (∀ d x ss k, v.reading = true → (l.drive d).service = some x → x.command = .fetchRead u v.book v.frame ss true k →
        a.slotsKept d = v.size)
      ∧ (v.reading = false → a.drives = l.drives) := by
  intro a
  obtain ⟨m, hm⟩ : ∃ m, l.release u v (some v.size) = m := ⟨_, rfl⟩
  have hrel := onlyDemand_release l u v (some v.size)
  rw [hm] at hrel
  obtain ⟨n, hn⟩ : ∃ n, m.setWindow u v.close = n := ⟨_, rfl⟩
  have ha : a = { n with buffer := { n.buffer with lookWait := n.buffer.lookWait ++ [u] } } := by
    show l.displace u v = _
    unfold Library.displace
    rw [hm, hn]
  have hset := windowWork_setWindow m u v.close
  have hnbuf : n.buffer = m.buffer := by
    rw [← hn]
    unfold Library.setWindow Library.setWindows
    split <;> rfl
  have hnsch : n.scheduler = m.scheduler := by rw [← hn]; exact scheduler_setWindow
  have hndr : n.drives = m.drives := by
    rw [← hn]
    unfold Library.setWindow Library.setWindows
    split <;> rfl
  have hwin : v.close ∈ n.windows u := by
    rw [← hn]
    refine mem_setWindow ?_
    rw [windows_of_front hrel.front]
    exact ⟨v, lookAhead_mem h, rfl, rfl⟩
  refine ⟨by rw [ha, hnbuf, hrel.buffer], by rw [ha]; exact hwin, rfl, rfl, fun i hi => ?_, fun d x ss k hr hs hc => ?_, fun hr => ?_⟩
  · have hitems : a.items i = (l.items i).filter fun j => j.kind != .fetch u v.book v.frame := by
      have h1 : a.items i = m.items i := by
        rw [ha]
        exact congrArg (fun c : Scheduler => look c.lists i) hnsch
      have h2 : m.items i = (l.withdraw i (.fetch u v.book v.frame)).items i := by
        rw [← hm]
        unfold Library.release
        rw [hi]
        dsimp only
        split <;> rfl
      rw [h1, h2]
      exact Library.setItems_items_same ..
    rw [hitems]
    unfold listed
    rw [List.any_eq_false]
    intro j hj
    have := (List.mem_filter.mp hj).2
    simpa using this
  · have hslot : a.slotsKept d = m.slotsKept d := by
      rw [ha]
      exact congrArg (fun v : Vector DriveRecord 4 => match (look v d).service with
        | some v => v.command.stagingSlots
        | none => 0) hndr
    have hdrive : (m.drive d).service = some { x with command := .fetchRead u v.book v.frame ss false v.size } := by
      have hl : ∀ y : Library, y.drives = l.drives → m = y.mapCommands (Command.orphanFetch u v (some v.size)) →
          (m.drive d).service = some { x with command := .fetchRead u v.book v.frame ss false v.size } := by
        intro y hk hmk
        have hmap : m.drive d = { y.drive d with
            service := (y.drive d).service.map fun y => { y with command := Command.orphanFetch u v (some v.size) y.command } } := by
          rw [hmk]
          exact look_map ..
        have hkd : (y.drive d).service = some x := (congrArg (fun z : Vector DriveRecord 4 => (look z d).service) hk).trans hs
        rw [hmap, hkd]
        show some { x with command := Command.orphanFetch u v (some v.size) x.command } = _
        rw [hc]
        have horphan : Command.orphanFetch u v (some v.size) (.fetchRead u v.book v.frame ss true k) = .fetchRead u v.book v.frame ss false v.size := by
          simp [Command.orphanFetch]
        rw [horphan]
      unfold Library.release at hm
      dsimp only at hm
      rw [if_pos hr] at hm
      refine hl _ ?_ hm.symm
      cases v.item <;> rfl
    rw [hslot]
    unfold Library.slotsKept
    rw [hdrive]
    rfl
  · rw [ha]
    show n.drives = l.drives
    rw [hndr, ← hm]
    unfold Library.release
    dsimp only
    rw [if_neg (by rw [hr]; decide)]
    cases v.item <;> rfl

end Staging

end Sys2Proof.Machine
end

section
-- One declaration after the other: the stacks of the threads that wait for each other count against the check's memory limit.
set_option Elab.async false
namespace Sys2Proof.Machine

section Outcome

variable {e : Env} {l : Library} {t : Tag} {w : Window}

theorem available_congr {a : Library} (hp : a.picker = l.picker) (hd : ∀ d, (a.drive d).state = (l.drive d).state) (q : Side) :
    a.available e q = l.available e q := by
  have hloc : a.location (slotOf q) = l.location (slotOf q) := look_location (by rw [hp]) _
  have hseat : a.seated (slotOf q) = l.seated (slotOf q) := look_seated (by rw [hp]) _
  have hmov : a.moving (slotOf q) = l.moving (slotOf q) := by unfold Library.moving; rw [hp]
  unfold Library.available Library.reachable
  rw [hloc, hseat, hp, hmov]
  split
  · rw [hd]
  all_goals rfl

theorem WindowWork.available {a : Library} (h : WindowWork l a) (q : Side) : a.available e q = l.available e q :=
  available_congr h.picker (fun d => by
    obtain ⟨v, hv, -⟩ := h.drive d
    rw [hv]) q

theorem receive_key (w : Window) (ss : List Nat) (rs : List ReadResult) :
    (w.receive ss rs).book = w.book ∧ (w.receive ss rs).frame = w.frame ∧ (w.receive ss rs).onTwin = w.onTwin := ⟨rfl, rfl, rfl⟩

/-- R64, R67, R68: where the outcome of a read leaves a window. -/
theorem windowOutcome_leaves (h : l.hasWindow t w) (ss : List Nat) (rs : List ReadResult) :
    let r := { w.receive ss rs with reading := false, item := none }
    let a := l.windowOutcome e t w ss rs
    ((e.frame w.book w.frame).isLost = false → (w.onTwin = false → a = l.twinFallback e t r) ∧ (w.onTwin = true → a = l.holdFallback t r))
      ∧ (r.missing = [] → r.stop = none → { r with state := .staged } ∈ a.windows t)
      ∧ ((e.frame w.book w.frame).isLost = true → ∀ i, r.missing.head? = some i → r.stop = none →
        ∃ v, (a.windows t).getLast? = some v ∧ v.book = w.book ∧ v.frame = w.frame ∧ v.state = .stopped ∧ v.item = none
          ∧ v.stop = some ⟨i, .unreadable⟩ ∧ v.sectors = r.sectors) := by
  intro r a
  have hhas : l.hasWindow t r := h
  have hitem : { r with item := none, reading := false } = r := rfl
  have ha : a = if (e.frame w.book w.frame).isLost then l.stopLost t r else if w.onTwin then l.holdFallback t r else l.twinFallback e t r := rfl
  refine ⟨fun hl => ⟨fun ht => ?_, fun ht => ?_⟩, fun hm hs => ?_, fun hl i hi hs => ?_⟩
  · rw [ha, if_neg (by rw [hl]; decide), if_neg (by rw [ht]; decide)]
  · rw [ha, if_neg (by rw [hl]; decide), if_pos ht]
  · have hset : a = l.setWindow t { r with state := .staged } := by
      have hj := judge_staged hm hs
      have hstop : l.stopLost t r = l.setWindow t { r with state := .staged } := by
        unfold Library.stopLost
        rw [hm]
        dsimp only
        rw [hj]
      have hhold : l.holdFallback t r = l.setWindow t { r with state := .staged } := by
        unfold Library.holdFallback
        dsimp only
        rw [hm]
        dsimp only
        rw [hj]
      have htwin : l.twinFallback e t r = l.setWindow t { r with state := .staged } := by
        unfold Library.twinFallback
        rw [if_pos (by rw [hm]; rfl), hj]
      rw [ha]
      split
      · exact hstop
      · split
        · exact hhold
        · exact htwin
    rw [hset]
    exact mem_setWindow (by exact h)
  · have hstop : a = l.recordStop t r ⟨i, .unreadable⟩ := by
      obtain ⟨j, rest, hjr⟩ : ∃ j rest, r.missing = j :: rest := List.exists_cons_of_ne_nil (by intro hn; rw [hn] at hi; cases hi)
      rw [hjr] at hi
      obtain rfl := Option.some.inj hi
      rw [ha, if_pos hl]
      unfold Library.stopLost
      rw [hjr]
    rw [hstop]
    obtain ⟨k1, k2, k3⟩ := stoppedAt_key r ⟨i, .unreadable⟩
    exact ⟨_, recordStop_last hhas _, k1, k2, rfl, rfl, stoppedAt_stop hs _, k3⟩

/-- R70: one window is looked at when sides have become unavailable. -/
def Library.turnWindow (e : Env) (t : Tag) (l : Library) (w : Window) : Library :=
  match w.item with
  | some s =>
    if w.reading || l.available e s then l
    else
      let l := l.withdraw s (.fetch t w.book w.frame)
      if w.onTwin then l.holdFallback t w else l.twinFallback e t w
  | none => l

theorem turnWindows_eq : l.turnWindows e t = l.eachWindow t (Library.turnWindow e t) := rfl

/-- R70: a window that has no item waiting on an unavailable side. -/
def Library.windowStays (e : Env) (l : Library) (v : Window) : Prop :=
  v.item = none ∨ v.reading = true ∨ ∃ q, v.item = some q ∧ l.available e q = true

theorem turnWindow_stays {v : Window} (h : l.windowStays e v) : l.turnWindow e t v = l := by
  unfold Library.turnWindow
  cases hv : v.item with
  | none => rfl
  | some s =>
    refine if_pos ?_
    rcases h with h | h | ⟨q, hq, ha⟩
    · rw [hv] at h; cases h
    · rw [h]; rfl
    · rw [hv] at hq
      rw [Option.some.inj hq, ha, Bool.or_true]

theorem turnWindow_turns {q : Side} (hi : w.item = some q) (hr : w.reading = false) (ha : l.available e q = false) :
    l.turnWindow e t w = if w.onTwin = true then (l.withdraw q (.fetch t w.book w.frame)).holdFallback t w
      else (l.withdraw q (.fetch t w.book w.frame)).twinFallback e t w := by
  unfold Library.turnWindow
  rw [hi]
  exact if_neg (by rw [hr, ha]; decide)

theorem withdraw_listed (l : Library) (q : Side) (k : ItemKind) : listed k ((l.withdraw q k).items q) = false := by
  have hitems : (l.withdraw q k).items q = (l.items q).filter fun i => i.kind != k := Library.setItems_items_same ..
  rw [hitems]
  unfold listed
  rw [List.any_eq_false]
  intro j hj
  have := (List.mem_filter.mp hj).2
  simpa using this

theorem turnWindows_one {q : Side} (hw : w ∈ l.windows t) (hi : w.item = some q) (hr : w.reading = false) (ha : l.available e q = false)
    (hn : ((l.windows t).map fun v => (v.book, v.frame)).Nodup) (hothers : ∀ v ∈ l.windows t, v ≠ w → l.windowStays e v) :
    l.turnWindows e t = if w.onTwin = true then (l.withdraw q (.fetch t w.book w.frame)).holdFallback t w
      else (l.withdraw q (.fetch t w.book w.frame)).twinFallback e t w := by
  have heq := turnWindow_turns (l := l) (t := t) hi hr ha
  have hhas : (l.withdraw q (.fetch t w.book w.frame)).hasWindow t w := ⟨w, hw, rfl, rfl⟩
  have hturn : Turns l (l.turnWindow e t w) t w := by
    rw [heq]
    split
    · exact (turns_holdFallback hhas ⟨rfl, rfl⟩).before (windowWork_withdraw l q _) rfl rfl ⟨rfl, rfl⟩
    · exact (turns_twinFallback hhas ⟨rfl, rfl⟩).before (windowWork_withdraw l q _) rfl rfl ⟨rfl, rfl⟩
  rw [turnWindows_eq, ← heq]
  refine eachWindow_one _ hw hn (fun v hv hvw => turnWindow_stays (hothers v hv hvw)) hturn fun v hv hvw => turnWindow_stays ?_
  rcases hothers v hv hvw with h | h | ⟨p, hp, hav⟩
  · exact .inl h
  · exact .inr (.inl h)
  · exact .inr (.inr ⟨p, hp, (hturn.work.available p).trans hav⟩)

/-- R61: one window is looked at when FILEs have ended. -/
def Library.resolveWindow (e : Env) (t : Tag) (l : Library) (w : Window) : Library :=
  if w.state = .pending ∧ ¬ ((l.book w.book).filing ≤ w.frame ∧ w.frame < (l.book w.book).intake) then l.resolve e t w else l

theorem resolvePending_eq : l.resolvePending e t = l.eachWindow t (Library.resolveWindow e t) := rfl

theorem resolvePending_one (hw : w ∈ l.windows t) (hp : w.state = .pending ∧ ¬ ((l.book w.book).filing ≤ w.frame ∧ w.frame < (l.book w.book).intake))
    (hn : ((l.windows t).map fun v => (v.book, v.frame)).Nodup)
    (hothers : ∀ v ∈ l.windows t, v ≠ w → v.state ≠ .pending ∨ ((l.book v.book).filing ≤ v.frame ∧ v.frame < (l.book v.book).intake)) :
    l.resolvePending e t = l.resolve e t w := by
  have heq : l.resolveWindow e t w = l.resolve e t w := if_pos hp
  have hstays {k : Library} {v : Window} (h : v.state ≠ .pending ∨ ((k.book v.book).filing ≤ v.frame ∧ v.frame < (k.book v.book).intake)) :
      k.resolveWindow e t v = k := if_neg fun hn => h.elim (fun h => h hn.1) fun h => hn.2 h
  have hturn : Turns l (l.resolveWindow e t w) t w := by
    rw [heq]
    exact turns_resolve ⟨w, hw, rfl, rfl⟩
  rw [resolvePending_eq, ← heq]
  refine eachWindow_one _ hw hn (fun v hv hvw => hstays (hothers v hv hvw)) hturn fun v hv hvw => hstays ?_
  have hbook : (l.resolveWindow e t w).book v.book = l.book v.book := congrArg (fun z : Vector BookEntry 127 => look z v.book) hturn.work.books
  rw [hbook]
  exact hothers v hv hvw

/-- Settles O28: the rules of a window's turns, of its opening and of its displacement. -/
theorem windowTurnsThroughCopies : Obligations.WindowTurnsThroughCopies := by
  refine ⟨fun e l t w h => ?_, fun e l t v h ho => openLookAhead_opens h ho, fun e l t w => openDelivery_cases e l t w,
    fun l need t n => displaceIdle_succ need t n l, fun l t reading => ?_, fun l u v h => displace_leaves l u v h,
    fun e l t w ss rs h => windowOutcome_leaves h ss rs, fun e l t => ?_, fun e l t => ?_⟩
  · intro blank
    refine ⟨fun hf hs => resolve_zeros h hf hs, fun hf h1 h2 => resolve_pending h hf h1 h2, fun hf hs => resolve_lost h hf hs,
      fun n hf hn hs => resolve_asks h hf hn hs, fun hm hl => ⟨fun s hs hf ha => twinFallback_asks h hm hs hf ha, twinFallback_falls hm,
        fun x hx hs => holdFallback_held h hm hl hx hs, fun i hx hi hs => holdFallback_stops h hx hi hs⟩⟩
  · intro opened
    obtain ⟨h1, h2⟩ := lastAhead_last l t reading allTags none
    refine ⟨fun u v hv => ?_, fun hn u v ho => (h2 hn).2 u (List.mem_finRange u) v ho⟩
    obtain ⟨k1, -, k3⟩ := h1 (u, v) hv
    exact ⟨k1.elim nofun And.right, fun u' v' ho => k3 u' (List.mem_finRange u') v' ho⟩
  · intro stays
    refine ⟨fun h => eachWindow_same _ fun v hv => turnWindow_stays (h v hv), fun w q hw hi hr ha hn hothers => ?_⟩
    exact ⟨withdraw_listed l q _, turnWindows_one hw hi hr ha hn hothers⟩
  · intro stays
    refine ⟨fun h => eachWindow_same _ fun v hv => if_neg fun hn => ?_, fun w hw hst hn hothers => resolvePending_one hw ?_ hn hothers⟩
    · exact (h v hv).elim (fun h => h hn.1) fun h => hn.2 h
    · constructor
      · by_contra hc
        exact hst (.inl hc)
      · exact fun hc => hst (.inr hc)

end Outcome

end Sys2Proof.Machine
end

section
-- One declaration after the other: the stacks of the threads that wait for each other count against the check's memory limit.
set_option Elab.async false
namespace Sys2Proof.Machine

/-! # Demand lists, the moves of a decision, and the patrol's choices -/

section KeyOrder

theorem keyBefore_cons (a b : Nat) (as bs : List Nat) :
    keyBefore (a :: as) (b :: bs) = true ↔ a < b ∨ (a = b ∧ keyBefore as bs = true) := by
  rw [keyBefore]
  split
  next h => simp [h]
  next h =>
    split
    next h' => simp only [Bool.false_eq_true, false_iff]; omega
    next h' =>
      obtain rfl : a = b := by omega
      simp

theorem keyBefore_trans (as bs cs : List Nat) (h : keyBefore as bs = true) (k : keyBefore bs cs = true) : keyBefore as cs = true := by
  induction as generalizing bs cs with
  | nil =>
    cases cs with
    | nil => cases bs <;> simp [keyBefore] at k
    | cons c cs => rfl
  | cons a as ih =>
    cases bs with
    | nil => simp [keyBefore] at h
    | cons b bs =>
      cases cs with
      | nil => simp [keyBefore] at k
      | cons c cs =>
        rw [keyBefore_cons] at *
        rcases h with h | ⟨rfl, h⟩
        · exact .inl (by omega)
        · exact k.imp id fun k => ⟨k.1, ih bs cs h k.2⟩

theorem keyBefore_irrefl (as : List Nat) : keyBefore as as = false := by
  induction as with
  | nil => rfl
  | cons a as ih => rw [Bool.eq_false_iff, Ne, keyBefore_cons, ih]; simp

/-- R126: a list stands in the order of its keys. -/
def InOrder (xs : List Item) : Prop := xs.Pairwise fun a b => keyBefore b.key a.key = false

theorem insertItem_inOrder (i : Item) (xs : List Item) (h : InOrder xs) : InOrder (insertItem i xs) := by
  induction xs with
  | nil => exact List.pairwise_singleton _ _
  | cons y ys ih =>
    obtain ⟨hy, hys⟩ := List.pairwise_cons.mp h
    unfold insertItem
    split
    next hb =>
      refine List.pairwise_cons.mpr ⟨fun x hx => ?_, h⟩
      rw [Bool.eq_false_iff]
      intro hxi
      have hxy : keyBefore x.key y.key = true := keyBefore_trans _ _ _ hxi hb
      rcases List.mem_cons.mp hx with rfl | hx
      · rw [keyBefore_irrefl] at hxy; cases hxy
      · rw [hy x hx] at hxy; cases hxy
    next hb =>
      refine List.pairwise_cons.mpr ⟨fun x hx => ?_, ih hys⟩
      rcases mem_insertItem.mp hx with rfl | hx
      · exact Bool.eq_false_iff.mpr hb
      · exact hy x hx

theorem insertItem_perm (i : Item) (xs : List Item) : (insertItem i xs).Perm (i :: xs) := by
  induction xs with
  | nil => rfl
  | cons y ys ih =>
    unfold insertItem
    split
    · rfl
    · exact (ih.cons y).trans (List.Perm.swap i y ys)

/-- R125, R126: an item that joins a list takes its place, and one that is there is not placed again. -/
theorem joinItem_places (i : Item) (xs : List Item) (h : InOrder xs) (hn : (xs.map Item.kind).Nodup) :
    InOrder (joinItem i xs) ∧ ((joinItem i xs).map Item.kind).Nodup
      ∧ ∀ j, j ∈ joinItem i xs ↔ j ∈ xs ∨ (j = i ∧ ∀ k ∈ xs, k.kind ≠ i.kind) := by
  unfold joinItem
  split
  next hi =>
    refine ⟨h, hn, fun j => ⟨.inl, fun hj => hj.elim id fun ⟨_, hk⟩ => ?_⟩⟩
    obtain ⟨k, hk', heq⟩ := List.any_eq_true.mp hi
    exact absurd (by simpa using heq) (hk k hk')
  next hi =>
    have hk : ∀ k ∈ xs, k.kind ≠ i.kind := fun k hk heq => hi (List.any_eq_true.mpr ⟨k, hk, by simpa using heq⟩)
    refine ⟨insertItem_inOrder i xs h, ?_, fun j => ?_⟩
    · rw [((insertItem_perm i xs).map Item.kind).nodup_iff]
      refine List.nodup_cons.mpr ⟨fun hm => ?_, hn⟩
      obtain ⟨k, hk', heq⟩ := List.mem_map.mp hm
      exact hk k hk' heq
    · rw [mem_insertItem, or_comm, and_iff_left hk]

end KeyOrder

section MovesOfDecision

variable {e : Env} {l m n : Library}

/-- R134: the move list has grown at its tail, by one LOAD at most, and by one only when it was empty. -/
def MovesGrow (l m : Library) : Prop :=
  ∃ ms, m.picker.moves = l.picker.moves ++ ms ∧ (ms.filter Move.byScheduler).length ≤ 1
    ∧ (l.picker.moves ≠ [] → ms.filter Move.byScheduler = [])

theorem MovesGrow.of_moves (h : m.picker.moves = l.picker.moves) : MovesGrow l m := ⟨[], by simp [h], by simp, by simp⟩

theorem MovesGrow.trans (h : MovesGrow l m) (k : MovesGrow m n) : MovesGrow l n := by
  obtain ⟨ms, h1, h2, h3⟩ := h
  obtain ⟨ns, k1, k2, k3⟩ := k
  refine ⟨ms ++ ns, by rw [k1, h1, List.append_assoc], ?_, fun hl => ?_⟩
  · rw [List.filter_append, List.length_append]
    by_cases hm : ms = []
    · subst hm
      simpa using k2
    · rw [k3 (by rw [h1]; simp [hm])]
      simpa using h2
  · rw [List.filter_append, h3 hl, k3 (by rw [h1]; simp [hl])]
    rfl

theorem movesGrow_chooseUnload (d : Drive) : MovesGrow l (l.chooseUnload e d) := by
  obtain ⟨m, hm⟩ : ∃ m, (l.setDrive d { l.drive d with unload := true }).callPatrol = m := ⟨_, rfl⟩
  have hmoves : m.picker.moves = l.picker.moves := by rw [← hm]; rfl
  have hask : MovesGrow m (m.askUnload d) := by
    unfold Library.askUnload
    split
    · exact .of_moves rfl
    · obtain ⟨ms, heq, hms, -⟩ := askReturn_adds m d .unload
      have hnone : ms.filter Move.byScheduler = [] := List.filter_eq_nil_iff.mpr fun x hx => by
        obtain ⟨i, -, rfl⟩ := hms x hx
        exact Bool.false_ne_true
      exact ⟨ms, by rw [heq], by rw [hnone]; exact Nat.zero_le _, fun _ => hnone⟩
  unfold Library.chooseUnload
  dsimp only
  rw [hm]
  refine MovesGrow.trans (.of_moves hmoves) ?_
  cases (m.drive d).state with
  | ready => exact .of_moves rfl
  | stopped => exact hask
  | empty | loading | spinUp | active | spinDown | unloading | failed => exact .of_moves rfl

theorem movesGrow_takeDrive (d : Drive) : MovesGrow l (l.takeDrive e d) := by
  unfold Library.takeDrive
  cases l.mountedSide d with
  | none => exact movesGrow_chooseUnload d
  | some i =>
    obtain ⟨p, q, hdrop⟩ := dropPatrolMount_rest (l := l) i
    have hmoves : (l.dropPatrolMount i).picker.moves = l.picker.moves := by rw [hdrop]
    exact MovesGrow.trans (.of_moves hmoves) (movesGrow_chooseUnload d)

theorem pickerFree_moves (h : l.pickerFree = true) : l.picker.moves = [] :=
  List.isEmpty_iff.mp (Bool.and_eq_true_iff.mp h).2

theorem movesGrow_askLoad (h : l.pickerFree = true) (q : Side) (d : Drive) : MovesGrow l (l.askLoad q d) :=
  ⟨[.load (slotOf q) (faceOf q) d], rfl, Nat.le_refl 1, fun hn => absurd (pickerFree_moves h) hn⟩

theorem movesGrow_give (q : Side) (g : Gift) : MovesGrow l (l.give e q g) := by
  cases g with
  | empty d =>
    unfold Library.give
    dsimp only
    by_cases h : l.pickerFree = true
    · rw [if_pos h]; exact movesGrow_askLoad h q d
    · rw [if_neg h]; exact .of_moves rfl
  | vacating => exact .of_moves rfl
  | idle d => exact movesGrow_takeDrive d
  | busy d => exact movesGrow_takeDrive d

theorem movesGrow_giveAll (cs : List SideRank) (given : List Drive) (l : Library) : MovesGrow l (Library.giveAll e cs given l) := by
  induction cs generalizing given l with
  | nil => exact .of_moves rfl
  | cons c cs ih =>
    rw [Library.giveAll]
    cases l.findDrive e given c with
    | none => exact ih ..
    | some g => exact (movesGrow_give c.side g).trans (ih ..)

end MovesOfDecision

section PatrolMount

variable {e : Env} {l : Library} {q : Side}

/-- R136: the conditions of a patrol mount. -/
theorem quietLibrary_iff : l.quietLibrary e = true ↔ e.hold = false ∧ l.scheduler.patrolMount = none ∧ l.picker.state = .idle
    ∧ l.picker.moves = [] ∧ l.scheduler.quiet + 180 ≤ e.now ∧ ∀ i, l.hasDemand i = false := by
  unfold Library.quietLibrary Library.pickerFree
  simp only [Bool.and_eq_true, decide_eq_true_iff]
  simp [Config.patrolIdle, allSides, and_assoc]

theorem mem_patrolCandidates : q ∈ l.patrolCandidates e
    ↔ 0 < l.patrolTop q ∧ (l.health q).lastPass ≠ some e.day ∧ l.mountedIn q = none ∧ l.available e q = true := by
  unfold Library.patrolCandidates
  rw [List.mem_filter]
  simp [allSides, and_assoc]

theorem patrolCandidates_pairwise (e : Env) (l : Library) : (l.patrolCandidates e).Pairwise (· < ·) :=
  (List.pairwise_lt_finRange 128).filter _

/-- R136: a side whose last full pass is older than another's, or as old with the lower number. -/
def Library.passedBefore (e : Env) (l : Library) (q p : Side) : Prop :=
  l.passAge e p < l.passAge e q ∨ (l.passAge e p = l.passAge e q ∧ q ≤ p)

theorem oldest_from (xs : List Side) (b : Side) (hb : ∀ x ∈ xs, b < x) (hx : xs.Pairwise (· < ·)) :
    ∃ r, xs.foldl (fun best s => match best with
      | some b => if l.passAge e b < l.passAge e s then some s else best
      | none => some s) (some b) = some r ∧ (r = b ∨ r ∈ xs) ∧ l.passedBefore e r b ∧ ∀ x ∈ xs, l.passedBefore e r x := by
  induction xs generalizing b with
  | nil => exact ⟨b, rfl, .inl rfl, .inr ⟨rfl, le_refl _⟩, nofun⟩
  | cons y ys ih =>
    obtain ⟨hy, hys⟩ := List.pairwise_cons.mp hx
    have hby := hb y List.mem_cons_self
    rw [List.foldl_cons]
    by_cases h : l.passAge e b < l.passAge e y
    · obtain ⟨r, hr, hm, hle, hall⟩ := ih y hy hys
      refine ⟨r, ?_, .inr ?_, ?_, fun x hx => ?_⟩
      · rw [← hr]
        exact congrArg (fun z => List.foldl _ z ys) (if_pos h)
      · exact hm.elim (fun h => h ▸ List.mem_cons_self) fun h => List.mem_cons_of_mem _ h
      · unfold Library.passedBefore at *
        rcases hle with hle | ⟨hle, -⟩ <;> exact .inl (by omega)
      · rcases List.mem_cons.mp hx with rfl | hx
        · exact hle
        · exact hall x hx
    · obtain ⟨r, hr, hm, hle, hall⟩ := ih b (fun x hx => hb x (List.mem_cons_of_mem _ hx)) hys
      refine ⟨r, ?_, hm.imp id fun h => List.mem_cons_of_mem _ h, hle, fun x hx => ?_⟩
      · rw [← hr]
        exact congrArg (fun z => List.foldl _ z ys) (if_neg h)
      · rcases List.mem_cons.mp hx with rfl | hx
        · unfold Library.passedBefore at *
          rcases hle with hle | ⟨hle, hlt⟩
          · exact .inl (by omega)
          · by_cases heq : l.passAge e b = l.passAge e x
            · exact .inr ⟨heq.symm.trans hle, hlt.trans hby.le⟩
            · exact .inl (by omega)
        · exact hall x hx

/-- R136: the candidate whose last full pass is oldest, then the lower number. -/
theorem oldestPatrol_some (h : l.oldestPatrol e = some q) :
    q ∈ l.patrolCandidates e ∧ ∀ p ∈ l.patrolCandidates e, l.passedBefore e q p := by
  unfold Library.oldestPatrol at h
  have hp := patrolCandidates_pairwise e l
  generalize l.patrolCandidates e = xs at h hp
  cases xs with
  | nil => cases h
  | cons y ys =>
    obtain ⟨hy, hys⟩ := List.pairwise_cons.mp hp
    obtain ⟨r, hr, hm, hle, hall⟩ := oldest_from (e := e) (l := l) ys y hy hys
    obtain rfl : r = q := Option.some.inj (hr.symm.trans h)
    exact ⟨hm.elim (fun h => h ▸ List.mem_cons_self) fun h => List.mem_cons_of_mem _ h,
      fun x hx => (List.mem_cons.mp hx).elim (fun h => h ▸ hle) (hall x)⟩

theorem considerPatrol_busy (h : l.quietLibrary e = false) : l.considerPatrol e = l := by
  unfold Library.considerPatrol
  rw [h]
  rfl

theorem considerPatrol_none (h : l.patrolCandidates e = []) : l.considerPatrol e = l := by
  have hn : l.oldestPatrol e = none := by
    unfold Library.oldestPatrol
    rw [h]
    rfl
  unfold Library.considerPatrol
  rw [hn]
  exact ite_self _

/-- R136: a patrol mount takes an EMPTY drive, or else the least recently used idle one. -/
theorem considerPatrol_quiet (h : l.quietLibrary e = true) (ho : l.oldestPatrol e = some q) : l.considerPatrol e
    = match (if (l.faceBound q).isSome then none else l.giftEmpty (l.freeDrives e [] q)) with
    | some d => { l.askLoad q d with scheduler := { l.scheduler with patrolMount := some q } }
    | none =>
      match l.leastUsed (l.idleDrives (l.freeDrives e [] q)) with
      | some d => l.takeDrive e d
      | none => l := by
  have hds : (allDrives.filter fun d => e.hasDrive d && (l.drive d).state != .failed && !([] : List Drive).contains d)
      = allDrives.filter fun d => e.hasDrive d && (l.drive d).state != .failed := by simp
  unfold Library.considerPatrol Library.freeDrives
  rw [if_pos h, ho, hds]
  dsimp only
  cases l.faceBound q <;> rfl

theorem movesGrow_considerPatrol : MovesGrow l (l.considerPatrol e) := by
  cases h : l.quietLibrary e with
  | false => rw [considerPatrol_busy h]; exact .of_moves rfl
  | true =>
    cases ho : l.oldestPatrol e with
    | none =>
      have heq : l.considerPatrol e = l := by
        unfold Library.considerPatrol
        rw [ho]
        exact ite_self _
      rw [heq]; exact .of_moves rfl
    | some i =>
      rw [considerPatrol_quiet h ho]
      have hfree : l.pickerFree = true := by
        unfold Library.quietLibrary at h
        simp only [Bool.and_eq_true] at h
        exact h.1.1.2
      cases (if (l.faceBound i).isSome then none else l.giftEmpty (l.freeDrives e [] i)) with
      | some d => exact (movesGrow_askLoad hfree i d).trans (.of_moves rfl)
      | none =>
        dsimp only
        cases l.leastUsed (l.idleDrives (l.freeDrives e [] i)) with
        | some d => exact movesGrow_takeDrive d
        | none => exact .of_moves rfl

/-- R134: a decision asks one LOAD at most, and withdraws no move. -/
theorem movesGrow_decide : MovesGrow l (l.decide e) := by
  unfold Library.decide
  split
  · obtain ⟨m, hm⟩ : ∃ m : Library, { l with scheduler := { l.scheduler with decisionDue := false } } = m := ⟨_, rfl⟩
    have hmoves : m.picker.moves = l.picker.moves := by rw [← hm]
    dsimp only
    rw [hm]
    exact (MovesGrow.of_moves hmoves).trans ((movesGrow_giveAll ..).trans movesGrow_considerPatrol)
  · exact .of_moves rfl

end PatrolMount

end Sys2Proof.Machine
end

section
-- One declaration after the other: the stacks of the threads that wait for each other count against the check's memory limit.
set_option Elab.async false
namespace Sys2Proof.Machine

section Patrol

variable {e : Env} {l : Library} {q : Side}

theorem firstServable_iff {i : Item} : l.firstServable q = some i
    ↔ ∃ xs ys, l.items q = xs ++ i :: ys ∧ l.canServe q i = true ∧ ∀ j ∈ xs, l.canServe q j = false := by
  unfold Library.firstServable
  rw [List.find?_eq_some_iff_append]
  simp only [Bool.not_eq_true']
  constructor
  · rintro ⟨hs, xs, ys, heq, hxs⟩
    exact ⟨xs, ys, heq, hs, hxs⟩
  · rintro ⟨xs, ys, heq, hs, hxs⟩
    exact ⟨hs, xs, ys, heq, hxs⟩

theorem mountedIn_iff {d : Drive} : l.mountedIn q = some d ↔ l.location (slotOf q) = .inDrive d (faceOf q) := by
  unfold Library.mountedIn
  cases l.location (slotOf q) with
  | inDrive d' f =>
    dsimp only
    split
    next h => subst h; simp
    next h => simp [h]
  | absent | inSlot | inPicker => simp

theorem isPatrol_iff {k : ItemKind} : k.isPatrol = true ↔ k = .patrol := by
  cases k <;> simp [ItemKind.isPatrol]

/-- R128: the items that give a side demand. -/
theorem hasDemand_iff : l.hasDemand q = true ↔ (∃ x ∈ l.items q, x.kind ≠ .patrol)
    ∨ ∃ d v, l.location (slotOf q) = .inDrive d (faceOf q) ∧ (l.drive d).service = some v ∧ v.item.kind ≠ .patrol := by
  have hservice : (l.serviceItem q).isSome = true
      ↔ ∃ d v, l.location (slotOf q) = .inDrive d (faceOf q) ∧ (l.drive d).service = some v ∧ v.item.kind ≠ .patrol := by
    unfold Library.serviceItem
    rw [List.findSome?_isSome_iff]
    constructor
    · rintro ⟨d, -, h⟩
      cases hv : (l.drive d).service with
      | none => rw [hv] at h; cases h
      | some v =>
        rw [hv] at h
        dsimp only at h
        split at h
        next => cases h
        next hp =>
          split at h
          next hm => exact ⟨d, v, mountedIn_iff.mp hm, hv, fun hk => hp (isPatrol_iff.mpr hk)⟩
          next => cases h
    · rintro ⟨d, v, hl, hv, hk⟩
      refine ⟨d, by simp [allDrives], ?_⟩
      rw [hv]
      dsimp only
      rw [if_neg (mt isPatrol_iff.mp hk), if_pos (mountedIn_iff.mpr hl)]
      rfl
  unfold Library.hasDemand Library.wants
  rw [Bool.or_eq_true, hservice, List.any_eq_true]
  simp only [Bool.not_eq_true', Bool.eq_false_iff, Ne, isPatrol_iff]

theorem patrolTop_pos (h : 0 < l.patrolTop q) : ∃ b, l.role q = .primary b ∨ l.role q = .twin b := by
  unfold Library.patrolTop at h
  cases hr : l.role q with
  | primary b => exact ⟨b, .inl rfl⟩
  | twin b => exact ⟨b, .inr rfl⟩
  | unlisted | blank | rescueTarget | retired => rw [hr] at h; exact absurd h (lt_irrefl 0)

/-- R162: which sides are patrol-eligible. -/
theorem patrolEligible_iff : l.patrolEligible e q = true ↔ (∃ b, l.role q = .primary b ∨ l.role q = .twin b) ∧ 0 < l.patrolTop q
    ∧ (l.health q).lastPass ≠ some e.day
    ∧ (∃ d, l.location (slotOf q) = .inDrive d (faceOf q) ∧ d.val < e.configured ∧ (l.drive d).state ≠ .failed ∧ (l.drive d).unload = false)
    ∧ l.hasDemand q = false := by
  have hone (d : Drive) : (e.hasDrive d && (l.drive d).state != .failed && !(l.drive d).unload && decide (0 < l.patrolTop q)
      && (l.health q).lastPass != some e.day && !l.hasDemand q) = true
      ↔ d.val < e.configured ∧ (l.drive d).state ≠ .failed ∧ (l.drive d).unload = false ∧ 0 < l.patrolTop q
        ∧ (l.health q).lastPass ≠ some e.day ∧ l.hasDemand q = false := by
    simp [Env.hasDrive, and_assoc]
  unfold Library.patrolEligible
  cases hm : l.mountedIn q with
  | none =>
    refine ⟨nofun, fun ⟨_, _, _, ⟨d, hd, _⟩, _⟩ => ?_⟩
    rw [mountedIn_iff.mpr hd] at hm
    cases hm
  | some d =>
    refine (hone d).trans ⟨fun ⟨h1, h2, h3, h4, h5, h6⟩ => ⟨patrolTop_pos h4, h4, h5, ⟨d, mountedIn_iff.mp hm, h1, h2, h3⟩, h6⟩, ?_⟩
    rintro ⟨-, h4, h5, ⟨d', hd', h1, h2, h3⟩, h6⟩
    obtain rfl : d' = d := Option.some.inj ((mountedIn_iff.mpr hd').symm.trans hm)
    exact ⟨h1, h2, h3, h4, h5, h6⟩

theorem holds_iff {r : Role} {b : Book} : r.holds = some b ↔ r = .primary b ∨ r = .twin b := by
  cases r <;> simp [Role.holds]

/-- R164: the frame verified next. -/
theorem nextPatrol_iff {b : Book} {f : Nat} : l.nextPatrol e q = some (b, f) ↔
    let start := if l.patrolTop q < (l.health q).patrolMark then 0 else (l.health q).patrolMark
    (l.role q = .primary b ∨ l.role q = .twin b) ∧ start ≤ f ∧ f < l.patrolTop q ∧ (e.frame b f).filed = true
      ∧ ∀ g, start ≤ g → g < f → (e.frame b g).filed = false := by
  obtain ⟨start, hstart⟩ : ∃ start, (if l.patrolTop q < (l.health q).patrolMark then 0 else (l.health q).patrolMark) = start := ⟨_, rfl⟩
  dsimp only
  rw [hstart]
  have hfind (c : Book) : ((List.range' start (l.patrolTop q - start)).find? fun f => (e.frame c f).filed) = some f
      ↔ start ≤ f ∧ f < l.patrolTop q ∧ (e.frame c f).filed = true ∧ ∀ g, start ≤ g → g < f → (e.frame c g).filed = false := by
    rw [List.find?_range'_eq_some, List.mem_range'_1]
    simp only [Bool.not_eq_true']
    constructor
    · rintro ⟨h1, ⟨h2, h3⟩, h4⟩
      exact ⟨h2, by omega, h1, h4⟩
    · rintro ⟨h2, h3, h1, h4⟩
      exact ⟨h1, ⟨h2, by omega⟩, h4⟩
  unfold Library.nextPatrol
  rw [← holds_iff]
  cases hc : (l.role q).holds with
  | none => simp
  | some c =>
    dsimp only
    rw [hstart]
    show Option.map (fun f => (c, f)) ((List.range' start (l.patrolTop q - start)).find? fun f => (e.frame c f).filed) = some (b, f) ↔ _
    rw [Option.map_eq_some_iff]
    constructor
    · rintro ⟨g, hg, heq⟩
      obtain ⟨rfl, rfl⟩ := Prod.mk.inj heq
      exact ⟨rfl, (hfind c).mp hg⟩
    · rintro ⟨hb, h⟩
      obtain rfl := Option.some.inj hb
      exact ⟨f, (hfind c).mpr h, rfl⟩

end Patrol

section Cursor

variable {e : Env} {l : Library} {q : Side}

theorem mem_sidesAfter (k : Option Side) (p : Side) : p ∈ sidesAfter k := by
  have hall : p ∈ allSides := by simp [allSides]
  cases k with
  | none => exact hall
  | some k =>
    refine List.mem_append.mpr ?_
    by_cases h : k.val < p.val
    · exact .inl (List.mem_filter.mpr ⟨hall, by simpa using h⟩)
    · exact .inr (List.mem_filter.mpr ⟨hall, by simpa using h⟩)

/-- R163: how far a side comes after the one last named. -/
def stepsAfter (k p : Side) : Nat := (p.val + 127 - k.val) % 128

theorem stepsAfter_above {k p : Side} (h : k.val < p.val) : stepsAfter k p = p.val - k.val - 1 := by
  unfold stepsAfter
  omega

theorem stepsAfter_below {k p : Side} (h : p.val ≤ k.val) : stepsAfter k p = p.val + 127 - k.val := by
  unfold stepsAfter
  omega

theorem sidesAfter_rises (k : Side) : (sidesAfter (some k)).Pairwise fun a b => stepsAfter k a ≤ stepsAfter k b := by
  have hall : allSides.Pairwise (· < ·) := List.pairwise_lt_finRange 128
  refine List.pairwise_append.mpr ⟨?_, ?_, fun a ha b hb => ?_⟩
  · refine (hall.filter _).imp_of_mem fun {a b} ha hb hab => ?_
    have hlt : a.val < b.val := hab
    rw [stepsAfter_above (by simpa using (List.mem_filter.mp ha).2), stepsAfter_above (by simpa using (List.mem_filter.mp hb).2)]
    omega
  · refine (hall.filter _).imp_of_mem fun {a b} ha hb hab => ?_
    have hlt : a.val < b.val := hab
    rw [stepsAfter_below (by simpa using (List.mem_filter.mp ha).2), stepsAfter_below (by simpa using (List.mem_filter.mp hb).2)]
    omega
  · rw [stepsAfter_above (by simpa using (List.mem_filter.mp ha).2), stepsAfter_below (by simpa using (List.mem_filter.mp hb).2)]
    omega

/-- The first of a list with a property comes before the others that have it. -/
theorem find_first {α : Type} {R : α → α → Prop} {xs : List α} {p : α → Bool} {x y : α} (hx : xs.Pairwise R) (hr : ∀ a, R a a)
    (h : xs.find? p = some x) (hy : y ∈ xs) (hp : p y = true) : R x y := by
  obtain ⟨-, as, bs, rfl, has⟩ := List.find?_eq_some_iff_append.mp h
  rcases List.mem_append.mp hy with hy | hy
  · have := has y hy
    rw [hp] at this
    cases this
  · rcases List.mem_cons.mp hy with rfl | hy
    · exact hr _
    · exact (List.pairwise_cons.mp (List.pairwise_append.mp hx).2.1).1 y hy

/-- R163: the side that the cursor takes when the patrol-mounted one is not eligible. -/
theorem nextCursor_next (h : ∀ q, l.scheduler.patrolMount = some q → l.patrolEligible e q = false) :
    l.nextCursor e = (sidesAfter l.care.lastCursor).find? (l.patrolEligible e) := by
  unfold Library.nextCursor
  cases hp : l.scheduler.patrolMount with
  | none => rfl
  | some p => exact if_neg (by rw [h p hp]; exact Bool.false_ne_true)

theorem nextCursor_mounted (hq : l.scheduler.patrolMount = some q) (he : l.patrolEligible e q = true) : l.nextCursor e = some q := by
  unfold Library.nextCursor
  rw [hq]
  exact if_pos he

/-- R164: a full pass. -/
theorem fullPass_leaves (q : Side) : (l.fullPass e q).health q = { l.health q with patrolMark := 0, lastPass := some e.day }
    ∧ (l.fullPass e q).scheduler.patrolMount ≠ some q := by
  obtain ⟨m, hm⟩ : ∃ m, l.setHealth q { l.health q with patrolMark := 0, lastPass := some e.day } = m := ⟨_, rfl⟩
  have hhealth : m.health q = { l.health q with patrolMark := 0, lastPass := some e.day } := by
    rw [← hm]
    exact Library.setHealth_health_same ..
  have heq : l.fullPass e q = (m.dropPatrolMount q).callPatrol := by rw [← hm]; rfl
  rw [heq]
  constructor
  · obtain ⟨p, d, hdrop⟩ := dropPatrolMount_rest (l := m) q
    rw [hdrop]
    exact hhealth
  · by_cases hp : m.scheduler.patrolMount = some q
    · show (m.dropPatrolMount q).scheduler.patrolMount ≠ _
      rw [dropPatrolMount_gone m q hp]
      exact nofun
    · have : m.dropPatrolMount q = m := if_neg hp
      rw [this]
      exact hp

end Cursor

end Sys2Proof.Machine
end

section
-- One declaration after the other: the stacks of the threads that wait for each other count against the check's memory limit.
set_option Elab.async false
namespace Sys2Proof.Machine

/-! # Handing an item to its drive -/

section HandOut

variable {e : Env} {l m : Library} {d : Drive} {q : Side} {i : Item} {c : Command} {o : Output}

/-- R109: what the work on the item's records leaves for its command. -/
structure ForCommand (l m : Library) : Prop where
  drives : m.drives = l.drives
  out : m.out = l.out
  books : m.books = l.books
  roles : m.roles = l.roles
  picker : m.picker = l.picker
  log : m.log = l.log
  buffer : m.buffer = l.buffer
  health : m.care.health = l.care.health
  queue : m.care.queue = l.care.queue
  rescue : m.care.rescue = l.care.rescue

theorem ForCommand.refl (l : Library) : ForCommand l l := ⟨rfl, rfl, rfl, rfl, rfl, rfl, rfl, rfl, rfl, rfl⟩

theorem handed_startCommand (h : ForCommand l m) : Handed e l (m.startCommand e d q i c o) d q i c o := by
  have hdrive (x : Drive) : m.drive x = l.drive x := congrArg (fun v : Vector DriveRecord 4 => look v x) h.drives
  have hother (x : Drive) : (m.startCommand e d q i c o).drive x
      = if d = x then { m.drive d with state := .active, service := some ⟨i, q, c, e.now⟩ } else m.drive x := Library.setDrive_drive ..
  refine ⟨?_, ?_, fun x hx => ?_, h.books, h.roles, h.picker, h.log, h.buffer, h.health, h.queue, h.rescue⟩
  · rw [hother, if_pos rfl, hdrive]
  · show m.out ++ [o] = _
    rw [h.out]
  · rw [hother, if_neg (Ne.symm hx), hdrive]

theorem serveDrive_stopped (hd : e.hasDrive d = true) (hu : (l.drive d).unload = false) (hm : l.mountedSide d = some q)
    (hi : l.firstServable q = some i) (hs : (l.drive d).state = .stopped) : l.serveDrive e d = l.sendSpinUp e d := by
  unfold Library.serveDrive
  simp only [hd, hu, hm, hs, hi]
  rfl

theorem serveDrive_ready (hd : e.hasDrive d = true) (hu : (l.drive d).unload = false) (hm : l.mountedSide d = some q)
    (hs : (l.drive d).state = .ready) (hhold : e.hold = false) (hv : (l.drive d).service = none) :
    l.serveDrive e d = Library.handOut e d q 64 l := by
  unfold Library.serveDrive
  simp only [hd, hu, hm, hs, hhold, hv]
  rfl

theorem handOut_sends (n : Nat) (hi : l.firstServable q = some i) (hm : l.issue e d q i = (true, m)) :
    Library.handOut e d q (n + 1) l = m := by
  rw [Library.handOut, hi]
  dsimp only
  rw [hm]

theorem handOut_passes (n : Nat) (hi : l.firstServable q = some i) (hm : l.issue e d q i = (false, m)) :
    Library.handOut e d q (n + 1) l = Library.handOut e d q n m := by
  rw [Library.handOut, hi]
  dsimp only
  rw [hm]

theorem serveDrive_idle (h : (l.drive d).unload = true ∨ ((l.drive d).state ≠ .ready ∧ (l.drive d).state ≠ .stopped)
    ∨ l.mountedSide d = none ∨ e.hasDrive d = false ∨ ((l.drive d).state = .ready ∧ e.hold = true)) : l.serveDrive e d = l := by
  unfold Library.serveDrive
  dsimp only
  by_cases hc : (e.hasDrive d && !(l.drive d).unload) = true
  · rw [if_pos hc]
    rw [Bool.and_eq_true, Bool.not_eq_true'] at hc
    rcases h with h | ⟨h1, h2⟩ | h | h | ⟨h1, h2⟩
    · rw [hc.2] at h; cases h
    · cases l.mountedSide d with
      | none => rfl
      | some s =>
        dsimp only
        cases hs : (l.drive d).state with
        | ready => exact absurd hs h1
        | stopped => exact absurd hs h2
        | empty | loading | spinUp | active | spinDown | unloading | failed => rfl
    · rw [h]
    · rw [hc.1] at h; cases h
    · cases l.mountedSide d with
      | none => rfl
      | some s =>
        dsimp only
        rw [h1, h2]
        rfl
  · exact if_neg hc

end HandOut

section Issued

/-- R1: the sectors of a frame on its side. -/
theorem sideSector_all (f : Nat) : (fun k => 64 * f + k) = sideSector f := by
  funext k
  unfold sideSector
  rw [Nat.mul_comm]
  rfl

theorem sideSector_first (f : Nat) : 64 * f = sideSector f 0 := congrFun (sideSector_all f) 0

variable {e : Env} {l : Library} {d : Drive} {q : Side} {p : Nat}

/-- R64: a fetch item is handed with the sectors that its window lacks. -/
theorem issue_fetch {t : Tag} {b : Book} {f : Nat} {w : Window}
    (h : (l.windows t).find? (fun w => w.book == b && w.frame == f && w.isOpen) = some w) :
    let a := (((l.withdraw q (.fetch t b f)).setWindow t { w with reading := true }).startCommand e d q ⟨.fetch t b f, p⟩
      (.fetchRead t b f w.missing true 0) (.read d (w.missing.map fun k => 64 * f + k)))
    l.issue e d q ⟨.fetch t b f, p⟩ = (true, a)
      ∧ Handed e l a d q ⟨.fetch t b f, p⟩ (.fetchRead t b f w.missing true 0) (.read d (w.missing.map fun k => 64 * f + k))
      ∧ listed (.fetch t b f) (a.items q) = false ∧ { w with reading := true } ∈ a.windows t := by
  intro a
  obtain ⟨m, hm⟩ : ∃ m, (l.withdraw q (.fetch t b f)).setWindow t { w with reading := true } = m := ⟨_, rfl⟩
  have hsched : m.scheduler = (l.withdraw q (.fetch t b f)).scheduler := by rw [← hm]; exact scheduler_setWindow
  have hmem : { w with reading := true } ∈ m.windows t := by
    rw [← hm]
    refine mem_setWindow ⟨w, ?_, rfl, rfl⟩
    exact List.mem_of_find?_eq_some h
  have hfor : ForCommand l m := by
    rw [← hm]
    unfold Library.setWindow Library.setWindows
    split <;> exact ⟨rfl, rfl, rfl, rfl, rfl, rfl, rfl, rfl, rfl, rfl⟩
  have ha : a = m.startCommand e d q ⟨.fetch t b f, p⟩ (.fetchRead t b f w.missing true 0) (.read d (w.missing.map fun k => 64 * f + k)) := by
    rw [← hm]
  have hitems : a.items q = (l.withdraw q (.fetch t b f)).items q := by
    rw [ha]
    show look m.scheduler.lists q = _
    rw [hsched]
    rfl
  refine ⟨?_, ?_, ?_, ?_⟩
  · rw [ha, sideSector_all, ← hm]
    unfold Library.issue
    dsimp only
    rw [h]
  · rw [ha]
    exact handed_startCommand hfor
  · rw [hitems]
    exact withdraw_listed ..
  · rw [ha]
    exact hmem

/-- R82: a file item is handed with the received sectors, and its FILE is in WRITING. -/
theorem issue_file {t : Tag} {x : Entry} {g : Filing} (h : l.fileOf t = some (x, g)) :
    let a := ((l.withdraw q (.file t)).setEntry t (some { x with job := .file { g with phase := .writing } })).startCommand e d q ⟨.file t, p⟩
      (.primaryWrite t g.book g.frame) (.write d (64 * g.frame) g.received)
    l.issue e d q ⟨.file t, p⟩ = (true, a)
      ∧ Handed e l a d q ⟨.file t, p⟩ (.primaryWrite t g.book g.frame) (.write d (64 * g.frame) g.received)
      ∧ listed (.file t) (a.items q) = false ∧ a.entry t = some { x with job := .file { g with phase := .writing } } := by
  intro a
  refine ⟨?_, handed_startCommand ⟨rfl, rfl, rfl, rfl, rfl, rfl, rfl, rfl, rfl, rfl⟩, withdraw_listed l q _, look_put_same ..⟩
  show _ = (true, Library.startCommand ..)
  rw [sideSector_first]
  unfold Library.issue
  dsimp only
  rw [h]

/-- R98: a twin write item is handed with the data of its frame. -/
theorem issue_twinWrite {b : Book} {fromHold : Bool} {data : List Sector}
    (h : l.twinData b (l.book b).twinMark = some (fromHold, data)) :
    let f := (l.book b).twinMark
    let a := ((l.withdraw q (.twinWrite b)).setTwin b { l.twin b with writing := some ⟨f, fromHold⟩ }).startCommand e d q ⟨.twinWrite b, p⟩
      (.twinWrite b f (e.frame b f).length fromHold true) (.write d (64 * f) data)
    l.issue e d q ⟨.twinWrite b, p⟩ = (true, a)
      ∧ Handed e l a d q ⟨.twinWrite b, p⟩ (.twinWrite b f (e.frame b f).length fromHold true) (.write d (64 * f) data)
      ∧ listed (.twinWrite b) (a.items q) = false ∧ a.twin b = { l.twin b with writing := some ⟨f, fromHold⟩ } := by
  intro f a
  refine ⟨?_, handed_startCommand ⟨rfl, rfl, rfl, rfl, rfl, rfl, rfl, rfl, rfl, rfl⟩, withdraw_listed l q _, look_put_same ..⟩
  show _ = (true, Library.startCommand ..)
  rw [sideSector_first]
  unfold Library.issue
  dsimp only
  rw [h]

/-- R97: a re-read item is handed with the first granted record, and stays on its list while another is granted. -/
theorem issue_reread {b : Book} {r : Reread} (hi : (⟨.twinReread b, p⟩ : Item) ∈ l.items q)
    (h : (l.twin b).rereads.find? (fun r => r.state == .granted) = some r) :
    ∃ a, l.issue e d q ⟨.twinReread b, p⟩ = (true, a)
      ∧ Handed e l a d q ⟨.twinReread b, p⟩ (.reread b r.frame r.len true) (.read d ((List.range r.len).map fun k => 64 * r.frame + k))
      ∧ (∀ x ∈ (a.twin b).rereads, x.frame = r.frame → x.state = .reading)
      ∧ ((listed (.twinReread b) (a.items q) = true) ↔ ∃ x ∈ (a.twin b).rereads, x.state = .granted) := by
  obtain ⟨m, hm⟩ : ∃ m, (l.mapRereads b fun rs => rs.map fun x => if x.frame = r.frame then { x with state := .reading } else x) = m := ⟨_, rfl⟩
  have hforM : ForCommand l m := by rw [← hm]; exact ⟨rfl, rfl, rfl, rfl, rfl, rfl, rfl, rfl, rfl, rfl⟩
  have hitems : m.items q = l.items q := by rw [← hm]; rfl
  have hrereads : (m.twin b).rereads = (l.twin b).rereads.map fun x => if x.frame = r.frame then { x with state := .reading } else x := by
    rw [← hm]
    exact congrArg TwinRecord.rereads (look_put_same ..)
  have hreading : ∀ x ∈ (m.twin b).rereads, x.frame = r.frame → x.state = .reading := fun x hx hf => by
    rw [hrereads] at hx
    obtain ⟨y, -, rfl⟩ := List.mem_map.mp hx
    by_cases hy : y.frame = r.frame
    · rw [if_pos hy]
    · rw [if_neg hy] at hf
      exact absurd hf hy
  obtain ⟨n, hn⟩ : ∃ n, (if (m.twin b).rereads.any fun x => x.state == .granted then m else m.withdraw q (.twinReread b)) = n := ⟨_, rfl⟩
  have hissue : l.issue e d q ⟨.twinReread b, p⟩ = (true, n.startCommand e d q ⟨.twinReread b, p⟩ (.reread b r.frame r.len true)
      (.read d ((List.range r.len).map fun k => 64 * r.frame + k))) := by
    rw [sideSector_all, ← hn, ← hm]
    unfold Library.issue
    dsimp only
    rw [h]
  refine ⟨_, hissue, ?_⟩
  by_cases hg : ((m.twin b).rereads.any fun x => x.state == .granted) = true
  · rw [if_pos hg] at hn
    subst hn
    obtain ⟨x, hx, hxg⟩ := List.any_eq_true.mp hg
    refine ⟨handed_startCommand hforM, hreading, fun _ => ⟨x, hx, by simpa using hxg⟩, fun _ => ?_⟩
    show listed _ (m.items q) = true
    rw [hitems]
    exact listed_iff.mpr ⟨_, hi, rfl⟩
  · rw [if_neg hg] at hn
    have hfor : ForCommand l n := by
      rw [← hn]
      exact ⟨hforM.drives, hforM.out, hforM.books, hforM.roles, hforM.picker, hforM.log, hforM.buffer, hforM.health, hforM.queue, hforM.rescue⟩
    have htwin : n.twin b = m.twin b := by rw [← hn]; rfl
    refine ⟨handed_startCommand hfor, fun x hx => hreading x (by rw [← htwin]; exact hx), fun hl => ?_, fun ⟨x, hx, hxg⟩ => ?_⟩
    · have : listed (.twinReread b) (n.items q) = false := by rw [← hn]; exact withdraw_listed ..
      exact absurd hl (by rw [show (n.startCommand e d q ⟨.twinReread b, p⟩ _ _).items q = n.items q from rfl, this]; exact Bool.false_ne_true)
    · have hx' : x ∈ (m.twin b).rereads := by rw [← htwin]; exact hx
      exact absurd (List.any_eq_true.mpr ⟨x, hx', by rw [hxg]; rfl⟩) hg

theorem mapBatch_forCommand (f : BatchFrame → BatchFrame) : ForCommand l (l.mapBatch f) := ⟨rfl, rfl, rfl, rfl, rfl, rfl, rfl, rfl, rfl, rfl⟩

theorem mem_mapBatch {m : Library} {f : BatchFrame → BatchFrame} (hm : m.care.batch = (l.mapBatch f).care.batch) {xs : List BatchFrame}
    (h : m.care.batch = some xs) {y : BatchFrame} (hy : y ∈ xs) : ∃ z, y = f z := by
  rw [hm] at h
  obtain ⟨zs, -, rfl⟩ := Option.map_eq_some_iff.mp (show Option.map _ _ = some xs from h)
  obtain ⟨z, -, rfl⟩ := List.mem_map.mp hy
  exact ⟨z, rfl⟩

/-- R170: a rescue read item is handed with the sectors that its frame lacks. -/
theorem issue_rescueRead {r : RescueRecord} {x : BatchFrame} (h : l.rescueReadFrame q = some (r, x)) :
    ∃ a, l.issue e d q ⟨.rescueRead, p⟩ = (true, a)
      ∧ Handed e l a d q ⟨.rescueRead, p⟩ (.rescueRead r.book x.frame x.lacking true) (.read d (x.lacking.map fun k => 64 * x.frame + k))
      ∧ a.scheduler = l.scheduler ∧ ∀ xs, a.care.batch = some xs → ∀ y ∈ xs, y.frame = x.frame → y.reading = true := by
  have hissue : l.issue e d q ⟨.rescueRead, p⟩ = (true,
      (l.mapBatch fun y => if y.frame = x.frame then { y with reading := true } else y).startCommand e d q ⟨.rescueRead, p⟩
        (.rescueRead r.book x.frame x.lacking true) (.read d (x.lacking.map fun k => 64 * x.frame + k))) := by
    rw [sideSector_all]
    unfold Library.issue
    dsimp only
    rw [h]
  refine ⟨_, hissue, handed_startCommand (mapBatch_forCommand _), rfl, fun xs hxs y hy hf => ?_⟩
  obtain ⟨z, rfl⟩ := mem_mapBatch (m := Library.startCommand ..) rfl hxs hy
  by_cases hz : z.frame = x.frame
  · rw [if_pos hz]
  · rw [if_neg hz] at hf
    exact absurd hf hz

/-- R173: a rescue write item is handed with the sectors of the lowest frame of the batch. -/
theorem issue_rescueWrite {r : RescueRecord} {x : BatchFrame} (hr : l.care.rescue = some r) (h : l.lowestOpen = some x) :
    ∃ a, l.issue e d q ⟨.rescueWrite, p⟩ = (true, a)
      ∧ Handed e l a d q ⟨.rescueWrite, p⟩ (.rescueWrite r.book x.frame true)
        (.write d (64 * x.frame) (x.data.map fun z => z.getD Sector.zeros))
      ∧ a.scheduler = l.scheduler ∧ ∀ xs, a.care.batch = some xs → ∀ y ∈ xs, y.frame = x.frame → y.state = .writing := by
  have hissue : l.issue e d q ⟨.rescueWrite, p⟩ = (true,
      (l.mapBatch fun y => if y.frame = x.frame then { y with state := .writing } else y).startCommand e d q ⟨.rescueWrite, p⟩
        (.rescueWrite r.book x.frame true) (.write d (64 * x.frame) (x.data.map fun z => z.getD Sector.zeros))) := by
    rw [sideSector_first]
    unfold Library.issue
    dsimp only
    rw [hr, h]
  refine ⟨_, hissue, handed_startCommand (mapBatch_forCommand _), rfl, fun xs hxs y hy hf => ?_⟩
  obtain ⟨z, rfl⟩ := mem_mapBatch (m := Library.startCommand ..) rfl hxs hy
  by_cases hz : z.frame = x.frame
  · rw [if_pos hz]
  · rw [if_neg hz] at hf
    exact absurd hf hz

/-- R164: a patrol item is handed with the frame verified next, or finds a full pass. -/
theorem issue_patrol {b : Book} {f : Nat} (h : l.nextPatrol e q = some (b, f)) :
    ∃ a, l.issue e d q ⟨.patrol, p⟩ = (true, a)
      ∧ Handed e l a d q ⟨.patrol, p⟩ (.patrolVerify b f (e.frame b f).length)
        (.verify d ((List.range (e.frame b f).length).map fun k => 64 * f + k))
      ∧ a.scheduler = l.scheduler := by
  have hissue : l.issue e d q ⟨.patrol, p⟩ = (true, l.startCommand e d q ⟨.patrol, p⟩ (.patrolVerify b f (e.frame b f).length)
      (.verify d ((List.range (e.frame b f).length).map fun k => 64 * f + k))) := by
    rw [sideSector_all]
    unfold Library.issue
    dsimp only
    rw [h]
  exact ⟨_, hissue, handed_startCommand (.refl l), rfl⟩

end Issued

end Sys2Proof.Machine
end

section
-- One declaration after the other: the stacks of the threads that wait for each other count against the check's memory limit.
set_option Elab.async false
namespace Sys2Proof.Machine

section HandOutSettled

variable {e : Env} {l : Library} {d : Drive} {q : Side}

/-- R109, R126: what the hand-out does to a servable item and to the work that it names. -/
theorem serveDrive_hands {i : Item} (hd : d.val < e.configured) (hu : (l.drive d).unload = false) (hm : l.mountedSide d = some q)
    (hi : l.firstServable q = some i) (hs : (l.drive d).state = .ready) (hhold : e.hold = false) (hv : (l.drive d).service = none) :
    let a := l.serveDrive e d
    (∀ t b f w, i.kind = .fetch t b f → (l.windows t).find? (fun w => w.book == b && w.frame == f && w.isOpen) = some w →
      Handed e l a d q i (.fetchRead t b f w.missing true 0) (.read d (w.missing.map fun k => 64 * f + k))
        ∧ listed i.kind (a.items q) = false ∧ { w with reading := true } ∈ a.windows t)
    ∧ (∀ t x g, i.kind = .file t → l.fileOf t = some (x, g) →
      Handed e l a d q i (.primaryWrite t g.book g.frame) (.write d (64 * g.frame) g.received)
        ∧ listed i.kind (a.items q) = false ∧ a.entry t = some { x with job := .file { g with phase := .writing } })
    ∧ (∀ b h data, i.kind = .twinWrite b → l.twinData b (l.book b).twinMark = some (h, data) →
      let f := (l.book b).twinMark
      Handed e l a d q i (.twinWrite b f (e.frame b f).length h true) (.write d (64 * f) data)
        ∧ listed i.kind (a.items q) = false ∧ a.twin b = { l.twin b with writing := some ⟨f, h⟩ })
    ∧ (∀ b r, i.kind = .twinReread b → (l.twin b).rereads.find? (fun r => r.state == .granted) = some r →
      Handed e l a d q i (.reread b r.frame r.len true) (.read d ((List.range r.len).map fun k => 64 * r.frame + k))
        ∧ (∀ x ∈ (a.twin b).rereads, x.frame = r.frame → x.state = .reading)
        ∧ ((listed i.kind (a.items q) = true) ↔ ∃ x ∈ (a.twin b).rereads, x.state = .granted))
    ∧ (∀ r x, i.kind = .rescueRead → l.rescueReadFrame q = some (r, x) →
      Handed e l a d q i (.rescueRead r.book x.frame x.lacking true) (.read d (x.lacking.map fun k => 64 * x.frame + k))
        ∧ a.scheduler = l.scheduler ∧ ∀ xs, a.care.batch = some xs → ∀ y ∈ xs, y.frame = x.frame → y.reading = true)
    ∧ (∀ r x, i.kind = .rescueWrite → l.care.rescue = some r → l.lowestOpen = some x →
      Handed e l a d q i (.rescueWrite r.book x.frame true) (.write d (64 * x.frame) (x.data.map fun z => z.getD Sector.zeros))
        ∧ a.scheduler = l.scheduler ∧ ∀ xs, a.care.batch = some xs → ∀ y ∈ xs, y.frame = x.frame → y.state = .writing)
    ∧ (∀ b f, i.kind = .patrol → l.nextPatrol e q = some (b, f) →
      Handed e l a d q i (.patrolVerify b f (e.frame b f).length) (.verify d ((List.range (e.frame b f).length).map fun k => 64 * f + k))
        ∧ a.scheduler = l.scheduler)
    ∧ ((∃ t b f, i.kind = .fetch t b f ∧ (l.windows t).find? (fun w => w.book == b && w.frame == f && w.isOpen) = none)
        ∨ (∃ b, i.kind = .twinWrite b ∧ l.twinData b (l.book b).twinMark = none) →
      a = Library.handOut e d q 63 (l.withdraw q i.kind))
    ∧ (i.kind = .patrol → l.nextPatrol e q = none → a = Library.handOut e d q 63 ((l.withdraw q .patrol).fullPass e q)) := by
  obtain ⟨a, ha⟩ : ∃ a, l.serveDrive e d = a := ⟨_, rfl⟩
  dsimp only
  rw [ha]
  have hserve : a = Library.handOut e d q 64 l := ha.symm.trans (serveDrive_ready (by simpa [Env.hasDrive] using hd) hu hm hs hhold hv)
  have hsends {m : Library} (h : l.issue e d q i = (true, m)) : a = m := hserve.trans (handOut_sends 63 hi h)
  have hpasses {m : Library} (h : l.issue e d q i = (false, m)) : a = Library.handOut e d q 63 m := hserve.trans (handOut_passes 63 hi h)
  obtain ⟨k, p⟩ := i
  dsimp only
  refine ⟨fun t b f w hk h => ?_, fun t x g hk h => ?_, fun b h data hk hdata => ?_, fun b r hk h => ?_, fun r x hk h => ?_,
    fun r x hk hr h => ?_, fun b f hk h => ?_, fun h => ?_, fun hk h => ?_⟩
  · subst hk
    obtain ⟨hissue, h⟩ := issue_fetch (e := e) (d := d) (q := q) (p := p) h
    rwa [hsends hissue]
  · subst hk
    obtain ⟨hissue, h⟩ := issue_file (e := e) (d := d) (q := q) (p := p) h
    rwa [hsends hissue]
  · subst hk
    obtain ⟨hissue, h⟩ := issue_twinWrite (e := e) (d := d) (q := q) (p := p) hdata
    rwa [hsends hissue]
  · subst hk
    obtain ⟨m, hissue, h⟩ := issue_reread (e := e) (d := d) (p := p) (List.mem_of_find?_eq_some hi) h
    rwa [hsends hissue]
  · subst hk
    obtain ⟨m, hissue, h⟩ := issue_rescueRead (e := e) (d := d) (p := p) h
    rwa [hsends hissue]
  · subst hk
    obtain ⟨m, hissue, h⟩ := issue_rescueWrite (e := e) (d := d) (q := q) (p := p) hr h
    rwa [hsends hissue]
  · subst hk
    obtain ⟨m, hissue, h⟩ := issue_patrol (d := d) (p := p) h
    rwa [hsends hissue]
  · rcases h with ⟨t, b, f, hk, h⟩ | ⟨b, hk, h⟩
    · subst hk
      refine hpasses ?_
      unfold Library.issue
      dsimp only
      rw [h]
    · subst hk
      refine hpasses ?_
      unfold Library.issue
      dsimp only
      rw [h]
  · subst hk
    refine hpasses ?_
    unfold Library.issue
    dsimp only
    rw [h]

end HandOutSettled

section CursorMoves

variable {e : Env} {l : Library} {q : Side}

theorem moveCursor_none (n : Nat) (h : l.nextCursor e = none) :
    Library.moveCursor e (n + 1) l = { l with care := { l.care with cursor := none } } := by
  rw [Library.moveCursor, h]

/-- R163: the state with the cursor on a side. -/
def Library.onCursor (l : Library) (q : Side) : Library := { l with care := { l.care with cursor := some q, lastCursor := some q } }

theorem moveCursor_verifies (n : Nat) {b : Book} {f : Nat} (h : l.nextCursor e = some q) (hp : l.nextPatrol e q = some (b, f)) :
    Library.moveCursor e (n + 1) l = (l.onCursor q).place e q .patrol := by
  have hp' : (l.onCursor q).nextPatrol e q = some (b, f) := hp
  rw [Library.moveCursor, h]
  dsimp only
  rw [show Library.nextPatrol e { l with care := { l.care with cursor := some q, lastCursor := some q } } q = some (b, f) from hp']
  rfl

theorem moveCursor_passes (n : Nat) (h : l.nextCursor e = some q) (hp : l.nextPatrol e q = none) :
    Library.moveCursor e (n + 1) l = Library.moveCursor e n ((l.onCursor q).fullPass e q) := by
  have hp' : (l.onCursor q).nextPatrol e q = none := hp
  rw [Library.moveCursor, h]
  dsimp only
  rw [show Library.nextPatrol e { l with care := { l.care with cursor := some q, lastCursor := some q } } q = none from hp']
  rfl

end CursorMoves

/-- Settles O51: the order of the lists, the moves of a decision, the hand-out of each kind, and the patrol's choices. -/
theorem demandListAndDecision : Obligations.DemandListAndDecision := by
  refine ⟨fun i xs h hn => joinItem_places i xs h hn, fun e l => ?_, fun l q i => firstServable_iff, fun e l d h => serveDrive_idle h,
    fun e l d q i hd hu hm hi => ⟨fun hs => ?_, fun hs hhold hv => serveDrive_hands hd hu hm hi hs hhold hv⟩,
    fun e l => ⟨fun q => mem_patrolCandidates, fun q hq => oldestPatrol_some hq, fun h => ?_⟩,
    fun e l q h1 h2 h3 h4 h5 h6 ho => ?_, fun e l => ⟨fun q hq he => nextCursor_mounted hq he, fun h => ?_⟩,
    fun e l q => ⟨fun b hr => by simp only [Library.patrolTop, hr], fun b hr => by simp only [Library.patrolTop, hr], hasDemand_iff,
      patrolEligible_iff, fun b f => nextPatrol_iff⟩, fun e l => ⟨fun h => ?_, fun h => ⟨fun hn => ?_, fun q hq => ⟨fun he => ?_, fun he => ?_⟩⟩⟩,
    fun e l n => ⟨fun h => moveCursor_none n h, fun q hq => ⟨fun b f hp => ?_, fun hp => ?_⟩⟩⟩
  · obtain ⟨ms, heq, hle, -⟩ := movesGrow_decide (e := e) (l := l)
    rw [heq]
    refine ⟨?_, fun m hm => List.mem_append_left _ hm⟩
    rw [List.filter_append, List.length_append]
    exact Nat.add_le_add_left hle _
  · exact serveDrive_stopped (by simpa [Env.hasDrive] using hd) hu hm hi hs
  · by_cases hc : l.patrolCandidates e = []
    · exact considerPatrol_none hc
    · refine considerPatrol_busy (Bool.eq_false_iff.mpr fun hquiet => ?_)
      obtain ⟨h1, h2, h3, h4, h5, h6⟩ := quietLibrary_iff.mp hquiet
      rcases h with ⟨p, hp⟩ | h | h | h | h | h | h
      · rw [h6 p] at hp; cases hp
      · exact h h2
      · exact h h3
      · exact h h4
      · rw [h1] at h; cases h
      · omega
      · exact hc h
  · have hquiet := considerPatrol_quiet (quietLibrary_iff.mpr ⟨h1, h2, h3, h4, h5, h6⟩) ho
    refine ⟨fun d hf he hlow => ?_, fun hnone => ?_⟩
    · rw [(giftEmpty_iff q).mpr ⟨hf, he, hlow⟩] at hquiet
      rw [hquiet]
      refine ⟨?_, rfl, rfl⟩
      show { l.picker with moves := l.picker.moves ++ [Move.load (slotOf q) (faceOf q) d] } = _
      rw [h4]
      rfl
    · rw [(noGift_iff q).mpr hnone] at hquiet
      refine ⟨fun d hf hidle hbest => ?_, fun hidle => ?_⟩
      · have hleast : l.leastUsed (l.idleDrives (l.freeDrives e [] q)) = some d :=
          (leastUsed_iff l _ ((freeDrives_pairwise q).filter _) d).mpr ⟨(idleDrives_iff q).mpr ⟨hf, hidle⟩, fun x hx =>
            hbest x ((idleDrives_iff q).mp hx).1 ((idleDrives_iff q).mp hx).2⟩
        have heq : l.considerPatrol e = l.takeDrive e d := by
          rw [hquiet, hleast]
        obtain ⟨k1, k2, -⟩ := takeDrive_leaves e l d
        rw [heq]
        refine ⟨rfl, k1, k2, ?_⟩
        unfold Library.takeDrive
        cases l.mountedSide d with
        | none => exact (congrArg Scheduler.patrolMount (chooseUnload_leaves e l d).2.2.2.2.2).trans h2
        | some j =>
          have hdrop : l.dropPatrolMount j = l := if_neg (by rw [h2]; exact nofun)
          dsimp only
          rw [hdrop]
          exact (congrArg Scheduler.patrolMount (chooseUnload_leaves e l d).2.2.2.2.2).trans h2
      · have hempty : l.idleDrives (l.freeDrives e [] q) = [] := List.eq_nil_iff_forall_not_mem.mpr fun d hd =>
          hidle d ((idleDrives_iff q).mp hd).1 ((idleDrives_iff q).mp hd).2
        rw [hquiet, hempty]
        rfl
  · rw [nextCursor_next h]
    refine ⟨⟨fun hn => List.find?_eq_none.mpr fun q _ => by rw [hn q]; exact Bool.false_ne_true, fun hn q => ?_⟩,
      fun q hq => ⟨List.find?_some hq, fun hk p hp => ?_, fun k p hk hp => ?_⟩⟩
    · exact Bool.eq_false_iff.mpr (List.find?_eq_none.mp hn q (mem_sidesAfter _ q))
    · rw [hk] at hq
      exact find_first (R := (· ≤ ·)) ((List.pairwise_lt_finRange 128).imp le_of_lt) le_refl hq (mem_sidesAfter none p) hp
    · rw [hk] at hq
      exact find_first (R := fun a b => stepsAfter k a ≤ stepsAfter k b) (sidesAfter_rises k) (fun _ => le_refl _) hq
        (mem_sidesAfter _ p) hp
  · unfold Library.examineCursor
    rw [h]
    rfl
  · unfold Library.examineCursor
    rw [if_pos h]
    dsimp only
    rw [hn]
  · unfold Library.examineCursor
    rw [if_pos h]
    dsimp only
    rw [hq]
    exact if_pos he
  · unfold Library.examineCursor
    rw [if_pos h]
    dsimp only
    rw [hq]
    exact if_neg fun hn => Bool.false_ne_true (he.symm.trans hn)
  · dsimp only
    rw [moveCursor_verifies n hq hp]
    refine ⟨rfl, place_listed .., fun i hi => look_put_ne _ _ (Ne.symm hi), fun x hx => ?_⟩
    have hx' : x ∈ joinItem ⟨.patrol, e.now⟩ (l.items q) := by
      rw [← show ((l.onCursor q).place e q .patrol).items q = joinItem ⟨.patrol, e.now⟩ (l.items q) from look_put_same ..]
      exact hx
    unfold joinItem at hx'
    split at hx'
    · exact .inl hx'
    · exact (mem_insertItem.mp hx').symm
  · exact ⟨moveCursor_passes n hq hp, fullPass_leaves (l := l.onCursor q) q⟩

end Sys2Proof.Machine
end

section
-- One declaration after the other: the stacks of the threads that wait for each other count against the check's memory limit.
set_option Elab.async false
namespace Sys2Proof.Machine

/-! # The course of a rescue -/

section Seek

variable {e : Env} {l : Library} {b : Book} {p q : Side}

theorem mem_pool : p ∈ l.pool ↔ l.role p = .blank := by
  unfold Library.pool
  rw [List.mem_filter]
  simp [allSides]

/-- R168: a target is the first side of the blank pool in another cartridge. -/
theorem findTarget_iff : l.findTarget b q = some p ↔ l.role p = .blank ∧ slotOf p ≠ slotOf q
    ∧ (∀ o, l.otherSide b q = some o → slotOf p ≠ slotOf o)
    ∧ ∀ p', p' < p → l.role p' = .blank → slotOf p' = slotOf q ∨ ∃ o, l.otherSide b q = some o ∧ slotOf p' = slotOf o := by
  have hp (x : Side) : (slotOf x != slotOf q && (match l.otherSide b q with | some o => slotOf x != slotOf o | none => true)) = true
      ↔ slotOf x ≠ slotOf q ∧ ∀ o, l.otherSide b q = some o → slotOf x ≠ slotOf o := by
    cases l.otherSide b q <;> simp
  unfold Library.findTarget
  refine (find_lowest _ ((List.pairwise_lt_finRange 128).filter _) _ p).trans ?_
  rw [show p ∈ List.filter (fun s => l.role s == .blank) (List.finRange 128) ↔ l.role p = .blank from mem_pool]
  constructor
  · rintro ⟨h1, h2, h3⟩
    obtain ⟨h4, h5⟩ := (hp p).mp h2
    refine ⟨h1, h4, h5, fun p' hlt hb => ?_⟩
    have := mt (hp p').mpr (h3 p' hlt (mem_pool.mpr hb))
    by_contra hn
    rw [not_or] at hn
    exact this ⟨hn.1, fun o ho hs => hn.2 ⟨o, ho, hs⟩⟩
  · rintro ⟨h1, h4, h5, h6⟩
    refine ⟨h1, (hp p).mpr ⟨h4, h5⟩, fun p' hlt hm ht => ?_⟩
    obtain ⟨k1, k2⟩ := (hp p').mp ht
    rcases h6 p' hlt (mem_pool.mp hm) with h | ⟨o, ho, hs⟩
    · exact k1 h
    · exact k2 o ho hs

/-- R168, R160: a side that is taken as a target. -/
theorem takeTarget_leaves (l : Library) (p : Side) (b : Book) : (l.takeTarget p b).role p = .rescueTarget b
    ∧ (∀ i, i ≠ p → (l.takeTarget p b).role i = l.role i) ∧ (l.takeTarget p b).health p = .zero
    ∧ (∀ i, i ≠ p → (l.takeTarget p b).health i = l.health i) ∧ (l.takeTarget p b).books = l.books ∧ (l.takeTarget p b).log = l.log
    ∧ (l.takeTarget p b).care.queue = l.care.queue :=
  ⟨look_put_same .., fun _ hi => look_put_ne _ _ (Ne.symm hi), look_put_same .., fun _ hi => look_put_ne _ _ (Ne.symm hi), rfl, rfl, rfl⟩

/-- R169, R174: a wait for a target. -/
theorem waitRescue_leaves (e : Env) (l : Library) (c : Option Book) (q : Side) : (l.waitRescue e c q).care.rescue = l.care.rescue
    ∧ (l.waitRescue e c q).care.waiting = true ∧ (l.waitRescue e c q).care.queue = l.care.queue ∧ (l.waitRescue e c q).roles = l.roles
    ∧ (l.care.waiting = true → (l.waitRescue e c q).log = l.log)
    ∧ (l.care.waiting = false → l.log.first = none → KindSet.has e.mask .noBlank = false →
      (l.waitRescue e c q).log.first = some ⟨.noBlank, c, some q, none, none, none, none, e.day⟩) := by
  unfold Library.waitRescue
  by_cases h : l.care.waiting = true
  · rw [if_pos h]
    exact ⟨rfl, h, rfl, rfl, fun _ => rfl, fun hn => by rw [h] at hn; cases hn⟩
  · rw [if_neg h]
    exact ⟨rfl, rfl, rfl, rfl, fun hn => absurd hn h, fun _ hf hm => fault_first (l := { l with care := { l.care with waiting := true } }) hf hm⟩

theorem firstRescue_eq {xs ys : List Side} (hq : l.care.queue = xs ++ q :: ys)
    (hx : ∀ x ∈ xs, ∀ c, (l.role x).holds = some c → l.findTarget c x = none) (hb : (l.role q).holds = some b) (hp : l.findTarget b q = some p) :
    l.firstRescue = some (q, b, p) := by
  have hone (x : Side) : x ∈ xs → (match (l.role x).holds with
      | some b => (l.findTarget b x).map fun t => (x, b, t)
      | none => none) = none := fun hm => by
    cases hc : (l.role x).holds with
    | none => rfl
    | some c =>
      dsimp only
      rw [hx x hm c hc]
      rfl
  unfold Library.firstRescue
  rw [hq, List.findSome?_append, List.findSome?_cons, hb]
  dsimp only
  rw [hp]
  exact congrArg (Option.or · (some (q, b, p))) (List.findSome?_eq_none_iff.mpr hone)

theorem firstRescue_none (hx : ∀ x ∈ l.care.queue, ∀ c, (l.role x).holds = some c → l.findTarget c x = none) : l.firstRescue = none := by
  unfold Library.firstRescue
  refine List.findSome?_eq_none_iff.mpr fun x hm => ?_
  cases hc : (l.role x).holds with
  | none => rfl
  | some c =>
    dsimp only
    rw [hx x hm c hc]
    rfl

/-- R168: the search for a rescue has been made. -/
def Library.sought (l : Library) : Library := { l with care := { l.care with seekDue := false } }

theorem seekRescue_begins (hr : l.care.rescue = none) (hf : l.firstRescue = some (q, b, p)) : l.seekRescue e
    = { l.sought.takeTarget p b with care := { (l.sought.takeTarget p b).care with
        queue := l.care.queue.filter fun x => x != q
        rescue := some ⟨q, (l.sought.takeTarget p b).role q == .twin b, b, some p, 0, false⟩
        waiting := false } } := by
  have hne : l.care.queue ≠ [] := fun hn => by
    unfold Library.firstRescue at hf
    rw [hn] at hf
    cases hf
  obtain ⟨x, xs, hq⟩ := List.exists_cons_of_ne_nil hne
  obtain ⟨m, hm⟩ : ∃ m : Library, { l with care := { l.care with seekDue := false } } = m := ⟨_, rfl⟩
  have hr' : m.care.rescue = none := by rw [← hm]; exact hr
  have hq' : m.care.queue = x :: xs := by rw [← hm]; exact hq
  have hf' : m.firstRescue = some (q, b, p) := by rw [← hm]; exact hf
  unfold Library.seekRescue
  rw [hm]
  dsimp only
  rw [hr']
  dsimp only
  rw [hq']
  dsimp only
  rw [hf', ← hm] <;> rfl

theorem seekRescue_waits {x : Side} {xs : List Side} (hr : l.care.rescue = none) (hq : l.care.queue = x :: xs) (hf : l.firstRescue = none) :
    l.seekRescue e = l.sought.waitRescue e (l.role x).book? x := by
  obtain ⟨m, hm⟩ : ∃ m : Library, { l with care := { l.care with seekDue := false } } = m := ⟨_, rfl⟩
  have hr' : m.care.rescue = none := by rw [← hm]; exact hr
  have hq' : m.care.queue = x :: xs := by rw [← hm]; exact hq
  have hf' : m.firstRescue = none := by rw [← hm]; exact hf
  unfold Library.seekRescue
  rw [hm]
  dsimp only
  rw [hr']
  dsimp only
  rw [hq']
  dsimp only
  rw [hf', ← hm] <;> rfl

theorem seekRescue_refinds {r : RescueRecord} (hr : l.care.rescue = some r) (ht : r.target = none) (hp : l.findTarget r.book r.source = some p) :
    l.seekRescue e = { l.sought.takeTarget p r.book with care := { (l.sought.takeTarget p r.book).care with
        rescue := some { r with target := some p }, waiting := false } } := by
  obtain ⟨m, hm⟩ : ∃ m : Library, { l with care := { l.care with seekDue := false } } = m := ⟨_, rfl⟩
  have hr' : m.care.rescue = some r := by rw [← hm]; exact hr
  have hp' : m.findTarget r.book r.source = some p := by rw [← hm]; exact hp
  unfold Library.seekRescue
  rw [hm]
  dsimp only
  rw [hr']
  dsimp only
  rw [ht, if_neg (show ¬ (none : Option Side).isSome = true from Bool.false_ne_true), hp', ← hm] <;> rfl

theorem seekRescue_rewaits {r : RescueRecord} (hr : l.care.rescue = some r) (ht : r.target = none) (hp : l.findTarget r.book r.source = none) :
    l.seekRescue e = l.sought.waitRescue e (some r.book) r.source := by
  obtain ⟨m, hm⟩ : ∃ m : Library, { l with care := { l.care with seekDue := false } } = m := ⟨_, rfl⟩
  have hr' : m.care.rescue = some r := by rw [← hm]; exact hr
  have hp' : m.findTarget r.book r.source = none := by rw [← hm]; exact hp
  unfold Library.seekRescue
  rw [hm]
  dsimp only
  rw [hr']
  dsimp only
  rw [ht, if_neg (show ¬ (none : Option Side).isSome = true from Bool.false_ne_true), hp', ← hm] <;> rfl

end Seek

section Batches

variable {e : Env} {l : Library} {r : RescueRecord} {x : BatchFrame}

/-- Table 9-3, R171: where a frame goes from a copy that it has failed on, or at its batch's formation. -/
theorem turnFrame_waits {cs ds : List Copy} {c : Copy} (h : (l.copies r x).filter (fun c => !x.failedOn c) = cs ++ c :: ds)
    (hc : l.copyAvailable e r c = true) (hcs : ∀ c' ∈ cs, l.copyAvailable e r c' = false) : l.turnFrame e r x = { x with waits := some c } := by
  have hfind : ((l.copies r x).filter fun c => !x.failedOn c).find? (fun c => l.copyAvailable e r c) = some c := by
    rw [h]
    exact List.find?_eq_some_iff_append.mpr ⟨hc, cs, ds, rfl, fun c' h' => by rw [hcs c' h']; rfl⟩
  unfold Library.turnFrame
  dsimp only
  rw [hfind]

theorem turnFrame_away (h : ∀ c ∈ (l.copies r x).filter (fun c => !x.failedOn c), l.copyAvailable e r c = false) : l.turnFrame e r x
    = match l.held r.book x.frame with
    | some h => x.fillFrom h
    | none =>
      match (l.copies r x).filter (fun c => !x.failedOn c) with
      | c :: _ => { x with waits := some c }
      | [] => { x with state := .lost, waits := none } := by
  have hfind : ((l.copies r x).filter fun c => !x.failedOn c).find? (fun c => l.copyAvailable e r c) = none :=
    List.find?_eq_none.mpr fun c hc => by rw [h c hc]; exact Bool.false_ne_true
  unfold Library.turnFrame
  dsimp only
  rw [hfind] <;> rfl

/-- R171: a hold entry supplies what is lacking, with zeros beyond its end (log entry 36). -/
theorem fillFrom_supplies (x : BatchFrame) (h : HoldEntry) : (x.fillFrom h).state = .ready ∧ (x.fillFrom h).waits = none
    ∧ (x.fillFrom h).data.length = x.data.length
    ∧ ∀ i : Nat, (∀ z, x.data[i]? = some (some z) → (x.fillFrom h).data[i]? = some (some z))
      ∧ (x.data[i]? = some none → (x.fillFrom h).data[i]? = some (some ((h.data[i]?).getD Sector.zeros))) := by
  refine ⟨rfl, rfl, List.length_mapIdx, fun i => ⟨fun z hz => ?_, fun hz => ?_⟩⟩
  · exact (List.getElem?_mapIdx ..).trans (by rw [hz]; rfl)
  · exact (List.getElem?_mapIdx ..).trans (by rw [hz]; rfl)

theorem mem_copies : Copy.source ∈ l.copies r x := by
  unfold Library.copies
  split
  · exact List.mem_cons_self
  · exact List.mem_cons_self

/-- R170: a frame at its batch's formation is never lost. -/
theorem turnFrame_fresh (hs : x.state = .toRead) (hf : x.sourceFailed = false) :
    ((l.turnFrame e r x).state = .toRead ∨ (l.turnFrame e r x).state = .ready)
      ∧ (l.turnFrame e r x).data.length = x.data.length := by
  have hmem : Copy.source ∈ (l.copies r x).filter fun c => !x.failedOn c := List.mem_filter.mpr ⟨mem_copies, by
    show (!x.sourceFailed) = true
    rw [hf]
    rfl⟩
  by_cases h : ∀ c ∈ (l.copies r x).filter (fun c => !x.failedOn c), l.copyAvailable e r c = false
  · rw [turnFrame_away h]
    cases l.held r.book x.frame with
    | some h => exact ⟨.inr rfl, (fillFrom_supplies x h).2.2.1⟩
    | none =>
      dsimp only
      cases hu : (l.copies r x).filter (fun c => !x.failedOn c) with
      | nil => rw [hu] at hmem; cases hmem
      | cons c cs => exact ⟨.inl hs, rfl⟩
  · simp only [not_forall, Bool.not_eq_false] at h
    obtain ⟨c, hc, ha⟩ := h
    obtain ⟨c', hc'⟩ : ∃ c', ((l.copies r x).filter fun c => !x.failedOn c).find? (fun c => l.copyAvailable e r c) = some c' :=
      Option.isSome_iff_exists.mp (List.find?_isSome.mpr ⟨c, hc, ha⟩)
    have heq : l.turnFrame e r x = { x with waits := some c' } := by
      unfold Library.turnFrame
      dsimp only
      rw [hc']
    rw [heq]
    exact ⟨.inl hs, rfl⟩

/-- R170: a frame of a batch at its formation. -/
def freshFrame (f n : Nat) : BatchFrame := ⟨f, n, .toRead, List.replicate n none, none, false, false, false⟩

theorem formBatch_eq (e : Env) (l : Library) (r : RescueRecord) : l.formBatch e r
    = (List.range' r.copyMark (min (r.copyMark + 8) (l.chasedMark r) - r.copyMark)).map fun f =>
      if (e.frame r.book f).filed = true then l.turnFrame e r (freshFrame f (e.frame r.book f).length)
      else ⟨f, 0, .skipped, [], none, false, false, false⟩ := by
  unfold Library.formBatch
  dsimp only
  refine List.map_congr_left fun f _ => ?_
  unfold batchFrame
  by_cases h : (e.frame r.book f).filed = true
  · simp only [if_pos h]
    rfl
  · simp only [if_neg h]
    rfl

end Batches

end Sys2Proof.Machine
end

section
-- One declaration after the other: the stacks of the threads that wait for each other count against the check's memory limit.
set_option Elab.async false
namespace Sys2Proof.Machine

section Lists

variable {e : Env} {l m : Library} {s s' : Side} {k k' : ItemKind}

theorem place_listed_iff : listed k' ((l.place e s k).items s') = true ↔ listed k' (l.items s') = true ∨ (s = s' ∧ k' = k) := by
  by_cases hs : s = s'
  · subst hs
    have hitems : (l.place e s k).items s = joinItem ⟨k, e.now⟩ (l.items s) := look_put_same ..
    rw [hitems, listed_iff, listed_iff]
    constructor
    · rintro ⟨x, hx, rfl⟩
      unfold joinItem at hx
      split at hx
      · exact .inl ⟨x, hx, rfl⟩
      · rcases mem_insertItem.mp hx with rfl | hx
        · exact .inr ⟨rfl, rfl⟩
        · exact .inl ⟨x, hx, rfl⟩
    · rintro (⟨x, hx, rfl⟩ | ⟨-, rfl⟩)
      · exact ⟨x, mem_joinItem_of_mem hx, rfl⟩
      · exact listed_iff.mp (joinItem_listed ⟨k', e.now⟩ (l.items s)).1
  · have hitems : (l.place e s k).items s' = l.items s' := look_put_ne _ _ hs
    rw [hitems]
    exact ⟨.inl, fun h => h.resolve_right fun h => hs h.1⟩

theorem withdraw_listed_iff : listed k' ((l.withdraw s k).items s') = true ↔ listed k' (l.items s') = true ∧ ¬ (s = s' ∧ k' = k) := by
  by_cases hs : s = s'
  · subst hs
    have hitems : (l.withdraw s k).items s = (l.items s).filter fun i => i.kind != k := Library.setItems_items_same ..
    rw [hitems, listed_iff, listed_iff]
    constructor
    · rintro ⟨x, hx, rfl⟩
      obtain ⟨hx, hk⟩ := List.mem_filter.mp hx
      exact ⟨⟨x, hx, rfl⟩, fun h => by simp [h.2] at hk⟩
    · rintro ⟨⟨x, hx, rfl⟩, hn⟩
      exact ⟨x, List.mem_filter.mpr ⟨hx, by simpa using hn⟩, rfl⟩
  · have hitems : (l.withdraw s k).items s' = l.items s' := look_put_ne _ _ hs
    rw [hitems]
    exact ⟨fun h => ⟨h, fun h => hs h.1⟩, And.left⟩

/-- The demand lists and the quiet time alone have changed. -/
def ListsMove (l m : Library) : Prop := ∃ xs q, m = { l with scheduler := { l.scheduler with lists := xs, quiet := q } }

theorem ListsMove.refl (l : Library) : ListsMove l l := ⟨_, _, rfl⟩

theorem ListsMove.trans {n : Library} (h : ListsMove l m) (h' : ListsMove m n) : ListsMove l n := by
  obtain ⟨xs, q, rfl⟩ := h
  obtain ⟨ys, q', rfl⟩ := h'
  exact ⟨ys, q', rfl⟩

theorem listsMove_place (s : Side) (k : ItemKind) : ListsMove l (l.place e s k) := ⟨_, _, rfl⟩

theorem listsMove_withdraw (s : Side) (k : ItemKind) : ListsMove l (l.withdraw s k) := ⟨_, _, rfl⟩

theorem listsMove_giveBacks (s : Side) (xs : List Item) (l : Library) : ListsMove l (xs.foldl (fun l i => l.giveBack s i) l) := by
  induction xs generalizing l with
  | nil => exact .refl l
  | cons x xs ih => exact ListsMove.trans ⟨_, _, rfl⟩ (ih (l.giveBack s x))

end Lists

section Reads

variable {e : Env} {l : Library} {r : RescueRecord} {xs : List BatchFrame} {c : Copy} {i j : Side}

/-- R170: the rescue read item of one copy's side follows the frames that wait there. -/
def Library.syncRead (e : Env) (l : Library) (r : RescueRecord) (xs : List BatchFrame) (c : Copy) : Library :=
  match l.copySide r c with
  | some s =>
    if xs.any fun x => x.state == .toRead && x.waits == some c then l.place e s .rescueRead
    else l.withdraw s .rescueRead
  | none => l

theorem syncReads_eq : l.syncReads e r xs = (l.syncRead e r xs .source).syncRead e r xs .other := rfl

theorem listsMove_syncRead : ListsMove l (l.syncRead e r xs c) := by
  unfold Library.syncRead
  cases l.copySide r c with
  | none => exact .refl l
  | some s =>
    dsimp only
    split
    · exact listsMove_place ..
    · exact listsMove_withdraw ..

theorem copySide_syncRead (c' : Copy) : (l.syncRead e r xs c).copySide r c' = l.copySide r c' := by
  obtain ⟨ys, q, h⟩ := listsMove_syncRead (e := e) (l := l) (r := r) (xs := xs) (c := c)
  rw [h]
  cases c' <;> rfl

theorem syncRead_listed (hi : l.copySide r c = some i) :
    listed .rescueRead ((l.syncRead e r xs c).items i) = true ↔ ∃ x ∈ xs, x.state = .toRead ∧ x.waits = some c := by
  have hany : (xs.any fun x => x.state == .toRead && x.waits == some c) = true ↔ ∃ x ∈ xs, x.state = .toRead ∧ x.waits = some c := by simp
  unfold Library.syncRead
  rw [hi, ← hany]
  dsimp only
  by_cases h : (xs.any fun x => x.state == .toRead && x.waits == some c) = true
  · rw [if_pos h]
    exact ⟨fun _ => h, fun _ => place_listed ..⟩
  · rw [if_neg h, withdraw_listed]
    exact ⟨nofun, fun h' => absurd h' h⟩

theorem syncRead_other (hi : l.copySide r c ≠ some i) : (l.syncRead e r xs c).items i = l.items i := by
  unfold Library.syncRead
  cases hc : l.copySide r c with
  | none => rfl
  | some s =>
    have hs : s ≠ i := fun h => hi (by rw [hc, h])
    dsimp only
    split
    · exact look_put_ne _ _ hs
    · exact look_put_ne _ _ hs

theorem listsMove_syncWrites (p : Side) : ListsMove l (l.syncWrites e p xs) := by
  unfold Library.syncWrites
  split
  · split
    · exact listsMove_withdraw ..
    · split
      · exact .refl l
      · exact listsMove_place ..
  · exact listsMove_withdraw ..

theorem syncWrites_reads (p : Side) : listed .rescueRead ((l.syncWrites e p xs).items i) = true ↔ listed .rescueRead (l.items i) = true := by
  unfold Library.syncWrites
  split
  · split
    · exact withdraw_listed_iff.trans (by simp)
    · split
      · rfl
      · exact place_listed_iff.trans (by simp)
  · exact withdraw_listed_iff.trans (by simp)

/-- R173: the rescue write item stands once the lowest frame that is to be written is READY. -/
theorem syncWrites_listed (p : Side) {x : BatchFrame} (hx : xs.find? (fun x => x.state != .skipped && x.state != .lost) = some x)
    (hr : x.state ≠ .toRead) (hall : ¬ xs.all BatchFrame.isOver = true) : listed .rescueWrite ((l.syncWrites e p xs).items p) = true := by
  unfold Library.syncWrites
  rw [hx]
  dsimp only
  rw [if_neg hall, if_neg hr]
  exact place_listed ..

end Reads

section Run

variable {e : Env} {l : Library} {r : RescueRecord} {p : Side} {xs : List BatchFrame}

theorem isOver_iff {x : BatchFrame} : x.isOver = true ↔ x.state = .written ∨ x.state = .skipped ∨ x.state = .lost := by
  simp [BatchFrame.isOver, or_assoc]

theorem runRescue_stopped (n : Nat) (hs : l.care.seekDue = false) (hr : l.care.rescue = some r) (ht : r.target = some p)
    (h : r.stopped = true) : l.runRescue e (n + 1) = l := by
  rw [Library.runRescue, if_neg (by rw [hs]; exact Bool.false_ne_true)]
  dsimp only
  rw [hr]
  dsimp only
  rw [ht]
  exact if_pos h

/-- R168, R170, R173, R175: a step of a rescue that goes on. -/
theorem runRescue_batch (n : Nat) (hs : l.care.seekDue = false) (hr : l.care.rescue = some r) (ht : r.target = some p)
    (h : r.stopped = false) (hb : l.care.batch = some xs) : l.runRescue e (n + 1)
      = if xs.all BatchFrame.isOver = true then (l.completeBatch r xs).runRescue e n else (l.syncReads e r xs).syncWrites e p xs := by
  rw [Library.runRescue, if_neg (by rw [hs]; exact Bool.false_ne_true)]
  dsimp only
  rw [hr]
  dsimp only
  rw [ht]
  dsimp only
  rw [if_neg (by rw [h]; exact Bool.false_ne_true), hb]

theorem runRescue_free (n : Nat) (hs : l.care.seekDue = false) (hr : l.care.rescue = some r) (ht : r.target = some p)
    (h : r.stopped = false) (hb : l.care.batch = none) : l.runRescue e (n + 1)
      = if r.copyMark < l.chasedMark r then Library.runRescue e n { l with care := { l.care with batch := some (l.formBatch e r) } }
        else if r.copyMark = l.chasedMark r ∧ l.sourceWriting r = false then (l.switch r p).runRescue e n else l := by
  rw [Library.runRescue, if_neg (by rw [hs]; exact Bool.false_ne_true)]
  dsimp only
  rw [hr]
  dsimp only
  rw [ht]
  dsimp only
  rw [if_neg (by rw [h]; exact Bool.false_ne_true), hb]

/-- R173: the items of a complete batch leave the lists. -/
theorem completeBatch_leaves : (l.completeBatch r xs).care.rescue = some { r with copyMark := r.copyMark + xs.length }
    ∧ (l.completeBatch r xs).care.batch = none
    ∧ (∀ i, ∀ x ∈ (l.completeBatch r xs).items i, x.kind ≠ .rescueRead ∧ x.kind ≠ .rescueWrite)
    ∧ (l.completeBatch r xs).roles = l.roles ∧ (l.completeBatch r xs).books = l.books := by
  refine ⟨rfl, rfl, fun i x hx => ?_, rfl, rfl⟩
  have hitems : (l.completeBatch r xs).items i = (l.items i).filter fun i => !(i.kind == .rescueRead || i.kind == .rescueWrite) := look_map ..
  rw [hitems] at hx
  simpa using (List.mem_filter.mp hx).2

/-- R170, R173: the items of a batch stand where its frames wait and are to be written. -/
theorem syncs_leave : let a := (l.syncReads e r xs).syncWrites e p xs
    a.care = l.care ∧ a.roles = l.roles ∧ a.books = l.books
      ∧ (∀ i, l.copySide r .source = some i → l.copySide r .other ≠ some i →
        (listed .rescueRead (a.items i) = true ↔ ∃ x ∈ xs, x.state = .toRead ∧ x.waits = some .source))
      ∧ (∀ i, l.copySide r .other = some i → l.copySide r .source ≠ some i →
        (listed .rescueRead (a.items i) = true ↔ ∃ x ∈ xs, x.state = .toRead ∧ x.waits = some .other)) := by
  have hmove : ListsMove l ((l.syncReads e r xs).syncWrites e p xs) := by
    rw [syncReads_eq]
    exact (listsMove_syncRead.trans listsMove_syncRead).trans (listsMove_syncWrites p)
  obtain ⟨ys, q, heq⟩ := hmove
  refine ⟨by rw [heq], by rw [heq], by rw [heq], fun i hi hn => ?_, fun i hi hn => ?_⟩
  · rw [syncWrites_reads, syncReads_eq, syncRead_other (by rw [copySide_syncRead]; exact hn)]
    exact syncRead_listed hi
  · rw [syncWrites_reads, syncReads_eq]
    exact syncRead_listed (by rw [copySide_syncRead]; exact hi)

end Run

end Sys2Proof.Machine
end

section
-- One declaration after the other: the stacks of the threads that wait for each other count against the check's memory limit.
set_option Elab.async false
namespace Sys2Proof.Machine

/-! # The switch -/

section Joined

variable {x y : Item} {xs ys : List Item}

theorem joined_old (h : y ∈ ys) : y ∈ xs.foldl (fun ys i => joinItem i ys) ys := by
  induction xs generalizing ys with
  | nil => exact h
  | cons x xs ih => exact ih (mem_joinItem_of_mem h)

theorem mem_joinItem_from (h : y ∈ joinItem x ys) : y = x ∨ y ∈ ys := by
  unfold joinItem at h
  split at h
  · exact .inr h
  · exact mem_insertItem.mp h

theorem joined_from (h : y ∈ xs.foldl (fun ys i => joinItem i ys) ys) : y ∈ ys ∨ y ∈ xs := by
  induction xs generalizing ys with
  | nil => exact .inl h
  | cons x xs ih =>
    rcases ih h with h | h
    · exact (mem_joinItem_from h).elim (fun h => .inr (h ▸ List.mem_cons_self)) .inl
    · exact .inr (List.mem_cons_of_mem _ h)

theorem joined_listed (h : x ∈ xs) : listed x.kind (xs.foldl (fun ys i => joinItem i ys) ys) = true := by
  induction xs generalizing ys with
  | nil => cases h
  | cons z xs ih =>
    rcases List.mem_cons.mp h with rfl | h
    · obtain ⟨w, hw, hk⟩ := listed_iff.mp (joinItem_listed x ys).1
      exact listed_iff.mpr ⟨w, joined_old (ys := joinItem x ys) hw, hk⟩
    · exact ih h

/-- R127: an item that alone is of its kind keeps its placement time where it joins. -/
theorem joined_alone (h : x ∈ xs) (hx : ∀ y ∈ xs, y.kind = x.kind → y = x) (hy : ∀ y ∈ ys, y.kind ≠ x.kind) :
    x ∈ xs.foldl (fun ys i => joinItem i ys) ys := by
  induction xs generalizing ys with
  | nil => cases h
  | cons z xs ih =>
    by_cases hz : z.kind = x.kind
    · obtain rfl := hx z List.mem_cons_self hz
      refine joined_old (ys := joinItem z ys) ?_
      rcases (joinItem_listed z ys).2 with hl | hl
      · obtain ⟨y, hy', hk⟩ := listed_iff.mp hl
        exact absurd hk (hy y hy')
      · exact hl
    · have h' : x ∈ xs := (List.mem_cons.mp h).resolve_left fun h => hz (by rw [h])
      refine ih h' (fun y hy' => hx y (List.mem_cons_of_mem _ hy')) fun y hy' => ?_
      rcases mem_joinItem_from hy' with rfl | hy'
      · exact hz
      · exact hy y hy'

theorem giveBacks_items (l : Library) (s : Side) (xs : List Item) :
    (xs.foldl (fun l i => l.giveBack s i) l).items s = xs.foldl (fun ys i => joinItem i ys) (l.items s)
      ∧ ∀ i, i ≠ s → (xs.foldl (fun l i => l.giveBack s i) l).items i = l.items i := by
  induction xs generalizing l with
  | nil => exact ⟨rfl, fun _ _ => rfl⟩
  | cons x xs ih =>
    obtain ⟨h1, h2⟩ := ih (l.giveBack s x)
    refine ⟨h1.trans ?_, fun i hi => (h2 i hi).trans (look_put_ne _ _ (Ne.symm hi))⟩
    rw [show (l.giveBack s x).items s = joinItem x (l.items s) from look_put_same ..]
    rfl

end Joined

section Windows

variable {l : Library} {b : Book} {q p : Side} {t : Tag}

/-- R73: the windows of one request that wait on the source wait on the target. -/
def Library.moveWindows (l : Library) (b : Book) (q p : Side) (t : Tag) : Library :=
  if (l.windows t).any fun w => w.book == b && w.item == some q then l.setWindows t ((l.windows t).map (Window.moveItem b q p)) else l

theorem moveWindows_front : l.moveWindows b q p t = { l with front := (l.moveWindows b q p t).front } := by
  unfold Library.moveWindows
  split
  · unfold Library.setWindows
    split <;> rfl
  · rfl

theorem moveWindows_windows (u : Tag) : (l.moveWindows b q p t).windows u
    = if u = t then (l.windows u).map (Window.moveItem b q p) else l.windows u := by
  unfold Library.moveWindows
  by_cases h : ((l.windows t).any fun w => w.book == b && w.item == some q) = true
  · rw [if_pos h]
    by_cases hu : u = t
    · subst hu
      rw [if_pos rfl]
      obtain ⟨w, hw, -⟩ := List.any_eq_true.mp h
      exact windows_setWindows (List.ne_nil_of_mem hw) _
    · rw [if_neg hu]
      exact windows_of_entry (entry_setWindows hu _)
  · rw [if_neg h]
    split
    next hu =>
      subst hu
      refine (List.map_congr_left (g := id) fun w hw => if_neg fun hb => h ?_).trans (List.map_id _) |>.symm
      exact List.any_eq_true.mpr ⟨w, hw, by simpa using hb⟩
    · rfl

theorem moveAllWindows_windows (ts : List Tag) (hts : ts.Nodup) (l : Library) (u : Tag) :
    (ts.foldl (fun l t => l.moveWindows b q p t) l).windows u
      = if u ∈ ts then (l.windows u).map (Window.moveItem b q p) else l.windows u := by
  induction ts generalizing l with
  | nil => exact (if_neg List.not_mem_nil).symm
  | cons t ts ih =>
    obtain ⟨ht, hts⟩ := List.nodup_cons.mp hts
    rw [List.foldl_cons, ih hts, moveWindows_windows]
    by_cases hu : u = t
    · subst hu
      rw [if_neg ht, if_pos rfl, if_pos List.mem_cons_self]
    · rw [if_neg hu]
      by_cases hm : u ∈ ts
      · rw [if_pos hm, if_pos (List.mem_cons_of_mem _ hm)]
      · rw [if_neg hm, if_neg (by rw [List.mem_cons]; exact not_or.mpr ⟨hu, hm⟩)]

theorem moveAllWindows_front (ts : List Tag) (l : Library) :
    ∃ f, ts.foldl (fun l t => l.moveWindows b q p t) l = { l with front := f } := by
  induction ts generalizing l with
  | nil => exact ⟨_, rfl⟩
  | cons t ts ih =>
    obtain ⟨f, hf⟩ := ih (l.moveWindows b q p t)
    refine ⟨f, ?_⟩
    rw [List.foldl_cons, hf, moveWindows_front]

theorem moveItems_eq (l : Library) (b : Book) (q p : Side) : l.moveItems b q p = allTags.foldl (fun l t => l.moveWindows b q p t)
    (((l.items q).filter fun i => l.movesWith b i.kind).foldl (fun l i => l.giveBack p i)
      (l.setItems q ((l.items q).filter fun i => !l.movesWith b i.kind))) := rfl

/-- R73, R175: the windows of the book that wait on the source wait on the target, and no other window changes. -/
theorem moveItems_windows (t : Tag) {w : Window} (hw : w ∈ l.windows t) :
    (w.book = b ∧ w.item = some q → { w with item := some p } ∈ (l.moveItems b q p).windows t)
      ∧ (w.book ≠ b ∨ w.item ≠ some q → w ∈ (l.moveItems b q p).windows t) := by
  obtain ⟨m, hm⟩ : ∃ m, ((l.items q).filter fun i => l.movesWith b i.kind).foldl (fun l i => l.giveBack p i)
      (l.setItems q ((l.items q).filter fun i => !l.movesWith b i.kind)) = m := ⟨_, rfl⟩
  have hfront : m.front = l.front := by
    obtain ⟨ys, x, h⟩ := listsMove_giveBacks p ((l.items q).filter fun i => l.movesWith b i.kind)
      (l.setItems q ((l.items q).filter fun i => !l.movesWith b i.kind))
    rw [← hm, h]
    rfl
  have hwindows : (l.moveItems b q p).windows t = (l.windows t).map (Window.moveItem b q p) := by
    rw [moveItems_eq, hm, moveAllWindows_windows allTags (List.nodup_finRange 16), if_pos (by simp [allTags]), windows_of_front hfront]
  rw [hwindows]
  refine ⟨fun h => List.mem_map.mpr ⟨w, hw, if_pos h⟩, fun h => List.mem_map.mpr ⟨w, hw, if_neg fun hn => ?_⟩⟩
  exact h.elim (fun h => h hn.1) fun h => h hn.2

/-- R175: the items of a book that a switch moves stand on the target's list, with their placement times kept; no other item changes. -/
theorem moveItems_items (hpq : p ≠ q) :
    (∀ x ∈ l.items q, l.movesWith b x.kind = true → listed x.kind ((l.moveItems b q p).items p) = true
      ∧ listed x.kind ((l.moveItems b q p).items q) = false
      ∧ ((∀ y ∈ l.items q, y.kind = x.kind → y = x) → (∀ y ∈ l.items p, y.kind ≠ x.kind) → x ∈ (l.moveItems b q p).items p))
    ∧ (∀ x ∈ l.items q, ¬ l.movesWith b x.kind = true → x ∈ (l.moveItems b q p).items q)
    ∧ (∀ x ∈ l.items p, x ∈ (l.moveItems b q p).items p)
    ∧ (∀ x ∈ (l.moveItems b q p).items p, x ∈ l.items p ∨ (x ∈ l.items q ∧ l.movesWith b x.kind = true))
    ∧ (∀ x ∈ (l.moveItems b q p).items q, x ∈ l.items q) ∧ (∀ i, i ≠ p → i ≠ q → (l.moveItems b q p).items i = l.items i) := by
  obtain ⟨g1, g2⟩ := giveBacks_items (l.setItems q ((l.items q).filter fun i => !l.movesWith b i.kind)) p
    ((l.items q).filter fun i => l.movesWith b i.kind)
  have hitems (i : Side) : (l.moveItems b q p).items i = (((l.items q).filter fun i => l.movesWith b i.kind).foldl (fun l i => l.giveBack p i)
      (l.setItems q ((l.items q).filter fun i => !l.movesWith b i.kind))).items i := by
    rw [moveItems_eq]
    generalize ((l.items q).filter fun i => l.movesWith b i.kind).foldl (fun l i => l.giveBack p i)
      (l.setItems q ((l.items q).filter fun i => !l.movesWith b i.kind)) = m
    obtain ⟨f, hf⟩ := moveAllWindows_front (b := b) (q := q) (p := p) allTags m
    rw [hf]
    rfl
  have hp : (l.moveItems b q p).items p = ((l.items q).filter fun i => l.movesWith b i.kind).foldl (fun ys i => joinItem i ys) (l.items p) := by
    rw [hitems, g1, Library.setItems_items, if_neg (Ne.symm hpq)]
  have hq : (l.moveItems b q p).items q = (l.items q).filter fun i => !l.movesWith b i.kind := by
    rw [hitems, g2 q (Ne.symm hpq), Library.setItems_items_same]
  rw [hp, hq]
  refine ⟨fun x hx hmove => ⟨joined_listed (List.mem_filter.mpr ⟨hx, hmove⟩), ?_, fun h1 h2 => ?_⟩, fun x hx hn => ?_, fun x hx => joined_old hx,
    fun x hx => ?_, fun x hx => (List.mem_filter.mp hx).1, fun i hip hiq => ?_⟩
  · rw [Bool.eq_false_iff, Ne, listed_iff]
    rintro ⟨y, hy, hk⟩
    have := (List.mem_filter.mp hy).2
    rw [hk, hmove] at this
    cases this
  · exact joined_alone (List.mem_filter.mpr ⟨hx, hmove⟩) (fun y hy => h1 y (List.mem_filter.mp hy).1) h2
  · exact List.mem_filter.mpr ⟨hx, by simpa using hn⟩
  · exact (joined_from hx).imp id fun h => ⟨(List.mem_filter.mp h).1, (List.mem_filter.mp h).2⟩
  · rw [hitems, g2 i hip, Library.setItems_items, if_neg (Ne.symm hiq)]

/-- R175: which items move. -/
theorem movesWith_iff {x : Item} : l.movesWith b x.kind = true ↔ (∃ t f, x.kind = .fetch t b f)
    ∨ (∃ t y g, x.kind = .file t ∧ l.fileOf t = some (y, g) ∧ g.book = b) ∨ x.kind = .twinWrite b ∨ x.kind = .twinReread b := by
  unfold Library.movesWith
  cases hk : x.kind with
  | fetch t b' f => simp
  | file t =>
    cases hf : l.fileOf t with
    | none => simp [hf]
    | some y => simp [hf]; exact ⟨fun h => ⟨y.1, y.2, rfl, h⟩, fun ⟨_, g, he, h⟩ => by rw [he]; exact h⟩
  | twinWrite b' => simp
  | twinReread b' => simp
  | rescueRead | rescueWrite | patrol => simp

theorem moveItems_rest : ∃ xs q' f, l.moveItems b q p = { l with front := f, scheduler := { l.scheduler with lists := xs, quiet := q' } } := by
  obtain ⟨ys, x, h⟩ := ListsMove.trans (l := l) ⟨_, _, rfl⟩ (listsMove_giveBacks p ((l.items q).filter fun i => l.movesWith b i.kind)
    (l.setItems q ((l.items q).filter fun i => !l.movesWith b i.kind)))
  obtain ⟨f, hf⟩ := moveAllWindows_front (b := b) (q := q) (p := p) allTags
    (((l.items q).filter fun i => l.movesWith b i.kind).foldl (fun l i => l.giveBack p i)
      (l.setItems q ((l.items q).filter fun i => !l.movesWith b i.kind)))
  exact ⟨ys, x, f, by rw [moveItems_eq, hf, h]⟩

end Windows

end Sys2Proof.Machine
end

section
-- One declaration after the other: the stacks of the threads that wait for each other count against the check's memory limit.
set_option Elab.async false
namespace Sys2Proof.Machine

section Switch

variable {e : Env} {l : Library} {r : RescueRecord} {p : Side}

/-- R175: the switch, the moves of items and windows apart. -/
theorem switch_eq (l : Library) (r : RescueRecord) (p : Side) : ∃ m : Library, (l.switchMaps r p).moveItems r.book r.source p = m
    ∧ l.switch r p = m.setTwin r.book (if r.ofTwin then { m.twin r.book with state := if (m.twin r.book).state = .paused then .working else (m.twin r.book).state }
      else { m.twin r.book with failed := none }) := ⟨_, rfl, rfl⟩

/-- R175: what the switch does to the sides, the book and the rescue. -/
theorem switch_leaves (hp : p ≠ r.source) : let a := l.switch r p
    a.role p = (if r.ofTwin = true then .twin r.book else .primary r.book) ∧ a.role r.source = .retired r.book
      ∧ (∀ i, i ≠ p → i ≠ r.source → a.role i = l.role i)
      ∧ a.book r.book = (l.book r.book).switched r.ofTwin p ∧ (∀ c, c ≠ r.book → a.book c = l.book c)
      ∧ a.care.rescue = none ∧ a.care.batch = none ∧ a.care.queue = l.care.queue ∧ a.care.seekDue = true ∧ a.care.patrolDue = true
      ∧ a.health p = .zero ∧ (∀ i, i ≠ p → a.health i = l.health i)
      ∧ (∀ i, a.items i = ((l.switchMaps r p).moveItems r.book r.source p).items i)
      ∧ (∀ t, a.windows t = ((l.switchMaps r p).moveItems r.book r.source p).windows t)
      ∧ a.twin r.book = (if r.ofTwin then { l.twin r.book with state := if (l.twin r.book).state = .paused then .working else (l.twin r.book).state }
        else { l.twin r.book with failed := none }) := by
  obtain ⟨m, hm, heq⟩ := switch_eq l r p
  obtain ⟨xs, q, f, hmove⟩ := moveItems_rest (l := l.switchMaps r p) (b := r.book) (q := r.source) (p := p)
  have hm' := hm.symm.trans hmove
  have hrole (i : Side) : m.role i = if r.source = i then .retired r.book
      else if p = i then (if r.ofTwin then .twin r.book else .primary r.book) else l.role i := by
    rw [hm']
    exact (Library.setRole_role ..).trans (congrArg (fun x => if r.source = i then Role.retired r.book else x) (Library.setRole_role ..))
  have hbook (c : Book) : m.book c = if r.book = c then (l.book r.book).switched r.ofTwin p else l.book c := by
    rw [hm']
    exact Library.setBook_book ..
  have hhealth (i : Side) : m.health i = if p = i then .zero else l.health i := by
    rw [hm']
    exact Library.setHealth_health ..
  have htwin : m.twin r.book = l.twin r.book := by rw [hm']; rfl
  have hcare : m.care = (l.switchMaps r p).care := by rw [hm']
  dsimp only
  rw [hm, heq, htwin]
  refine ⟨?_, ?_, fun i h1 h2 => ?_, ?_, fun c hc => ?_, ?_, ?_, ?_, ?_, ?_, ?_, fun i hi => ?_, fun i => rfl, fun t => rfl, look_put_same ..⟩
  · exact (hrole p).trans ((if_neg (Ne.symm hp)).trans (if_pos rfl))
  · exact (hrole _).trans (if_pos rfl)
  · exact (hrole i).trans ((if_neg (Ne.symm h2)).trans (if_neg (Ne.symm h1)))
  · exact (hbook _).trans (if_pos rfl)
  · exact (hbook c).trans (if_neg (Ne.symm hc))
  · show m.care.rescue = none
    rw [hcare]
    rfl
  · show m.care.batch = none
    rw [hcare]
    rfl
  · show m.care.queue = l.care.queue
    rw [hcare]
    rfl
  · show m.care.seekDue = true
    rw [hcare]
    rfl
  · show m.care.patrolDue = true
    rw [hcare]
    rfl
  · exact (hhealth p).trans (if_pos rfl)
  · exact (hhealth i).trans (if_neg (Ne.symm hi))

theorem copies_eq (x : BatchFrame) : l.copies r x
    = if r.ofTwin = true ∨ ((l.otherSide r.book r.source).isSome = true ∧ x.frame < (l.book r.book).twinMark)
      then [.source, .other] else [.source] := by
  unfold Library.copies
  simp only [Bool.or_eq_true, Bool.and_eq_true, decide_eq_true_iff]

/-- R171: the turn of a frame to its next copy. -/
theorem turnFrame_turns (e : Env) (l : Library) (r : RescueRecord) (x : BatchFrame) :
    let untried := (l.copies r x).filter fun c => !x.failedOn c
    let y := l.turnFrame e r x
    (∀ cs c ds, untried = cs ++ c :: ds → l.copyAvailable e r c = true → (∀ c' ∈ cs, l.copyAvailable e r c' = false) →
      y = { x with waits := some c })
    ∧ ((∀ c ∈ untried, l.copyAvailable e r c = false) →
      (∀ h, l.held r.book x.frame = some h → y.state = .ready ∧ y.waits = none ∧ y.data.length = x.data.length
        ∧ ∀ i : Nat, (∀ z, x.data[i]? = some (some z) → y.data[i]? = some (some z))
          ∧ (x.data[i]? = some none → y.data[i]? = some (some ((h.data[i]?).getD Sector.zeros))))
      ∧ (l.held r.book x.frame = none → (∀ c, untried.head? = some c → y = { x with waits := some c })
        ∧ (untried = [] → y.state = .lost))) := by
  dsimp only
  refine ⟨fun cs c ds hu hc hcs => turnFrame_waits hu hc hcs, fun h => ⟨fun q hq => ?_, fun hq => ⟨fun c hc => ?_, fun hu => ?_⟩⟩⟩
  · rw [turnFrame_away h, hq]
    exact fillFrom_supplies x q
  · obtain ⟨cs, hcs⟩ := List.head?_eq_some_iff.mp hc
    rw [turnFrame_away h, hq, hcs]
  · rw [turnFrame_away h, hq, hu]

theorem rescueReaction_examines (e : Env) (l : Library) : let m := l.runRescue e 1100
    l.rescueReaction e = (allBooks.filter fun b => decide ((l.book b).primary ≠ (m.book b).primary ∨ (l.book b).twin ≠ (m.book b).twin)).foldl
      (fun a b => a.examine e b) m := by
  unfold Library.rescueReaction Library.examineBooks
  generalize l.runRescue e 1100 = m
  refine congrArg (fun bs => List.foldl (fun a b => Library.examine e a b) m bs) (List.filter_congr fun b _ => ?_)
  rw [Bool.eq_iff_iff]
  simp [Library.switched]

end Switch

/-- Settles O42: the begin, the wait, the batches, the turns, the switch and the examinations after it. -/
theorem rescueCourse : Obligations.RescueCourse := by
  refine ⟨fun l b q p => findTarget_iff, fun e l xs ys q b p hr hq hx hb hp => ?_, fun e l q qs hr hq hx => ?_, fun e l r hr ht => ⟨fun p hp => ?_, fun hp => ?_⟩,
    fun e l r => ⟨?_, fun x hx => ?_⟩, fun e l r x => ?_,
    fun e l r p n hs hr ht => ⟨fun h => runRescue_stopped n hs hr ht h, fun h => ⟨fun xs hb hover => ?_, fun xs hb hopen => ?_, fun hb => ⟨fun hlt => ?_, fun heq hw => ?_, fun heq hw => ?_⟩⟩⟩,
    fun e l r p hp => ?_, fun e l => rescueReaction_examines e l⟩
  · have hf := firstRescue_eq hq hx hb hp
    obtain ⟨h1, h2, h3, h4, h5, h6, h7⟩ := takeTarget_leaves l.sought p b
    have hqp : q ≠ p := fun h => by
      rw [h, (findTarget_iff.mp hp).1] at hb
      cases hb
    dsimp only
    rw [seekRescue_begins hr hf]
    refine ⟨?_, rfl, rfl, h1, h2, h3, h4, h5, h6⟩
    dsimp only
    rw [h2 q hqp]
    rfl
  · have hf := firstRescue_none hx
    obtain ⟨h1, h2, h3, h4, h5, h6⟩ := waitRescue_leaves e l.sought (l.role q).book? q
    dsimp only
    rw [seekRescue_waits hr hq hf]
    exact ⟨h1.trans hr, h3, h2, h4, h5, h6⟩
  · obtain ⟨h1, h2, h3, h4, h5, h6, h7⟩ := takeTarget_leaves l.sought p r.book
    rw [seekRescue_refinds hr ht hp]
    exact ⟨rfl, rfl, h7, h1, h2, h3, h4, h5, h6⟩
  · obtain ⟨h1, h2, h3, h4, h5, h6⟩ := waitRescue_leaves e l.sought (some r.book) r.source
    rw [seekRescue_rewaits hr ht hp]
    exact ⟨h1.trans hr, h2, h3, h4, h5, h6⟩
  · rw [formBatch_eq, List.map_map]
    refine (List.map_congr_left (g := id) fun f _ => ?_).trans (List.map_id _)
    show BatchFrame.frame (if (e.frame r.book f).filed = true then _ else _) = f
    split
    · exact (l.turnFrame_rest e r _).1
    · rfl
  · rw [formBatch_eq] at hx
    obtain ⟨f, -, rfl⟩ := List.mem_map.mp hx
    by_cases hf : (e.frame r.book f).filed = true
    · rw [if_pos hf]
      obtain ⟨h1, h2, h3, -⟩ := l.turnFrame_rest e r (freshFrame f (e.frame r.book f).length)
      obtain ⟨k1, k2⟩ := turnFrame_fresh (e := e) (l := l) (r := r) (x := freshFrame f (e.frame r.book f).length) rfl rfl
      have hlen : (l.turnFrame e r (freshFrame f (e.frame r.book f).length)).data.length = (e.frame r.book f).length :=
        k2.trans List.length_replicate
      rw [h1]
      refine ⟨h3, fun hn => ?_, fun _ => ⟨rfl, k1, h2, hlen.trans h2.symm⟩⟩
      rw [show (e.frame r.book f).filed = false from hn] at hf
      cases hf
    · rw [if_neg hf]
      exact ⟨rfl, fun _ => ⟨rfl, rfl⟩, fun hn => absurd hn hf⟩
  · dsimp only
    rw [← copies_eq]
    exact turnFrame_turns e l r x
  · refine ⟨?_, completeBatch_leaves⟩
    rw [runRescue_batch n hs hr ht h hb]
    exact if_pos (List.all_eq_true.mpr fun x hx => isOver_iff.mpr (hover x hx))
  · have hall : ¬ xs.all BatchFrame.isOver = true := fun hall => by
      obtain ⟨x, hx, h1, h2, h3⟩ := hopen
      rcases isOver_iff.mp (List.all_eq_true.mp hall x hx) with h | h | h
      · exact h1 h
      · exact h2 h
      · exact h3 h
    dsimp only
    rw [runRescue_batch n hs hr ht h hb, if_neg hall]
    obtain ⟨h1, h2, h3, h4, h5⟩ := syncs_leave (e := e) (l := l) (r := r) (p := p) (xs := xs)
    exact ⟨h1, h2, h3, h4, h5, fun x hx hn => syncWrites_listed p hx hn hall⟩
  · rw [runRescue_free n hs hr ht h hb, if_pos hlt]
  · rw [runRescue_free n hs hr ht h hb, if_neg (by omega), if_pos ⟨heq, hw⟩]
  · rw [runRescue_free n hs hr ht h hb, if_neg (by omega), if_neg fun hn => by rw [hw] at hn; cases hn.2]
  · obtain ⟨a, ha⟩ : ∃ a, l.switch r p = a := ⟨_, rfl⟩
    obtain ⟨h1, h2, h3, h4, h5, h6, h7, h8, h9, h10, h11, h12, h13, h14, h15⟩ := switch_leaves (l := l) hp
    dsimp only
    rw [ha] at *
    obtain ⟨k1, k2, k3, k4, k5, k6⟩ := moveItems_items (l := l.switchMaps r p) (b := r.book) hp
    simp only [← h13, movesWith_iff] at k1 k2 k3 k4 k5 k6
    have hbook : (a.book r.book).primary = (if r.ofTwin = true then (l.book r.book).primary else some p)
        ∧ (a.book r.book).twin = (if r.ofTwin = true then some p else (l.book r.book).twin) ∧ (a.book r.book).filing = (l.book r.book).filing := by
      rw [h4]
      cases r.ofTwin <;> exact ⟨rfl, rfl, rfl⟩
    refine ⟨h1, h2, h3, hbook.1, hbook.2.1, hbook.2.2, h5, h6, h7, h8, h9, h10, h11, h12, ⟨k1, k2, k3, k4, k5, k6⟩, fun t w hw => ?_, fun hof => ?_, fun hof => ?_,
      fun hof _ => ?_⟩
    · rw [h14]
      exact moveItems_windows (l := l.switchMaps r p) t hw
    · rw [h15, hof]
      rfl
    · have hstate : (a.twin r.book).state ≠ .paused := by
        rw [h15, hof]
        show (if (l.twin r.book).state = .paused then TwinState.working else (l.twin r.book).state) ≠ .paused
        split
        · decide
        next hn => exact hn
      have hfailed : (a.twin r.book).failed = (l.twin r.book).failed := by rw [h15, hof]; rfl
      rw [← hfailed]
      exact (examine_judges e a r.book (s := p) (by rw [hbook.2.1, hof]; exact if_pos rfl) hstate).2.1
    · rw [h15, hof]
      rfl

end Sys2Proof.Machine
end

section
-- One declaration after the other: the stacks of the threads that wait for each other count against the check's memory limit.
set_option Elab.async false
namespace Sys2Proof.Machine

/-! # What start-up leaves -/

section StartKeeps

variable {e : Env} {l m n : Library}

/-- R107: what start-up keeps of a drive: its counts and its times; and no drive becomes FAILED. -/
structure DriveRecord.CountsKept (x y : DriveRecord) : Prop where
  corrected : y.corrected = x.corrected
  uncorrectable : y.uncorrectable = x.uncorrectable
  commandFailures : y.commandFailures = x.commandFailures
  failures : y.failures = x.failures
  lastUse : y.lastUse = x.lastUse
  mountTime : y.mountTime = x.mountTime
  failed : y.state = .failed → x.state = .failed

theorem DriveRecord.KeptTo.counts {x y : DriveRecord} (h : x.KeptTo y) : x.CountsKept y :=
  ⟨h.corrected, h.uncorrectable, h.commandFailures, h.failures, h.lastUse, h.mountTime, h.failed⟩

theorem DriveRecord.CountsKept.trans {x y z : DriveRecord} (h : x.CountsKept y) (k : y.CountsKept z) : x.CountsKept z :=
  ⟨k.corrected.trans h.corrected, k.uncorrectable.trans h.uncorrectable, k.commandFailures.trans h.commandFailures,
    k.failures.trans h.failures, k.lastUse.trans h.lastUse, k.mountTime.trans h.mountTime, h.failed ∘ k.failed⟩

/-- R183: what every change of steps 5 to 11, and what the blocks do afterwards, keeps. -/
structure StartKeeps (l m : Library) : Prop where
  free : (∀ t, l.entry t = none) → ∀ t, m.entry t = none
  state : ∀ k, (m.book k).state = (l.book k).state
  filing : ∀ k, (m.book k).filing = (l.book k).filing
  twinMark : ∀ k, (l.book k).twinMark ≤ (m.book k).twinMark
  twinTop : ∀ k, (l.book k).twinMark ≤ (l.book k).filing → (m.book k).twinMark ≤ (m.book k).filing
  hold : m.buffer.hold = l.buffer.hold
  escalation : m.buffer.escalation = l.buffer.escalation
  presence : m.picker.presence = l.picker.presence
  drive : ∀ d, (l.drive d).CountsKept (m.drive d)
  first : ∀ r, l.log.first = some r → m.log.first = some r
  later : ∀ k, KindSet.has l.log.later k = true → KindSet.has m.log.later k = true
  laterCount : l.log.laterCount ≤ 255 → l.log.laterCount ≤ m.log.laterCount ∧ m.log.laterCount ≤ 255
  out : ∃ os, m.out = l.out ++ os

theorem KeptMost.starts (h : KeptMost l m) : StartKeeps l m where
  free hf t := h.free t (hf t)
  state := h.state
  filing := h.filing
  twinMark := h.twinMark
  twinTop := h.twinTop
  hold := h.hold
  escalation := h.escalation
  presence := h.presence
  drive d := (h.drive d).counts
  first := h.first
  later := h.later
  laterCount := h.laterCount
  out := h.out

theorem StartKeeps.refl (l : Library) : StartKeeps l l :=
  ⟨id, fun _ => rfl, fun _ => rfl, fun _ => le_refl _, fun _ => id, rfl, rfl, rfl, fun _ => ⟨rfl, rfl, rfl, rfl, rfl, rfl, id⟩,
    fun _ => id, fun _ => id, fun h => ⟨le_refl _, h⟩, ⟨[], (List.append_nil _).symm⟩⟩

theorem StartKeeps.trans (h : StartKeeps l m) (k : StartKeeps m n) : StartKeeps l n where
  free := k.free ∘ h.free
  state i := (k.state i).trans (h.state i)
  filing i := (k.filing i).trans (h.filing i)
  twinMark i := (h.twinMark i).trans (k.twinMark i)
  twinTop i := k.twinTop i ∘ h.twinTop i
  hold := k.hold.trans h.hold
  escalation := k.escalation.trans h.escalation
  presence := k.presence.trans h.presence
  drive d := (h.drive d).trans (k.drive d)
  first r := k.first r ∘ h.first r
  later i := k.later i ∘ h.later i
  laterCount hn := ⟨(h.laterCount hn).1.trans (k.laterCount (h.laterCount hn).2).1, (k.laterCount (h.laterCount hn).2).2⟩
  out := by
    obtain ⟨os, ho⟩ := h.out
    obtain ⟨qs, hq⟩ := k.out
    exact ⟨os ++ qs, by rw [hq, ho, List.append_assoc]⟩

/-- R177: a removal records CARTRIDGE_MISSING or nothing. -/
theorem removal_log (e : Env) (l : Library) (k : Slot) : (l.removal e k).log = l.log ∨ ∃ r, (l.removal e k).log = (l.fault e r).log := by
  have hlog : (l.removal e k).log = ((l.removed k).faultMissing e k none).log := by
    rw [removal_eq]
    split
    · rw [stopRescue_rest]
    · rfl
  obtain ⟨rs, due, heq, -⟩ := removed_rest l k
  have hl : (l.removed k).log = l.log := by rw [heq]
  rw [hlog]
  unfold Library.faultMissing
  split
  · exact .inr ⟨_, congrArg (fun g : FaultLog => g.record e.mask _) hl⟩
  · exact .inl hl

theorem starts_removal (e : Env) (l : Library) (k : Slot) : StartKeeps l (l.removal e k) := by
  obtain ⟨ds, c, ls, b, g, heq⟩ := removal_rest e l k
  have hdrive := removal_drive e l k
  have hlog := removal_log e l k
  generalize l.removal e k = m at heq hdrive hlog
  obtain ⟨h1, h2, h3⟩ : (∀ r, l.log.first = some r → m.log.first = some r)
      ∧ (∀ k, KindSet.has l.log.later k = true → KindSet.has m.log.later k = true)
      ∧ (l.log.laterCount ≤ 255 → l.log.laterCount ≤ m.log.laterCount ∧ m.log.laterCount ≤ 255) := by
    rcases hlog with hlog | ⟨r, hlog⟩
    · rw [hlog]
      exact ⟨fun _ h => h, fun _ h => h, fun h => ⟨le_refl _, h⟩⟩
    · rw [hlog]
      have hk := kept_fault e l r
      exact ⟨hk.first, hk.later, hk.laterCount⟩
  refine ⟨?_, ?_, ?_, ?_, ?_, ?_, ?_, ?_, fun d => ?_, h1, h2, h3, ?_⟩
  · rw [heq]; exact id
  · rw [heq]; exact fun _ => rfl
  · rw [heq]; exact fun _ => rfl
  · rw [heq]; exact fun _ => le_refl _
  · rw [heq]; exact fun _ => id
  · rw [heq]
  · rw [heq]
  · rw [heq]
  · obtain ⟨v, hv⟩ := hdrive d
    rw [hv]
    exact ⟨rfl, rfl, rfl, rfl, rfl, rfl, id⟩
  · rw [heq]; exact ⟨[], (List.append_nil _).symm⟩

theorem starts_insertion (l : Library) (k : Slot) : StartKeeps l (l.insertion k) := by
  obtain ⟨rs, hs, r, heq, -⟩ := insertion_rest l (i := k)
  rw [heq]
  exact { StartKeeps.refl l with }

theorem starts_comparePresence (e : Env) (l : Library) (k : Slot) : StartKeeps l (l.comparePresence e k) := by
  unfold Library.comparePresence
  split
  · split
    · exact .refl l
    · exact starts_removal e l k
  · split
    · exact starts_insertion l k
    · exact .refl l
  · exact .refl l

theorem starts_resetIntake (l : Library) : StartKeeps l l.resetIntake where
  free := id
  state k := by rw [Library.resetIntake_book]
  filing k := by rw [Library.resetIntake_book]
  twinMark k := by rw [Library.resetIntake_book]
  twinTop k h := by rw [Library.resetIntake_book]; exact h
  hold := rfl
  escalation := rfl
  presence := rfl
  drive := (StartKeeps.refl l).drive
  first _ := id
  later _ := id
  laterCount h := ⟨le_refl _, h⟩
  out := ⟨[], (List.append_nil _).symm⟩

theorem starts_resetDrive (e : Env) (l : Library) (d : Drive) : StartKeeps l (l.resetDrive e d) := by
  unfold Library.resetDrive
  split
  · refine { StartKeeps.refl l with drive := fun c => ?_ }
    rw [Library.setDrive_drive]
    split
    next h =>
      subst h
      exact ⟨rfl, rfl, rfl, rfl, rfl, rfl, fun h => by cases h⟩
    · exact (StartKeeps.refl l).drive c
  · exact .refl l

theorem kept_missUnconfigured (e : Env) (l : Library) (k : Slot) : Kept e l (l.missUnconfigured e k) := by
  unfold Library.missUnconfigured Library.faultMissing
  split
  · split
    · exact .refl e l
    · split
      · exact kept_fault e l _
      · exact .refl e l
  · exact .refl e l

theorem kept_returnHeld (e : Env) (l : Library) (q : ReturnReason) : Kept e l (l.returnHeld q) := by
  unfold Library.returnHeld
  split
  · exact .of_same
  · exact .refl e l

theorem kept_startCare (e : Env) (l : Library) : Kept e l (l.startCare e) := by
  have hk : Kept e l (((l.callRescue.callPatrol).rescueReaction e).examineCursor e) :=
    (((kept_callRescue e l).trans (kept_callPatrol e _)).trans (kept_rescueReaction e _)).trans (kept_examineCursor e _)
  unfold Library.startCare Library.callPlacement
  split
  · exact hk
  · exact hk.trans (kept_callDecision e _)

theorem LastChange.starts {warning : Bool} {c : State → State} (h : LastChange warning c) (s : State) : StartKeeps s.lib (c s).lib := by
  cases h with
  | compare k => exact starts_comparePresence s.env s.lib k
  | intake => exact starts_resetIntake s.lib
  | drive d => exact starts_resetDrive s.env s.lib d
  | miss k => exact (kept_missUnconfigured s.env s.lib k).toKeptMost.starts
  | held => exact (kept_returnHeld s.env s.lib .startUp).toKeptMost.starts
  | examine b => exact (keptBut_examine s.env s.lib b).toKeptMost.starts
  | care => exact (kept_startCare s.env s.lib).toKeptMost.starts
  | hold =>
    dsimp only
    split
    · exact (kept_fault s.env s.lib (FaultRecord.of s.env .powerWarning)).toKeptMost.starts
    · exact .refl s.lib

theorem take_lastChanges_starts {warning : Bool} {cs : List (State → State)} (h : ∀ c ∈ cs, c ∈ lastChanges warning) (s : State) :
    StartKeeps s.lib (s.take cs).lib :=
  State.take_keeps (P := fun u => StartKeeps s.lib u.lib) (fun c hc u hu => hu.trans ((lastChange_of_mem (h c hc)).starts u)) (.refl _)

theorem finishStart_starts (s : State) (warning : Bool) : StartKeeps s.lib (s.finishStart warning).lib :=
  StartKeeps.trans (take_lastChanges_starts (warning := warning) (fun _ h => h) s.resume) (settle_settled _ _ _).toKeptMost.starts

end StartKeeps

section Blocks

variable {e : Env} {l m n : Library}

/-- R183: the changes of steps 6 to 10, in their order. -/
def blockChanges : List (Env → Library → Library) :=
  (fun _ l => l.resetIntake) :: ((allDrives.map fun d e l => l.resetDrive e d) ++ (allSlots.map fun k e l => l.missUnconfigured e k)
    ++ (fun _ l => l.returnHeld .startUp) :: (allBooks.map fun b e l => l.examine e b) ++ [fun e l => l.startCare e])

theorem lastChanges_eq (warning : Bool) : lastChanges warning
    = ((allSlots.map fun k e l => Library.comparePresence e l k) ++ blockChanges).map State.onLib
      ++ [fun s => if warning then s.enterHold else s] := by
  unfold lastChanges blockChanges
  simp only [List.map_append, List.map_map, List.map_cons, List.map_nil, List.append_assoc, List.cons_append, List.nil_append]
  rfl

theorem take_onLib (fs : List (Env → Library → Library)) (s : State) :
    s.take (fs.map State.onLib) = { s with lib := fs.foldl (fun l f => f s.env l) s.lib } := by
  induction fs generalizing s with
  | nil => rfl
  | cons f fs ih => exact ih (State.onLib f s)

/-- R183: the libraries that start-up goes through after the presence comparison. -/
def Library.compared (e : Env) (l : Library) : Library := allSlots.foldl (fun l k => l.comparePresence e k) l

theorem take_lastChanges_eq (s : State) (warning : Bool) : s.take (lastChanges warning)
    = let u : State := { s with lib := blockChanges.foldl (fun l f => f s.env l) (s.lib.compared s.env) }
      if warning then u.enterHold else u := by
  rw [lastChanges_eq, State.take_append, take_onLib, List.foldl_append, List.foldl_map]
  rfl

theorem finishStart_env (s : State) (warning : Bool) : (s.finishStart warning).env
    = if warning then { s.env with startUp := none, hold := true, holdMarker := true } else { s.env with startUp := none } := by
  show (s.resume.take (lastChanges warning)).env = _
  rw [take_lastChanges_eq]
  cases warning <;> rfl

theorem finishStart_fee (s : State) (warning : Bool) : (s.finishStart warning).fee = s.fee := (s.endStart_onlyHold warning none).fee

/-- R19, R183: what the changes after the presence comparison keep of the locations, and with no rescue and no queued side of the sides. -/
structure StartSame (l m : Library) : Prop where
  locations : m.picker.locations = l.picker.locations
  quiet : l.care.rescue = none → l.care.queue = [] → m.care.rescue = none ∧ m.care.queue = [] ∧ m.roles = l.roles
    ∧ (∀ b, (m.book b).primary = (l.book b).primary ∧ (m.book b).twin = (l.book b).twin)
    ∧ ∀ q, l.role q ≠ .blank → (m.health q).corrected = (l.health q).corrected ∧ (m.health q).uncorrectable = (l.health q).uncorrectable

theorem StartSame.refl (l : Library) : StartSame l l := ⟨rfl, fun h k => ⟨h, k, rfl, fun _ => ⟨rfl, rfl⟩, fun _ _ => ⟨rfl, rfl⟩⟩⟩

theorem StartSame.trans (h : StartSame l m) (k : StartSame m n) : StartSame l n where
  locations := k.locations.trans h.locations
  quiet hr hq := by
    obtain ⟨h1, h2, h3, h4, h5⟩ := h.quiet hr hq
    obtain ⟨k1, k2, k3, k4, k5⟩ := k.quiet h1 h2
    refine ⟨k1, k2, k3.trans h3, fun b => ⟨(k4 b).1.trans (h4 b).1, (k4 b).2.trans (h4 b).2⟩, fun q hb => ?_⟩
    have hrole : m.role q = l.role q := congrArg (fun v : Vector Role 128 => look v q) h3
    obtain ⟨g1, g2⟩ := h5 q hb
    obtain ⟨f1, f2⟩ := k5 q (by rw [hrole]; exact hb)
    exact ⟨f1.trans g1, f2.trans g2⟩

theorem startSame_of_care (h : KeptCare e l m) (hl : m.picker.locations = l.picker.locations) (hq : l.KeptQuiet m) : StartSame l m where
  locations := hl
  quiet hr hqueue := by
    obtain ⟨h1, h2, h3⟩ := hq hr hqueue
    refine ⟨h1, List.sublist_nil.mp (hqueue ▸ h.queue), h2, fun b => ⟨(h3 b).1, (h3 b).2.1⟩, fun q hb => ?_⟩
    obtain ⟨-, k1, k2, -⟩ := h.health q ⟨hb, fun r hr' => by rw [hr] at hr'; cases hr'⟩
    exact ⟨k1, k2⟩

theorem Kept.startSame (h : Kept e l m) : StartSame l m := startSame_of_care h.toKeptCare h.locations h.quiet

theorem TwinWork.startSame (h : TwinWork l m) : StartSame l m where
  locations := by rw [h.picker]
  quiet hr hq := by
    refine ⟨by rw [h.care]; exact hr, by rw [h.care]; exact hq, h.roles, fun b => ?_, fun q _ => ?_⟩
    · rw [h.book]
      exact ⟨rfl, rfl⟩
    · unfold Library.health
      rw [h.care]
      exact ⟨rfl, rfl⟩

theorem blockChanges_same {f : Env → Library → Library} (h : f ∈ blockChanges) (e : Env) (l : Library) : StartSame l (f e l) := by
  simp only [blockChanges, List.append_assoc, List.cons_append, List.mem_append, List.mem_cons, List.mem_map, List.not_mem_nil, or_false] at h
  rcases h with rfl | ⟨d, -, rfl⟩ | ⟨k, -, rfl⟩ | rfl | ⟨b, -, rfl⟩ | rfl
  · refine ⟨rfl, fun hr hq => ⟨hr, hq, rfl, fun b => ?_, fun _ _ => ⟨rfl, rfl⟩⟩⟩
    rw [Library.resetIntake_book]
    exact ⟨rfl, rfl⟩
  · show StartSame l (l.resetDrive e d)
    unfold Library.resetDrive
    split
    · exact ⟨rfl, fun hr hq => ⟨hr, hq, rfl, fun b => ⟨rfl, rfl⟩, fun _ _ => ⟨rfl, rfl⟩⟩⟩
    · exact .refl l
  · exact (kept_missUnconfigured e l k).startSame
  · exact (kept_returnHeld e l .startUp).startSame
  · exact (twinWork_examine e l b).startSame
  · exact (kept_startCare e l).startSame

theorem blocks_same (fs : List (Env → Library → Library)) (h : ∀ f ∈ fs, f ∈ blockChanges) (e : Env) (l : Library) :
    StartSame l (fs.foldl (fun l f => f e l) l) := by
  induction fs generalizing l with
  | nil => exact .refl l
  | cons f fs ih =>
    exact (blockChanges_same (h f List.mem_cons_self) e l).trans (ih (fun g hg => h g (List.mem_cons_of_mem _ hg)) (f e l))

/-- R183: the library after the last change of start-up. -/
def Library.started (e : Env) (l : Library) (warning : Bool) : Library :=
  let m := blockChanges.foldl (fun l f => f e l) (l.compared e)
  if warning then m.fault e (FaultRecord.of e .powerWarning) else m

theorem started_same (e : Env) (l : Library) (warning : Bool) : StartSame (l.compared e) (l.started e warning) := by
  have hblocks := blocks_same blockChanges (fun _ h => h) e (l.compared e)
  unfold Library.started
  dsimp only
  generalize blockChanges.foldl (fun l f => f e l) (l.compared e) = m at hblocks
  split
  · exact hblocks.trans (kept_fault e m _).startSame
  · exact hblocks

theorem take_lastChanges_lib (s : State) (warning : Bool) : (s.take (lastChanges warning)).lib = s.lib.started s.env warning := by
  rw [take_lastChanges_eq]
  unfold Library.started
  dsimp only
  generalize blockChanges.foldl (fun l f => f s.env l) (s.lib.compared s.env) = m
  cases warning <;> rfl

theorem settle_same (e : Env) (l was : Library) : StartSame l (l.settle e was) := by
  have h := settle_settled e l was
  exact startSame_of_care h.toKeptCare h.locations h.quiet

/-- R183: after the presence comparison start-up moves no cartridge. -/
theorem finishStart_same (s : State) (warning : Bool) : StartSame (s.lib.compared s.resume.env) (s.finishStart warning).lib := by
  have hlib := take_lastChanges_lib s.resume warning
  unfold State.finishStart
  dsimp only
  generalize s.resume.take (lastChanges warning) = u at hlib
  refine StartSame.trans ?_ (settle_same u.env u.lib u.lib)
  rw [hlib]
  exact started_same s.resume.env s.lib warning

end Blocks

section Compared

variable {e : Env} {l : Library}

/-- R19: a location record as its fresh reading leaves it. -/
def Location.compared (x : Location) (seated : Bool) : Location :=
  match x with
  | .inSlot => if seated then .inSlot else .absent
  | .absent => if seated then .inSlot else .absent
  | x => x

theorem comparePresence_location (e : Env) (l : Library) (k j : Slot) :
    (l.comparePresence e k).location j = if k = j then (l.location k).compared (l.seated k) else l.location j := by
  have hremoval : (l.removal e k).location j = if k = j then .absent else l.location j := by
    obtain ⟨ds, c, ls, b, g, heq⟩ := removal_rest e l k
    rw [heq]
    exact look_put ..
  have hinsertion : (l.insertion k).location j = if k = j then .inSlot else l.location j := by
    obtain ⟨rs, hs, r, heq, -⟩ := insertion_rest l (i := k)
    rw [heq]
    exact look_put ..
  have hsame (h : (l.location k).compared (l.seated k) = l.location k) :
      l.location j = if k = j then (l.location k).compared (l.seated k) else l.location j := by
    split
    next hk => rw [h, hk]
    · rfl
  unfold Library.comparePresence
  cases hl : l.location k with
  | inSlot =>
    dsimp only
    by_cases hs : l.seated k = true
    · rw [if_pos hs]
      have h := hsame (by rw [hl, hs]; rfl)
      rwa [hl] at h
    · rw [if_neg hs, hremoval]
      exact congrArg (fun x => if k = j then x else l.location j) (if_neg hs).symm
  | absent =>
    dsimp only
    by_cases hs : l.seated k = true
    · rw [if_pos hs, hinsertion]
      exact congrArg (fun x => if k = j then x else l.location j) (if_pos hs).symm
    · rw [if_neg hs]
      have h := hsame (by rw [hl, Bool.eq_false_iff.mpr hs]; rfl)
      rwa [hl] at h
  | inDrive d f =>
    have h := hsame (by rw [hl]; rfl)
    rwa [hl] at h
  | inPicker =>
    have h := hsame (by rw [hl]; rfl)
    rwa [hl] at h

theorem compareAll_location (ks : List Slot) (hks : ks.Nodup) (e : Env) (l : Library) (j : Slot) :
    (ks.foldl (fun l k => l.comparePresence e k) l).location j = if j ∈ ks then (l.location j).compared (l.seated j) else l.location j := by
  induction ks generalizing l with
  | nil => exact (if_neg List.not_mem_nil).symm
  | cons k ks ih =>
    obtain ⟨hk, hks⟩ := List.nodup_cons.mp hks
    have hseated : (l.comparePresence e k).seated j = l.seated j := look_seated (starts_comparePresence e l k).presence j
    rw [List.foldl_cons, ih hks, hseated, comparePresence_location]
    by_cases hj : k = j
    · subst hj
      rw [if_neg hk, if_pos rfl, if_pos List.mem_cons_self]
    · rw [if_neg hj]
      by_cases hm : j ∈ ks
      · rw [if_pos hm, if_pos (List.mem_cons_of_mem _ hm)]
      · rw [if_neg hm, if_neg (by rw [List.mem_cons]; exact not_or.mpr ⟨fun h => hj h.symm, hm⟩)]

theorem compared_location (e : Env) (l : Library) (j : Slot) : (l.compared e).location j = (l.location j).compared (l.seated j) :=
  (compareAll_location allSlots (List.nodup_finRange 64) e l j).trans (if_pos (by simp [allSlots]))

/-- R19: with nothing changed on the presence lines the comparison changes nothing. -/
theorem compared_same (e : Env) (l : Library) (h : ∀ j, (l.location j).compared (l.seated j) = l.location j) : l.compared e = l := by
  have hone (k : Slot) : l.comparePresence e k = l := by
    have hk := h k
    unfold Library.comparePresence
    cases hl : l.location k with
    | inSlot =>
      rw [hl] at hk
      dsimp only
      by_cases hs : l.seated k = true
      · exact if_pos hs
      · rw [show (Location.inSlot).compared (l.seated k) = .absent from if_neg hs] at hk
        cases hk
    | absent =>
      rw [hl] at hk
      dsimp only
      by_cases hs : l.seated k = true
      · rw [show (Location.absent).compared (l.seated k) = .inSlot from if_pos hs] at hk
        cases hk
      · exact if_neg hs
    | inDrive | inPicker => rfl
  unfold Library.compared
  induction allSlots with
  | nil => rfl
  | cons k ks ih => rw [List.foldl_cons, hone, ih]

theorem finishStart_location (s : State) (warning : Bool) (j : Slot) :
    (s.finishStart warning).lib.location j = (s.lib.location j).compared (s.lib.seated j) :=
  (look_location (finishStart_same s warning).locations j).trans (compared_location _ s.lib j)

end Compared

end Sys2Proof.Machine
end

section
-- One declaration after the other: the stacks of the threads that wait for each other count against the check's memory limit.
set_option Elab.async false
namespace Sys2Proof.Machine

section First

variable {s : State} {cause : ResetCause} {i : ResetInputs}

theorem markerFound_iff : s.markerFound i = true ↔ s.env.formatMarker = true ∧ i.memoryKept = true := Bool.and_eq_true_iff

/-- R183: the state after each of the first changes that find the marker. -/
theorem firstChanges_found (n : Nat) (hf : s.markerFound i = true) :
    (s.begin.beginStart i).take ((firstChanges true cause i.presence).take n) = { Restarted s cause i with env := { (Restarted s cause i).env with
      causes := if 2 ≤ n then (Restarted s cause i).env.causes else s.env.causes, holdMarker := if 2 ≤ n then false else s.env.holdMarker } } := by
  have hm : s.env.formatMarker = true := (markerFound_iff.mp hf).1
  have hb : s.begin.markerFound i = true := hf
  have hstart : s.begin.beginStart i = { Restarted s cause i with env := { (Restarted s cause i).env with
      causes := s.env.causes, holdMarker := s.env.holdMarker } } := by
    have henv : s.begin.env.restart true i.straps
        = { s.env with hold := false, configured := i.straps, startUp := none } := by
      unfold Env.restart
      rw [← hm]
      rfl
    unfold State.beginStart
    rw [hb, henv]
    rfl
  have hread : (s.begin.beginStart i).readMarker true i.presence = s.begin.beginStart i := by
    rw [hstart]
    have henv : { (Restarted s cause i).env with formatMarker := true } = (Restarted s cause i).env := by
      rw [← hm]
      rfl
    exact congrArg (fun v : Env => { Restarted s cause i with env := { v with causes := s.env.causes, holdMarker := s.env.holdMarker } }) henv
  have hcause : (s.begin.beginStart i).addCause cause = Restarted s cause i := by
    rw [hstart]
    unfold State.addCause Restarted ResetCauses.add
    cases cause <;> simp
  match n with
  | 0 => exact hstart
  | 1 => exact hread.trans hstart
  | 2 =>
    refine Eq.trans ?_ hcause
    show ((s.begin.beginStart i).readMarker true i.presence).addCause cause = _
    rw [hread]
  | n + 3 =>
    rw [if_pos (by omega), if_pos (by omega)]
    refine Eq.trans ?_ hcause
    show ((((s.begin.beginStart i).readMarker true i.presence).addCause cause).noteBlank true).take (([] : List (State → State)).take n) = _
    rw [hread, List.take_nil]
    rfl

/-- R22, R183: the state after each of the first changes that do not find the marker. -/
theorem firstChanges_blank (n : Nat) (hn : n ≤ 3) (h1 : 1 ≤ n) (hf : s.markerFound i = false) :
    (s.begin.beginStart i).take ((firstChanges false cause i.presence).take n)
      = { CutBlank s cause i n with env := { (CutBlank s cause i n).env with startUp := none } } := by
  have hcause : (s.begin.beginStart i).take ((firstChanges false cause i.presence).take 2)
      = { CutBlank s cause i 2 with env := { (CutBlank s cause i 2).env with startUp := none } } := by cases cause <;> rfl
  match n, h1, hn with
  | 1, _, _ => rfl
  | 2, _, _ => exact hcause
  | 3, _, _ =>
    refine (congrArg (fun u : State => u.noteBlank false) hcause).trans ?_
    have hlog : FaultLog.record 0 ⟨none, 0, 0⟩ (FaultRecord.of { (CutBlank s cause i 2).env with startUp := none } .recordMemoryBlank)
        = ⟨some ⟨.recordMemoryBlank, none, none, none, none, none, none, 1⟩, 0, 0⟩ := by
      unfold FaultLog.record
      rw [KindSet.has_zero]
      rfl
    exact congrArg (fun g : FaultLog => ({ CutBlank s cause i 2 with
      env := { (CutBlank s cause i 2).env with startUp := none }
      lib := { (CutBlank s cause i 2).lib with log := g } } : State)) hlog

theorem exec_reset : exec (.reset cause i) s = .next (s.begin.startUp cause i) := rfl

theorem startUp_found (hf : s.markerFound i = true) (hc : ∀ n, i.cut = some n → 4 ≤ n) :
    s.begin.startUp cause i = (Restarted s cause i).settleStart i := by
  have hb : s.begin.markerFound i = true := hf
  have hall : (s.begin.beginStart i).take (firstChanges true cause i.presence) = Restarted s cause i := firstChanges_found 3 hf
  unfold State.startUp
  rw [hb]
  dsimp only
  rw [hall]
  cases hcut : i.cut with
  | none => rfl
  | some n => exact if_neg (by have := hc n hcut; omega)

theorem startUp_blank (hf : s.markerFound i = false) (hc : i.cut = none) :
    s.begin.startUp cause i = State.settleStart { CutBlank s cause i 3 with env := { (CutBlank s cause i 3).env with startUp := none } } i := by
  have hb : s.begin.markerFound i = false := hf
  have hall : (s.begin.beginStart i).take (firstChanges false cause i.presence)
      = { CutBlank s cause i 3 with env := { (CutBlank s cause i 3).env with startUp := none } } := firstChanges_blank 3 (le_refl _) (by decide) hf
  unfold State.startUp
  rw [hb]
  dsimp only
  rw [hall, hc]

/-- R184: a start-up that a further reset breaks off among its first changes. -/
theorem startUp_cut {n : Nat} (hc : i.cut = some n) (hn : n ≤ 3) :
    (s.markerFound i = true ∨ n = 0 → s.begin.startUp cause i = CutEarly s cause i n (s.markerFound i))
      ∧ (s.markerFound i = false → 1 ≤ n → s.begin.startUp cause i = CutBlank s cause i n) := by
  have heq : s.begin.startUp cause i = State.awaitReset ((s.begin.beginStart i).take ((firstChanges (s.markerFound i) cause i.presence).take n)) i.warning n := by
    unfold State.startUp
    rw [hc]
    exact if_pos hn
  rw [heq]
  refine ⟨fun h => ?_, fun hf h1 => ?_⟩
  · by_cases hf : s.markerFound i = true
    · rw [hf, firstChanges_found n hf]
      have hm : (Restarted s cause i).env.formatMarker = true := (markerFound_iff.mp hf).1
      unfold State.awaitReset CutEarly
      rw [← hm]
    · obtain rfl := h.resolve_left hf
      rfl
  · rw [hf, firstChanges_blank n hn h1 hf]
    rfl

theorem settleStart_still (r : State) (hr : r.lib.picker.record = none) : r.settleStart i = r.endStart i.warning i.cut := by
  unfold State.settleStart
  rw [hr]

/-- R123: a move under way is settled at once, but for a LOAD whose caddy report is awaited. -/
theorem settleStart_settles (r : State) {m : Move} (hr : r.lib.picker.record = some m) (hm : i.grip = true ∨ ∃ k od q, m = .back k od q) :
    r.settleStart i = State.endStart { r with lib := (r.lib.askReports m).settleRecord m i.grip false } i.warning i.cut := by
  have hneeds : m.needsCaddy r.env i.grip = none := by
    cases m with
    | load k f d =>
      have hg : i.grip = true := hm.resolve_right fun ⟨_, _, _, h⟩ => nomatch h
      unfold Move.needsCaddy
      exact if_pos (by rw [hg]; rfl)
    | back => rfl
  unfold State.settleStart
  rw [hr]
  dsimp only
  rw [hneeds]

theorem settleStart_waits (r : State) {k : Slot} {f : Face} {d : Drive} (hr : r.lib.picker.record = some (.load k f d)) (hg : i.grip = false)
    (hd : d.val < r.env.configured) : r.settleStart i
      = { r with env := { r.env with startUp := some ⟨some d, i.warning, i.cut⟩ }, lib := r.lib.askReports (.load k f d) } := by
  have hneeds : (Move.load k f d).needsCaddy r.env i.grip = some d := by
    unfold Move.needsCaddy Env.hasDrive
    exact if_neg (by rw [hg]; simpa using hd)
  unfold State.settleStart
  rw [hr]
  dsimp only
  rw [hneeds]

end First

end Sys2Proof.Machine
end

section
-- One declaration after the other: the stacks of the threads that wait for each other count against the check's memory limit.
set_option Elab.async false
namespace Sys2Proof.Machine

section ResetParts

variable {s : State} {cause : ResetCause} {i : ResetInputs}

theorem entry_reset {l : Library} (h : l.front = Front.reset) (t : Tag) : l.entry t = none :=
  (congrArg (fun v : Front => look v.table t) h).trans (look_replicate ..)

/-- R22: the state at the defaults, before the presence comparison. -/
def BlankStart (s : State) (cause : ResetCause) (i : ResetInputs) : State :=
  { CutBlank s cause i 3 with env := { (CutBlank s cause i 3).env with startUp := none } }

theorem reset_blank (hc : i.cut = none) (hf : s.env.formatMarker = false ∨ i.memoryKept = false) :
    exec (.reset cause i) s = .next ((BlankStart s cause i).finishStart i.warning) := by
  have hm : s.markerFound i = false := by
    unfold State.markerFound
    rcases hf with hf | hf <;> rw [hf]
    · rfl
    · exact Bool.and_false _
  rw [exec_reset, startUp_blank hm hc, settleStart_still _ rfl, hc]
  rfl

theorem blankStart_location (k : Slot) : (BlankStart s cause i).lib.location k = if look i.presence k = true then .inSlot else .absent :=
  look_map ..

theorem blankStart_same : StartSame (BlankStart s cause i).lib ((BlankStart s cause i).finishStart i.warning).lib := by
  have h := finishStart_same (BlankStart s cause i) i.warning
  rwa [compared_same] at h
  intro j
  rw [blankStart_location]
  show Location.compared _ (look i.presence j) = _
  cases look i.presence j <;> rfl

theorem reset_found (hc : i.cut = none) (hf : s.env.formatMarker = true) (hk : i.memoryKept = true) (hr : s.lib.picker.record = none) :
    exec (.reset cause i) s = .next ((Restarted s cause i).finishStart i.warning) := by
  rw [exec_reset, startUp_found (markerFound_iff.mpr ⟨hf, hk⟩) (by rw [hc]; exact nofun), settleStart_still (Restarted s cause i) hr, hc]
  rfl

/-- R123: the start-up that finds a move under way, once its record is settled. -/
def SettledStart (s : State) (cause : ResetCause) (i : ResetInputs) (m : Move) : State :=
  { Restarted s cause i with lib := ((Restarted s cause i).lib.askReports m).settleRecord m i.grip false }

theorem reset_settled {m : Move} (hf : s.env.formatMarker = true) (hk : i.memoryKept = true) (hr : s.lib.picker.record = some m)
    (hm : i.grip = true ∨ ∃ k od q, m = .back k od q) (hc : ∀ n, i.cut = some n → 4 ≤ n) :
    exec (.reset cause i) s = .next ((SettledStart s cause i m).endStart i.warning i.cut) := by
  rw [exec_reset, startUp_found (markerFound_iff.mpr ⟨hf, hk⟩) hc, settleStart_settles (Restarted s cause i) hr hm]
  rfl

theorem settleRecord_books (l : Library) (m : Move) (grip caddy : Bool) : (l.settleRecord m grip caddy).books = l.books
    ∧ (l.settleRecord m grip caddy).log = l.log ∧ (l.settleRecord m grip caddy).picker.presence = l.picker.presence
    ∧ (l.settleRecord m grip caddy).out = l.out ∧ (l.settleRecord m grip caddy).drives = l.drives := by
  unfold Library.settleRecord
  dsimp only
  (repeat' split) <;> exact ⟨rfl, rfl, rfl, rfl, rfl⟩

theorem askReports_rest (l : Library) (m : Move) : ∃ os, l.askReports m = { l with out := l.out ++ .askFaultReport :: os }
    ∧ (∀ d, m.drive? = some d → os = [.askCaddy d]) := by
  unfold Library.askReports
  dsimp only
  cases m.drive? with
  | none => exact ⟨[], rfl, nofun⟩
  | some d =>
    refine ⟨[.askCaddy d], ?_, fun c hc => by rw [Option.some.inj hc]⟩
    show { l with out := (l.out ++ [Output.askFaultReport]) ++ [Output.askCaddy d] } = _
    rw [List.append_assoc]
    rfl

/-- R123: the location that a settled record leaves. -/
theorem settleRecord_location (l : Library) (m : Move) (grip caddy : Bool) (j : Slot) : (l.settleRecord m grip caddy).location j
    = if m.slot = j then (if grip = true then .inPicker else match m with
      | .load _ f d => if caddy = true then .inDrive d f else l.location j
      | .back k _ _ => if l.seated k = true then .inSlot else l.location j)
    else l.location j := by
  obtain ⟨n, hn⟩ : ∃ n : Library, { l with picker := { l.picker with record := none } } = n := ⟨_, rfl⟩
  have hl : n.location j = l.location j := by rw [← hn]; rfl
  have hs (k : Slot) : n.seated k = l.seated k := by rw [← hn]; rfl
  unfold Library.settleRecord
  rw [hn]
  dsimp only
  by_cases hg : grip = true
  · rw [if_pos hg, if_pos hg, Library.setLocation_location, hl]
  · rw [if_neg hg, if_neg hg]
    cases m with
    | load k f d =>
      dsimp only
      by_cases hc : caddy = true
      · rw [if_pos hc, if_pos hc, Library.setLocation_location, hl]
        rfl
      · rw [if_neg hc, if_neg hc, hl]
        exact (ite_self _).symm
    | back k od q =>
      dsimp only
      rw [hs]
      by_cases hc : l.seated k = true
      · rw [if_pos hc, if_pos hc, Library.setLocation_location, hl]
        rfl
      · rw [if_neg hc, if_neg hc, hl]
        exact (ite_self _).symm

theorem restarted_env (warning : Bool) (v : State) (hv : v.env = (Restarted s cause i).env) :
    (v.finishStart warning).env = { (Restarted s cause i).env with hold := warning, holdMarker := warning } := by
  rw [finishStart_env, hv]
  cases warning <;> rfl

/-- R184: a start-up that a further reset breaks off among its later changes. -/
theorem start_brokenOff (v : State) (warning : Bool) (n : Nat) (hentry : ∀ t, v.lib.entry t = none) :
    let u := (v.resume.take ((lastChanges warning).take (n - 4))).awaitReset warning n
    u.pending = v.pending ∧ u.env.startUp = some ⟨none, warning, some n⟩ ∧ u.env.directory = v.env.directory
      ∧ (∀ b, (u.lib.book b).state = (v.lib.book b).state ∧ (u.lib.book b).filing = (v.lib.book b).filing)
      ∧ (∀ q, v.lib.log.first = some q → u.lib.log.first = some q) ∧ ∀ t, u.lib.entry t = none := by
  have hmem : ∀ c ∈ (lastChanges warning).take (n - 4), c ∈ lastChanges warning := fun c h => List.mem_of_mem_take h
  have hstarts : StartKeeps v.lib (v.resume.take ((lastChanges warning).take (n - 4))).lib := take_lastChanges_starts hmem v.resume
  have hpending := take_lastChanges_pending hmem v.resume
  have henv := (State.take_lastChanges_onlyHold hmem v.resume).env
  generalize v.resume.take ((lastChanges warning).take (n - 4)) = w at hstarts hpending henv
  refine ⟨hpending, rfl, ?_, fun b => ⟨hstarts.state b, hstarts.filing b⟩, hstarts.first, hstarts.free hentry⟩
  show w.env.directory = _
  rw [henv]
  rfl

end ResetParts

end Sys2Proof.Machine
end

section
-- One declaration after the other: the stacks of the threads that wait for each other count against the check's memory limit.
set_option Elab.async false
namespace Sys2Proof.Machine

/-! # A library without books, requests and cartridges in drives stays as it is -/

/-- R22: no request, no assigned side, no rescue, no item, no command, no move and no cartridge in a drive or in the grip. -/
structure Vacant (l : Library) : Prop where
  free : ∀ t, l.entry t = none
  lookAhead : l.buffer.lookWait = []
  delivery : l.buffer.deliveryWait = []
  reread : l.buffer.rereadWait = []
  roles : ∀ q, l.role q = .unlisted
  books : ∀ b, (l.book b).primary = none ∧ (l.book b).twin = none
  rescue : l.care.rescue = none
  queue : l.care.queue = []
  cursor : l.care.cursor = none
  items : ∀ q, l.items q = []
  idle : ∀ d, (l.drive d).service = none
  home : ∀ k, l.location k = .absent ∨ l.location k = .inSlot
  moves : l.picker.moves = []

section Vacancy

variable {e : Env} {l m n : Library}

/-- The flags that call for work alone have changed. -/
def Reflagged (l m : Library) : Prop := ∃ x1 x2 x3 x4 x5 x6, m = { l with
  care := { l.care with seekDue := x1, waiting := x2, patrolDue := x3, lastCursor := x4 }
  scheduler := { l.scheduler with decisionDue := x5, patrolMount := x6 } }

theorem Reflagged.refl (l : Library) : Reflagged l l := ⟨_, _, _, _, _, _, rfl⟩

theorem Reflagged.trans (h : Reflagged l m) (k : Reflagged m n) : Reflagged l n := by
  obtain ⟨x1, x2, x3, x4, x5, x6, rfl⟩ := h
  obtain ⟨y1, y2, y3, y4, y5, y6, rfl⟩ := k
  exact ⟨y1, y2, y3, y4, y5, y6, rfl⟩

theorem Reflagged.vacant (h : Reflagged l m) (hv : Vacant l) : Vacant m := by
  obtain ⟨x1, x2, x3, x4, x5, x6, rfl⟩ := h
  exact ⟨hv.free, hv.lookAhead, hv.delivery, hv.reread, hv.roles, hv.books, hv.rescue, hv.queue, hv.cursor, hv.items, hv.idle, hv.home, hv.moves⟩

theorem Reflagged.log (h : Reflagged l m) : m.log = l.log := by
  obtain ⟨x1, x2, x3, x4, x5, x6, rfl⟩ := h
  rfl

theorem Vacant.windows (h : Vacant l) (t : Tag) : l.windows t = [] := by
  unfold Library.windows
  rw [h.free]

theorem Vacant.eachWindow (h : Vacant l) (t : Tag) (f : Library → Window → Library) : l.eachWindow t f = l := by
  unfold Library.eachWindow
  rw [h.windows]
  rfl

theorem Vacant.mounted (h : Vacant l) (d : Drive) : l.mountedSide d = none := by
  unfold Library.mountedSide
  refine List.findSome?_eq_none_iff.mpr fun k _ => ?_
  rcases h.home k with hk | hk <;> rw [hk]

theorem Vacant.top (h : Vacant l) (q : Side) : l.patrolTop q = 0 := by
  unfold Library.patrolTop
  rw [h.roles]

theorem Vacant.eligible (h : Vacant l) (q : Side) : l.patrolEligible e q = false := by
  rw [Bool.eq_false_iff]
  intro hq
  have := (patrolEligible_iff.mp hq).2.1
  rw [h.top] at this
  exact absurd this (lt_irrefl 0)

theorem Vacant.demand (h : Vacant l) (q : Side) : l.demand q = [] := by
  have hs : l.serviceItem q = none := by
    unfold Library.serviceItem
    refine List.findSome?_eq_none_iff.mpr fun d _ => ?_
    rw [h.idle]
  unfold Library.demand
  rw [hs, h.items]
  rfl

/-- A fold of steps that do nothing does nothing. -/
theorem foldl_still {α : Type} {f : Library → α → Library} (xs : List α) (h : ∀ x ∈ xs, f l x = l) : xs.foldl f l = l := by
  induction xs with
  | nil => rfl
  | cons x xs ih =>
    rw [List.foldl_cons, h x List.mem_cons_self]
    exact ih fun y hy => h y (List.mem_cons_of_mem _ hy)

theorem Vacant.passSlots (h : Vacant l) : l.passSlots = l := by
  have hd : { l with buffer := { l.buffer with deliveryWait := [] } } = l := by
    conv_rhs => rw [show l = { l with buffer := { l.buffer with deliveryWait := l.buffer.deliveryWait } } from rfl, h.delivery]
  unfold Library.passSlots
  rw [h.delivery]
  show (let l := { l with buffer := { l.buffer with deliveryWait := [] } }
    { l with buffer := { l.buffer with deliveryWait := l.takeSlots l.stagingFree l.buffer.deliveryWait } }) = l
  rw [hd]
  dsimp only
  rw [h.delivery]
  exact hd

theorem Vacant.progressAll (h : Vacant l) : l.progressAll e = l :=
  foldl_still _ fun t _ => by rw [Library.progress, h.free]

theorem Vacant.stage (h : Vacant l) : l.stage e = l := by
  unfold Library.stage
  rw [h.passSlots, h.progressAll, h.passSlots]
  dsimp only
  rw [h.delivery, List.foldl_nil, h.progressAll, h.lookAhead]
  rfl

theorem Vacant.runRescue (h : Vacant l) (n : Nat) : Reflagged l (l.runRescue e (n + 1)) := by
  have hseek : Reflagged l (l.seekRescue e) := by
    obtain ⟨m, hm⟩ : ∃ m : Library, { l with care := { l.care with seekDue := false } } = m := ⟨_, rfl⟩
    have hrescue : m.care.rescue = none := by rw [← hm]; exact h.rescue
    have hqueue : m.care.queue = [] := by rw [← hm]; exact h.queue
    unfold Library.seekRescue
    rw [hm]
    dsimp only
    have hlm : Reflagged l m := ⟨_, _, _, _, _, _, hm.symm⟩
    split
    next r hr => rw [hrescue] at hr; cases hr
    split
    · exact hlm.trans ⟨m.care.seekDue, false, m.care.patrolDue, m.care.lastCursor, m.scheduler.decisionDue, m.scheduler.patrolMount, rfl⟩
    next q qs hq => rw [hqueue] at hq; cases hq
  have hfirst : Reflagged l (if l.care.seekDue then l.seekRescue e else l) := by
    split
    · exact hseek
    · exact .refl l
  rw [Library.runRescue]
  dsimp only
  generalize (if l.care.seekDue = true then l.seekRescue e else l) = m at hfirst
  rw [(hfirst.vacant h).rescue]
  exact hfirst

theorem Vacant.rescueReaction (h : Vacant l) : Reflagged l (l.rescueReaction e) := by
  have hrun := h.runRescue (e := e) 1099
  have heq := rescueReaction_examines e l
  dsimp only at heq
  rw [heq]
  generalize l.runRescue e 1100 = m at hrun
  obtain ⟨x1, x2, x3, x4, x5, x6, rfl⟩ := hrun
  refine ⟨x1, x2, x3, x4, x5, x6, ?_⟩
  rw [List.filter_eq_nil_iff.mpr fun b _ => ?_]
  · rfl
  · simp [Library.book]

theorem Vacant.work (h : Vacant l) : Reflagged l (l.work e) := by
  have hturn : allTags.foldl (fun l t => l.turnWindows e t) l = l := foldl_still _ fun t _ => h.eachWindow t _
  have hunwind : l.unwindStranded e = l := foldl_still _ fun t _ => by
    have hs : l.strandedBook e t = none := by
      unfold Library.strandedBook
      rw [Library.fileOf_of_free h.free]
    rw [hs]
  have hpending : allTags.foldl (fun l t => l.resolvePending e t) l = l := foldl_still _ fun t _ => h.eachWindow t _
  unfold Library.work
  dsimp only
  rw [hturn, hunwind, hpending, h.stage]
  exact h.rescueReaction

theorem reflagged_registerEvents (was : Library) : Reflagged l (l.registerEvents e was) := by
  have hcheck : Reflagged l (l.checkPatrolMount e) := by
    unfold Library.checkPatrolMount
    cases l.scheduler.patrolMount with
    | none => exact .refl l
    | some q =>
      dsimp only
      split
      · exact .refl l
      · obtain ⟨p, c, hdrop⟩ := dropPatrolMount_rest (l := l) q
        rw [hdrop]
        exact ⟨_, _, _, _, _, _, rfl⟩
  have hplace (l : Library) : Reflagged l l.callPlacement := by
    unfold Library.callPlacement
    split
    · exact .refl l
    · exact ⟨_, _, _, _, _, _, rfl⟩
  have hif (c : Bool) (l : Library) {k : Library → Library} (hk : ∀ l, Reflagged l (k l)) : Reflagged l (if c then k l else l) := by
    split
    · exact hk l
    · exact .refl l
  have hdecision (l : Library) : Reflagged l l.callDecision := ⟨_, _, _, _, _, _, rfl⟩
  have hpatrol (l : Library) : Reflagged l l.callPatrol := ⟨_, _, _, _, _, _, rfl⟩
  unfold Library.registerEvents
  dsimp only
  exact ((hcheck.trans (hif _ _ hdecision)).trans (hif _ _ hplace)).trans (hif _ _ hpatrol)

theorem Vacant.decide (h : Vacant l) : Reflagged l (l.decide e) := by
  unfold Library.decide
  split
  · obtain ⟨m, hm⟩ : ∃ m : Library, { l with scheduler := { l.scheduler with decisionDue := false } } = m := ⟨_, rfl⟩
    dsimp only
    rw [hm]
    have hlm : Reflagged l m := ⟨_, _, _, _, _, _, hm.symm⟩
    have hv := hlm.vacant h
    have hcandidates : m.candidates e = [] := List.eq_nil_iff_forall_not_mem.mpr fun c hc => by
      have := ((mem_candidates e m).mp hc).1
      unfold Library.rank at this
      rw [hv.demand] at this
      cases this
    have hpatrol : m.patrolCandidates e = [] := List.eq_nil_iff_forall_not_mem.mpr fun q hq => by
      have := (mem_patrolCandidates.mp hq).1
      rw [hv.top] at this
      exact absurd this (lt_irrefl 0)
    rw [hcandidates, Library.giveAll, considerPatrol_none hpatrol]
    exact hlm
  · exact .refl l

theorem Vacant.tryMoves (h : Vacant l) (n : Nat) : l.tryMoves e n = l := by
  cases n with
  | zero => rfl
  | succ n =>
    rw [Library.tryMoves, h.moves]
    exact ite_self _

theorem Vacant.examineCursor (h : Vacant l) : Reflagged l (l.examineCursor e) := by
  unfold Library.examineCursor
  split
  · obtain ⟨m, hm⟩ : ∃ m : Library, { l with care := { l.care with patrolDue := false } } = m := ⟨_, rfl⟩
    dsimp only
    rw [hm]
    have hlm : Reflagged l m := ⟨_, _, _, _, _, _, hm.symm⟩
    have hv := hlm.vacant h
    have hnext : m.nextCursor e = none := by
      rw [nextCursor_next fun q _ => hv.eligible q]
      exact List.find?_eq_none.mpr fun q _ => by rw [hv.eligible]; exact Bool.false_ne_true
    have hcursor : Library.moveCursor e 8 m = m := by
      rw [moveCursor_none 7 hnext]
      conv_rhs => rw [show m = { m with care := { m.care with cursor := m.care.cursor } } from rfl, hv.cursor]
    rw [h.cursor]
    dsimp only
    rw [hcursor]
    exact hlm
  · exact .refl l

theorem Vacant.serveDrives (h : Vacant l) : l.serveDrives e = l :=
  foldl_still _ fun d _ => serveDrive_idle (.inr (.inr (.inl (h.mounted d))))

theorem Vacant.pass (h : Vacant l) (was : Library) : Reflagged l (l.pass e was).2 := by
  have hwork := h.work (e := e)
  have hregister := hwork.trans (reflagged_registerEvents (e := e) was)
  have hdecide := hregister.trans ((hregister.vacant h).decide (e := e))
  show Reflagged l (((Library.decide e ((l.work e).registerEvents e was)).tryMoves e 16).examineCursor e |>.serveDrives e)
  rw [(hdecide.vacant h).tryMoves]
  have hcursor := hdecide.trans ((hdecide.vacant h).examineCursor (e := e))
  rw [(hcursor.vacant h).serveDrives]
  exact hcursor

theorem Vacant.passes (h : Vacant l) (n : Nat) (was : Library) : Reflagged l (Library.passes e n was l) := by
  induction n generalizing l was with
  | zero => exact .refl l
  | succ n ih =>
    have hp := h.pass (e := e) was
    exact hp.trans (ih (hp.vacant h) (l.pass e was).1)

/-- R178: the reactions of a vacant library record nothing. -/
theorem Vacant.settle_log (h : Vacant l) (was : Library) : (l.settle e was).log = l.log := by
  have hp := h.passes (e := e) 6 was
  unfold Library.settle
  generalize Library.passes e 6 was l = m at hp
  have hf := (finish_finished (Library.orderReservations was m)).rest
  rw [hf]
  exact hp.log

end Vacancy

end Sys2Proof.Machine
end

section
-- One declaration after the other: the stacks of the threads that wait for each other count against the check's memory limit.
set_option Elab.async false
namespace Sys2Proof.Machine

section VacantStart

variable {e : Env} {l m : Library}

/-- R183: a change of start-up that leaves a vacant library vacant, and records nothing. -/
def KeepsVacant (l m : Library) : Prop := Vacant m ∧ m.log = l.log

theorem Vacant.keeps (h : Vacant l) : KeepsVacant l l := ⟨h, rfl⟩

theorem Vacant.reflagged (h : Vacant l) (k : Reflagged l m) : KeepsVacant l m := ⟨k.vacant h, k.log⟩

theorem Vacant.unused (h : Vacant l) (k : Slot) : l.inUseSide k = none := by
  rw [← Option.not_isSome_iff_eq_none, inUseSide_isSome]
  rintro ⟨q, -, hq⟩
  rw [h.roles] at hq
  cases hq

theorem Vacant.removal (h : Vacant l) (k : Slot) : KeepsVacant l (l.removal e k) := by
  obtain ⟨rs, due, heq, hlook⟩ := removed_rest l k
  have hrole (q : Side) : look rs q = .unlisted := by
    rw [hlook]
    split
    · rfl
    · exact h.roles q
  have hv : Vacant (l.removed k) := by
    rw [heq]
    refine ⟨h.free, h.lookAhead, h.delivery, h.reread, hrole, h.books, h.rescue, ?_, h.cursor, h.items, h.idle, fun j => ?_, h.moves⟩
    · show l.care.queue.filter _ = []
      rw [h.queue]
      rfl
    · show look (put l.picker.locations k .absent) j = _ ∨ look (put l.picker.locations k .absent) j = _
      rw [look_put]
      split
      · exact .inl rfl
      · exact h.home j
  have hmiss : (l.removed k).faultMissing e k none = l.removed k := by
    unfold Library.faultMissing
    rw [hv.unused]
  have hsame : l.removal e k = l.removed k := by
    rw [removal_eq, hmiss]
    exact if_neg (by rw [hv.rescue]; exact Bool.false_ne_true)
  rw [hsame]
  exact ⟨hv, by rw [heq]⟩

theorem Vacant.insertion (h : Vacant l) (k : Slot) : KeepsVacant l (l.insertion k) := by
  obtain ⟨rs, hs, r, heq, -, hfresh⟩ := insertion_rest l (i := k)
  have hall := hfresh fun q _ => .inl (h.roles q)
  have hrescue : r = none := by
    have hc : (l.insertion k).care.rescue = l.care.rescue := by
      rw [insertion_eq, h.unused]
      dsimp only
      rw [if_neg (show ¬ (none : Option Side).isSome = true from Bool.false_ne_true)]
      split
      · obtain ⟨rs, hs, heq, -⟩ := freshSides_rest (l := l.setLocation k .inSlot) (sidesOf k)
        rw [heq]
        rfl
      · rfl
    rw [heq] at hc
    exact hc.trans h.rescue
  subst hrescue
  rw [heq]
  refine ⟨⟨h.free, h.lookAhead, h.delivery, h.reread, fun q => ?_, h.books, rfl, h.queue, h.cursor, h.items, h.idle, fun j => ?_, h.moves⟩, rfl⟩
  · refine (hall q).1.trans ?_
    split
    · rfl
    · exact h.roles q
  · show look (put l.picker.locations k .inSlot) j = _ ∨ look (put l.picker.locations k .inSlot) j = _
    rw [look_put]
    split
    · exact .inr rfl
    · exact h.home j

theorem Vacant.comparePresence (h : Vacant l) (k : Slot) : KeepsVacant l (l.comparePresence e k) := by
  unfold Library.comparePresence
  split
  · split
    · exact h.keeps
    · exact h.removal k
  · split
    · exact h.insertion k
    · exact h.keeps
  · exact h.keeps

theorem Vacant.resetIntake (h : Vacant l) : KeepsVacant l l.resetIntake := by
  refine ⟨⟨h.free, h.lookAhead, h.delivery, h.reread, h.roles, fun b => ?_, h.rescue, h.queue, h.cursor, h.items, h.idle, h.home, h.moves⟩, rfl⟩
  rw [Library.resetIntake_book]
  exact h.books b

theorem Vacant.resetDrive (h : Vacant l) (d : Drive) : l.resetDrive e d = l := by
  unfold Library.resetDrive
  rw [h.mounted]
  exact if_neg (by rw [show (none : Option Side).isSome = false from rfl, Bool.and_false]; exact Bool.false_ne_true)

theorem Vacant.missUnconfigured (h : Vacant l) (k : Slot) : l.missUnconfigured e k = l := by
  unfold Library.missUnconfigured
  rcases h.home k with hk | hk <;> rw [hk]

theorem Vacant.returnHeld (h : Vacant l) (q : ReturnReason) : l.returnHeld q = l := by
  have hheld : l.heldSlot = none := List.find?_eq_none.mpr fun k _ => by
    rcases h.home k with hk | hk <;> rw [hk] <;> decide
  unfold Library.returnHeld
  rw [hheld]

/-- R52, R96: the re-read records have gone, and their places on the waiting list; no slot is granted yet. -/
def Library.dropped (l : Library) (b : Book) (gone : Nat → Bool) : Library :=
  let m := (l.mapRereads b fun rs => rs.filter fun r => !gone r.frame).mapCommands (Command.orphanReread b gone)
  { m with buffer := { m.buffer with rereadWait := m.buffer.rereadWait.filter fun p => !(p.1 == b && gone p.2) } }

theorem dropRereads_eq (l : Library) (b : Book) (gone : Nat → Bool) :
    l.dropRereads e b gone = ((l.dropped b gone).syncReread e b).grantRereads e := rfl

theorem Vacant.stopTwinWork (h : Vacant l) (b : Book) :
    (∀ q, (l.stopTwinWork e b).items q = []) ∧ (l.stopTwinWork e b).buffer.rereadWait = [] := by
  unfold Library.stopTwinWork
  rw [dropRereads_eq]
  obtain ⟨m, hm⟩ : ∃ m : Library, (l.withdrawAll fun k => k == .twinWrite b || k == .twinReread b).dropped b (fun _ => true) = m := ⟨_, rfl⟩
  have hwait : m.buffer.rereadWait = [] := by
    rw [← hm]
    show l.buffer.rereadWait.filter _ = []
    rw [h.reread]
    rfl
  have hsync : m.syncReread e b = m := by
    unfold Library.syncReread
    rw [show (m.book b).primary = none by rw [← hm]; exact (h.books b).1]
  have hitems (q : Side) : m.items q = [] := by
    have hq : m.items q = (l.items q).filter fun i => !(i.kind == .twinWrite b || i.kind == .twinReread b) := by
      rw [← hm]
      exact look_map ..
    rw [hq, h.items]
    rfl
  rw [hm, hsync]
  unfold Library.grantRereads
  rw [hwait]
  exact ⟨hitems, rfl⟩

theorem Vacant.examine (h : Vacant l) (b : Book) : KeepsVacant l (l.examine e b) := by
  have hwork := twinWork_examine e l b
  obtain ⟨hitems, hreread⟩ := h.stopTwinWork (e := e) b
  have heq : l.examine e b = (l.stopTwinWork e b).setTwin b .none := by
    unfold Library.examine
    rw [(h.books b).2]
  refine ⟨⟨fun t => ?_, ?_, ?_, ?_, fun q => ?_, fun k => ?_, ?_, ?_, ?_, fun q => ?_, fun d => ?_, fun k => ?_, ?_⟩, hwork.log⟩
  · exact (congrArg (fun v : Front => look v.table t) hwork.front).trans (h.free t)
  · rw [hwork.buffer]; exact h.lookAhead
  · rw [hwork.buffer]; exact h.delivery
  · rw [heq]; exact hreread
  · exact (congrArg (fun v : Vector Role 128 => look v q) hwork.roles).trans (h.roles q)
  · rw [hwork.book]; exact h.books k
  · rw [hwork.care]; exact h.rescue
  · rw [hwork.care]; exact h.queue
  · rw [hwork.care]; exact h.cursor
  · rw [heq]; exact hitems q
  · obtain ⟨v, hv, hsome⟩ := hwork.drive d
    rw [h.idle] at hsome
    rw [hv]
    exact Option.not_isSome_iff_eq_none.mp (by rw [hsome]; exact Bool.false_ne_true)
  · rw [look_location (v := l.examine e b) (w := l) (by rw [hwork.picker])]; exact h.home k
  · rw [hwork.picker]; exact h.moves

theorem Vacant.startCare (h : Vacant l) : KeepsVacant l (l.startCare e) := by
  have hcall : Reflagged l (l.callRescue.callPatrol) := ⟨_, _, _, _, _, _, rfl⟩
  have hrescue := hcall.trans ((hcall.vacant h).rescueReaction (e := e))
  have hcursor := hrescue.trans ((hrescue.vacant h).examineCursor (e := e))
  unfold Library.startCare
  refine h.reflagged (hcursor.trans ?_)
  unfold Library.callPlacement
  split
  · exact .refl _
  · exact ⟨_, _, _, _, _, _, rfl⟩

theorem KeepsVacant.trans {n : Library} (h : KeepsVacant l m) (k : KeepsVacant m n) : KeepsVacant l n := ⟨k.1, k.2.trans h.2⟩

theorem blockChanges_vacant {f : Env → Library → Library} (hf : f ∈ blockChanges) (e : Env) (h : Vacant l) : KeepsVacant l (f e l) := by
  simp only [blockChanges, List.append_assoc, List.cons_append, List.mem_append, List.mem_cons, List.mem_map, List.not_mem_nil, or_false] at hf
  rcases hf with rfl | ⟨d, -, rfl⟩ | ⟨k, -, rfl⟩ | rfl | ⟨b, -, rfl⟩ | rfl
  · exact h.resetIntake
  · show KeepsVacant l (l.resetDrive e d)
    rw [h.resetDrive]
    exact h.keeps
  · show KeepsVacant l (l.missUnconfigured e k)
    rw [h.missUnconfigured]
    exact h.keeps
  · show KeepsVacant l (l.returnHeld .startUp)
    rw [h.returnHeld]
    exact h.keeps
  · exact h.examine b
  · exact h.startCare

theorem foldl_vacant {α : Type} {f : Library → α → Library} (xs : List α) (hf : ∀ x ∈ xs, ∀ l, Vacant l → KeepsVacant l (f l x)) (h : Vacant l) :
    KeepsVacant l (xs.foldl f l) := by
  induction xs generalizing l with
  | nil => exact h.keeps
  | cons x xs ih =>
    have hx := hf x List.mem_cons_self l h
    exact hx.trans (ih (fun y hy => hf y (List.mem_cons_of_mem _ hy)) hx.1)

/-- R178, R183: a start-up without HOLD that finds a vacant library records nothing. -/
theorem finishStart_vacant (s : State) (h : Vacant s.lib) : (s.finishStart false).lib.log = s.lib.log := by
  have hcompared : KeepsVacant s.lib (s.lib.compared s.resume.env) := foldl_vacant allSlots (fun k _ l hl => hl.comparePresence k) h
  have hblocks := foldl_vacant blockChanges (fun f hf l hl => blockChanges_vacant hf s.resume.env hl) hcompared.1
  have hlib : (s.resume.take (lastChanges false)).lib = blockChanges.foldl (fun l f => f s.resume.env l) (s.lib.compared s.resume.env) :=
    take_lastChanges_lib s.resume false
  unfold State.finishStart
  dsimp only
  generalize s.resume.take (lastChanges false) = u at hlib
  have hv : Vacant u.lib := by rw [hlib]; exact hblocks.1
  exact (hv.settle_log (e := u.env) u.lib).trans ((congrArg Library.log hlib).trans (hcompared.trans hblocks).2)

end VacantStart

end Sys2Proof.Machine
end

section
-- One declaration after the other: the stacks of the threads that wait for each other count against the check's memory limit.
set_option Elab.async false
namespace Sys2Proof.Machine

section ResetSettled

variable {s : State} {cause : ResetCause} {i : ResetInputs}

theorem restarted_drive (d : Drive) : (Restarted s cause i).lib.drive d = .empty s.env.now := look_replicate ..

/-- R183, R22: what a reset that finds the marker leaves, with no move under way. -/
theorem reset_kept (warning : Bool) : let u := (Restarted s cause i).finishStart warning
    u.pending = s.pending
      ∧ u.env = { (Restarted s cause i).env with hold := warning, holdMarker := warning } ∧ u.fee = (Restarted s cause i).fee
      ∧ (∀ b, (u.lib.book b).state = (s.lib.book b).state ∧ (u.lib.book b).filing = (s.lib.book b).filing
        ∧ (s.lib.book b).twinMark ≤ (u.lib.book b).twinMark)
      ∧ (∀ t, u.lib.entry t = none) ∧ u.lib.buffer.hold = [] ∧ u.lib.buffer.escalation = false
      ∧ u.lib.picker.presence = i.presence
      ∧ (∀ d, (u.lib.drive d).corrected = 0 ∧ (u.lib.drive d).uncorrectable = 0 ∧ (u.lib.drive d).commandFailures = 0
        ∧ (u.lib.drive d).failures = 0 ∧ (u.lib.drive d).state ≠ .failed)
      ∧ (∀ d q, s.lib.mountedSide d = some q → (u.lib.drive d).lastUse = s.env.now ∧ (u.lib.drive d).mountTime = s.env.now)
      ∧ (∀ k, s.lib.location k = .inSlot → look i.presence k = false → u.lib.location k = .absent)
      ∧ (∀ k, s.lib.location k = .absent → look i.presence k = true → u.lib.location k = .inSlot)
      ∧ (∀ k, s.lib.location k = .inSlot → look i.presence k = true → u.lib.location k = .inSlot)
      ∧ (∀ k d f, s.lib.location k = .inDrive d f → u.lib.location k = .inDrive d f)
      ∧ ((∀ k, s.lib.location k = .inSlot → look i.presence k = true) → (∀ k, s.lib.location k = .absent → look i.presence k = false) →
        s.lib.care.rescue = none → s.lib.care.queue = [] →
        u.lib.roles = s.lib.roles ∧ u.lib.care.rescue = none ∧ u.lib.care.queue = []
          ∧ (∀ b, (u.lib.book b).primary = (s.lib.book b).primary ∧ (u.lib.book b).twin = (s.lib.book b).twin)
          ∧ ∀ q, s.lib.role q ≠ .blank → (u.lib.health q).corrected = (s.lib.health q).corrected
            ∧ (u.lib.health q).uncorrectable = (s.lib.health q).uncorrectable)
      ∧ (∀ r, s.lib.log.first = some r → u.lib.log.first = some r)
      ∧ (∀ k, KindSet.has s.lib.log.later k = true → KindSet.has u.lib.log.later k = true)
      ∧ (s.lib.log.laterCount ≤ 255 → s.lib.log.laterCount ≤ u.lib.log.laterCount ∧ u.lib.log.laterCount ≤ 255) := by
  have hstarts := finishStart_starts (Restarted s cause i) warning
  have henv := restarted_env (s := s) (cause := cause) (i := i) warning _ rfl
  have hfee := finishStart_fee (Restarted s cause i) warning
  have hpending : ((Restarted s cause i).finishStart warning).pending = s.pending := endStart_pending (Restarted s cause i) warning none
  have hlocation (k : Slot) : ((Restarted s cause i).finishStart warning).lib.location k = (s.lib.location k).compared (look i.presence k) :=
    finishStart_location (Restarted s cause i) warning k
  have hsame := finishStart_same (Restarted s cause i) warning
  generalize (Restarted s cause i).finishStart warning = u at hstarts henv hfee hpending hlocation hsame
  refine ⟨hpending, henv, hfee, fun b => ⟨hstarts.state b, hstarts.filing b, hstarts.twinMark b⟩, hstarts.free (entry_reset rfl), hstarts.hold,
    hstarts.escalation, hstarts.presence, fun d => ?_, fun d q _ => ?_, fun k hk hp => ?_, fun k hk hp => ?_, fun k hk hp => ?_, fun k d f hk => ?_,
    fun hin hout hr hq => ?_, hstarts.first, hstarts.later, hstarts.laterCount⟩
  · have hd := hstarts.drive d
    rw [restarted_drive] at hd
    exact ⟨hd.corrected, hd.uncorrectable, hd.commandFailures, hd.failures, fun hf => by cases hd.failed hf⟩
  · have hd := hstarts.drive d
    rw [restarted_drive] at hd
    exact ⟨hd.lastUse, hd.mountTime⟩
  · rw [hlocation, hk, hp]; rfl
  · rw [hlocation, hk, hp]; rfl
  · rw [hlocation, hk, hp]; rfl
  · rw [hlocation, hk]; rfl
  · rw [compared_same] at hsame
    · obtain ⟨h1, h2, h3, h4, h5⟩ := hsame.quiet hr hq
      exact ⟨h3, h1, h2, h4, h5⟩
    · intro j
      show (s.lib.location j).compared (look i.presence j) = s.lib.location j
      cases hl : s.lib.location j with
      | inSlot => rw [hin j hl]; rfl
      | absent => rw [hout j hl]; rfl
      | inDrive | inPicker => rfl

/-- R123: what the settlement of a move record leaves alone, and the reports that it asks. -/
theorem settledStart_rest (s : State) (cause : ResetCause) (i : ResetInputs) (m : Move) : ∃ os, (SettledStart s cause i m).lib.out = .askFaultReport :: os
    ∧ (∀ d, m.drive? = some d → os = [.askCaddy d]) ∧ (SettledStart s cause i m).lib.books = s.lib.books
    ∧ (SettledStart s cause i m).lib.log = s.lib.log ∧ (SettledStart s cause i m).lib.picker.presence = i.presence
    ∧ (SettledStart s cause i m).lib.front = Front.reset := by
  obtain ⟨os, hask, hos⟩ := askReports_rest (Restarted s cause i).lib m
  obtain ⟨hbooks, hlog, hpresence, hout, -⟩ := settleRecord_books ((Restarted s cause i).lib.askReports m) m i.grip false
  have hfront := front_settleRecord ((Restarted s cause i).lib.askReports m) m i.grip false
  rw [hask] at hbooks hlog hpresence hout hfront
  unfold SettledStart
  dsimp only
  rw [hask]
  exact ⟨os, hout, hos, hbooks, hlog, hpresence, hfront⟩

theorem settledStart_location (s : State) (cause : ResetCause) (i : ResetInputs) (m : Move) :
    (i.grip = true → (SettledStart s cause i m).lib.location m.slot = .inPicker)
      ∧ ∀ k od q, m = .back k od q → i.grip = false → (SettledStart s cause i m).lib.location k
        = if look i.presence k = true then .inSlot else s.lib.location k := by
  obtain ⟨os, hask, -⟩ := askReports_rest (Restarted s cause i).lib m
  unfold SettledStart
  dsimp only
  refine ⟨fun hg => ?_, fun k od q hm hg => ?_⟩
  · rw [settleRecord_location, if_pos rfl, if_pos hg]
  · subst hm
    rw [settleRecord_location, hask, hg]
    exact (if_pos rfl).trans (if_neg Bool.false_ne_true)

/-- R123: what a reset that settles a move record leaves. -/
theorem reset_moved {m : Move} (hm : i.grip = true ∨ ∃ k od q, m = .back k od q) (warning : Bool) :
    let r := Restarted s cause i
    let u := (SettledStart s cause i m).finishStart warning
    ∃ os, u.pending = s.pending ∧ u.fee = r.fee ∧ u.env = { r.env with hold := warning, holdMarker := warning }
      ∧ u.lib.out = .askFaultReport :: os ∧ (∀ d, m.drive? = some d → ∃ qs, os = .askCaddy d :: qs)
      ∧ (i.grip = true → u.lib.location m.slot = .inPicker)
      ∧ (i.grip = false → look i.presence m.slot = true → u.lib.location m.slot = .inSlot)
      ∧ (i.grip = false → look i.presence m.slot = false → ∀ d f, s.lib.location m.slot = .inDrive d f →
        u.lib.location m.slot = .inDrive d f)
      ∧ (∀ t, u.lib.entry t = none) ∧ (∀ b, (u.lib.book b).state = (s.lib.book b).state ∧ (u.lib.book b).filing = (s.lib.book b).filing) := by
  obtain ⟨os, hvout, hos, hbooks, -, hpresence, hfront⟩ := settledStart_rest s cause i m
  obtain ⟨hgrip, hback⟩ := settledStart_location s cause i m
  have hv : (SettledStart s cause i m).env = (Restarted s cause i).env ∧ (SettledStart s cause i m).fee = (Restarted s cause i).fee
      ∧ (SettledStart s cause i m).pending = s.pending := ⟨rfl, rfl, rfl⟩
  dsimp only
  generalize SettledStart s cause i m = v at hvout hbooks hpresence hfront hgrip hback hv
  obtain ⟨hvenv, hvfee, hvpending⟩ := hv
  have hvbooks (b : Book) : v.lib.book b = s.lib.book b := congrArg (fun v : Vector BookEntry 127 => look v b) hbooks
  have hvseated (k : Slot) : v.lib.seated k = look i.presence k := congrArg (fun v : Vector Bool 64 => look v k) hpresence
  have hstarts := finishStart_starts v warning
  have henv := restarted_env (s := s) (cause := cause) (i := i) warning v hvenv
  have hfee : (v.finishStart warning).fee = (Restarted s cause i).fee := (finishStart_fee v warning).trans hvfee
  have hpending : (v.finishStart warning).pending = s.pending := (endStart_pending v warning none).trans hvpending
  have hlocation := finishStart_location v warning m.slot
  generalize v.finishStart warning = u at hstarts henv hfee hpending hlocation
  rw [hvseated] at hlocation
  obtain ⟨qs, hqs⟩ := hstarts.out
  refine ⟨os ++ qs, hpending, hfee, henv, by rw [hqs, hvout]; rfl, fun d hd => ⟨qs, by rw [hos d hd]; rfl⟩, fun hg => ?_, fun hg hp => ?_,
    fun hg hp d f hl => ?_, hstarts.free (entry_reset hfront), fun b => by rw [hstarts.state, hstarts.filing, hvbooks]; exact ⟨rfl, rfl⟩⟩
  · rw [hlocation, hgrip hg]
    rfl
  · obtain ⟨k, od, q, rfl⟩ := hm.resolve_left (by rw [hg]; exact Bool.false_ne_true)
    have hk : v.lib.location k = .inSlot := (hback k od q rfl hg).trans (if_pos hp)
    have hp' : look i.presence k = true := hp
    rw [hlocation]
    show (v.lib.location k).compared (look i.presence k) = _
    rw [hk, hp']
    rfl
  · obtain ⟨k, od, q, rfl⟩ := hm.resolve_left (by rw [hg]; exact Bool.false_ne_true)
    have hp' : look i.presence k = false := hp
    have hk : v.lib.location k = .inDrive d f := (hback k od q rfl hg).trans ((if_neg (by rw [hp']; exact Bool.false_ne_true)).trans hl)
    rw [hlocation]
    show (v.lib.location k).compared (look i.presence k) = _
    rw [hk]
    rfl

/-- R22, R180, R183: what a reset that finds no marker leaves. -/
theorem reset_defaults : let u := (BlankStart s cause i).finishStart i.warning
    u.pending = s.pending
      ∧ u.env = { now := s.env.now, day := 1, hold := i.warning, configured := i.straps, directory := [], threshold := 200, mask := 0,
                  causes := ⟨cause == .powerOn, cause == .resetLine, false⟩, holdMarker := i.warning, formatMarker := true, startUp := none }
      ∧ u.fee = Fee.blank
      ∧ (∀ b, (u.lib.book b).state = .unassigned ∧ (u.lib.book b).primary = none ∧ (u.lib.book b).twin = none
        ∧ (u.lib.book b).filing = 0 ∧ (u.lib.book b).twinMark = 0)
      ∧ (∀ q, u.lib.role q = .unlisted)
      ∧ (∀ q, (u.lib.health q).corrected = 0 ∧ (u.lib.health q).uncorrectable = 0)
      ∧ (∀ k, u.lib.location k = if look i.presence k then .inSlot else .absent) ∧ u.lib.picker.presence = i.presence
      ∧ (∀ t, u.lib.entry t = none) ∧ u.lib.buffer.hold = [] ∧ u.lib.buffer.escalation = false
      ∧ u.lib.care.rescue = none ∧ u.lib.care.queue = []
      ∧ u.lib.log.first = some ⟨.recordMemoryBlank, none, none, none, none, none, none, 1⟩ := by
  have hstarts := finishStart_starts (BlankStart s cause i) i.warning
  have henv := finishStart_env (BlankStart s cause i) i.warning
  have hfee := finishStart_fee (BlankStart s cause i) i.warning
  have hpending : ((BlankStart s cause i).finishStart i.warning).pending = s.pending := endStart_pending (BlankStart s cause i) i.warning none
  have hsame := blankStart_same (s := s) (cause := cause) (i := i)
  generalize (BlankStart s cause i).finishStart i.warning = u at hstarts henv hfee hpending hsame
  have hbook (b : Book) : (BlankStart s cause i).lib.book b = .unassigned := look_replicate ..
  have hrole (q : Side) : (BlankStart s cause i).lib.role q = .unlisted := look_replicate ..
  have hhealth (q : Side) : (BlankStart s cause i).lib.health q = .zero := look_replicate ..
  obtain ⟨h1, h2, h3, h4, h5⟩ := hsame.quiet rfl rfl
  refine ⟨hpending, ?_, hfee, fun b => ?_, fun q => ?_, fun q => ?_, fun k => ?_, hstarts.presence, hstarts.free (entry_reset rfl), hstarts.hold,
    hstarts.escalation, h1, h2, hstarts.first _ rfl⟩
  · rw [henv]
    cases i.warning <;> rfl
  · have htop := hstarts.twinTop b (by rw [hbook]; exact le_refl _)
    have hfiling : (u.lib.book b).filing = 0 := by rw [hstarts.filing, hbook]; rfl
    exact ⟨by rw [hstarts.state, hbook]; rfl, by rw [(h4 b).1, hbook]; rfl, by rw [(h4 b).2, hbook]; rfl, hfiling, by omega⟩
  · exact (congrArg (fun v : Vector Role 128 => look v q) h3).trans (hrole q)
  · obtain ⟨k1, k2⟩ := h5 q (by rw [hrole]; exact nofun)
    rw [k1, k2, hhealth]
    exact ⟨rfl, rfl⟩
  · exact (look_location hsame.locations k).trans (blankStart_location k)

theorem attn_awaiting {u : State} {w : Bool} {n : Nat} (h : u.env.startUp = some ⟨none, w, some n⟩) :
    u.attn = (decide (1 ≤ n) && u.lib.log.first.isSome) := by
  unfold State.attn Library.attn
  rw [h]
  cases n with
  | zero => simp
  | succ n => simp

theorem cutBlank_vacant {n : Nat} {cause' : ResetCause} {j : ResetInputs} : Vacant (Restarted (CutBlank s cause i n) cause' j).lib where
  free := entry_reset rfl
  lookAhead := rfl
  delivery := rfl
  reread := rfl
  roles _ := look_replicate ..
  books b := by
    rw [show (Restarted (CutBlank s cause i n) cause' j).lib.book b = .unassigned from look_replicate ..]
    exact ⟨rfl, rfl⟩
  rescue := rfl
  queue := rfl
  cursor := rfl
  items _ := look_replicate ..
  idle d := by rw [restarted_drive]; rfl
  home k := by
    have hk : (Restarted (CutBlank s cause i n) cause' j).lib.location k = if look i.presence k = true then .inSlot else .absent := look_map ..
    rw [hk]
    split
    · exact .inr rfl
    · exact .inl rfl
  moves := rfl

end ResetSettled

/-- Settles O34: a reset with and without the marker, a settled move, and the places at which a further reset breaks a start-up off. -/
theorem resetRecords : Obligations.ResetRecords := by
  refine ⟨fun s cause i hc hf => ⟨_, reset_blank hc hf, reset_defaults⟩, fun s cause i hc hf hk hr => ⟨reset_found hc hf hk hr, _, reset_found hc hf hk hr, reset_kept i.warning⟩,
    fun s cause i m hc hf hk hr hm => ?_, fun s cause i n hc hn => ?_, fun s cause i n hc hn hf hk => ⟨fun hr => ?_, fun m hr hm => ?_⟩, fun s warning => rfl,
    fun s cause cause' i j n hc hn hf hjc hjk hjw => ?_⟩
  · have hexec := reset_settled (cause := cause) hf hk hr hm (by rw [hc]; exact nofun)
    rw [hc] at hexec
    obtain ⟨os, h⟩ := reset_moved (s := s) (cause := cause) hm i.warning
    exact ⟨hexec, _, os, hexec, h⟩
  · obtain ⟨h1, h2⟩ := startUp_cut (s := s) (cause := cause) hc hn
    refine ⟨_, exec_reset, ?_, h1, h2⟩
    by_cases h : s.markerFound i = true ∨ n = 0
    · rw [h1 h]
      exact attn_awaiting rfl
    · rw [not_or] at h
      rw [h2 (Bool.eq_false_iff.mpr h.1) (by omega)]
      exact attn_awaiting rfl
  · have hexec : exec (.reset cause i) s = .next ((Restarted s cause i).endStart i.warning i.cut) := by
      rw [exec_reset, startUp_found (markerFound_iff.mpr ⟨hf, hk⟩) (by rw [hc]; rintro _ ⟨⟩; exact hn), settleStart_still (Restarted s cause i) hr]
    rw [hc] at hexec
    exact ⟨_, hexec, rfl, start_brokenOff (Restarted s cause i) i.warning n (entry_reset rfl)⟩
  · have hexec := reset_settled (cause := cause) hf hk hr hm (by rw [hc]; rintro _ ⟨⟩; exact hn)
    rw [hc] at hexec
    obtain ⟨os, -, -, hbooks, hlog, -, hfront⟩ := settledStart_rest s cause i m
    have hbook (b : Book) : (SettledStart s cause i m).lib.book b = s.lib.book b := congrArg (fun v : Vector BookEntry 127 => look v b) hbooks
    have h := start_brokenOff (SettledStart s cause i m) i.warning n (entry_reset hfront)
    simp only [hbook, hlog] at h
    exact ⟨_, hexec, rfl, h⟩
  · have hfound : s.markerFound i = false := by
      unfold State.markerFound
      rcases hf with hf | hf <;> rw [hf]
      · rfl
      · exact Bool.and_false _
    obtain ⟨h1, h2⟩ := startUp_cut (s := s) (cause := cause) hc hn
    by_cases h0 : n = 0
    · subst h0
      have hu := h1 (.inr rfl)
      have hmarker : (s.begin.startUp cause i).env.formatMarker = false := by
        rw [hu, hfound]
        rfl
      obtain ⟨-, henv, -, -, -, -, -, -, -, -, -, -, -, hlog⟩ := reset_defaults (s := s.begin.startUp cause i) (cause := cause') (i := j)
      refine ⟨_, _, exec_reset, reset_blank hjc (.inl hmarker), ?_, ?_⟩
      · rw [henv]
        rfl
      · rw [hlog]
        rfl
    · have hu := h2 hfound (by omega)
      refine ⟨_, _, exec_reset, by rw [hu]; exact reset_found hjc rfl hjk rfl, ?_, ?_⟩
      · rw [finishStart_env, hjw]
        show (Restarted (CutBlank s cause i n) cause' j).env.causes = _
        unfold Restarted CutBlank
        by_cases h1 : n ≤ 1
        · rw [if_pos h1]
          simp [show ¬ 2 ≤ n by omega]
        · rw [if_neg h1]
          simp [show 2 ≤ n by omega]
      · rw [hjw]
        by_cases h3 : n = 3
        · subst h3
          exact (finishStart_starts _ false).first _ rfl
        · rw [finishStart_vacant _ cutBlank_vacant, if_pos (by omega)]
          exact if_neg h3

end Sys2Proof.Machine
end

section
-- One declaration after the other: the stacks of the threads that wait for each other count against the check's memory limit.
set_option Elab.async false
namespace Sys2Proof.Machine

section Waiting

variable {u : State}

theorem serviceArrival_starting (hs : u.env.startUp.isSome = true) (tag : Tag) (key : KeyPosition) (read : Block → Option ServiceWrite) :
    u.serviceArrival tag key read = u.begin := if_pos (by rw [show u.begin.starting = true from hs]; rfl)

theorem outcome_starting (hs : u.env.startUp.isSome = true) (d : Drive) (f : State → InService → State) : u.outcome d f = .next u.begin :=
  State.event_starting _ hs

theorem atCommand_starting (hs : u.env.startUp.isSome = true) (d : Drive) (f : State → InService → State) : u.atCommand d f = .next u.begin :=
  State.event_starting _ hs

/-- R183: a command that arrives while start-up waits is no event, but for those that start-up heeds. -/
theorem exec_starting (hs : u.env.startUp.isSome = true) (c : Instr) (hcaddy : ∀ d b, c = .caddyReport d b → ∀ w, u.env.startUp = some w → w.drive ≠ some d)
    (hpresence : ∀ j b, c ≠ .presenceChange j b) (hwarning : ∀ i, c ≠ .powerWarning i) (hend : c ≠ .holdEnd) (hreset : ∀ q j, c ≠ .reset q j) :
    exec c u = .next u.begin := by
  cases c with
  | presenceChange j b => exact absurd rfl (hpresence j b)
  | powerWarning i => exact absurd rfl (hwarning i)
  | holdEnd => exact absurd rfl hend
  | reset q j => exact absurd rfl (hreset q j)
  | caddyReport d b =>
    obtain ⟨w, hw⟩ := Option.isSome_iff_exists.mp hs
    have hb : u.begin.env.startUp = some w := hw
    show execCaddyReport d b u = _
    unfold execCaddyReport
    dsimp only
    rw [hb]
    exact congrArg Host.Outcome.next (if_neg (hcaddy d b rfl w hw))
  | fetchReadOutcome | primaryWriteOk | primaryWriteFail | twinWriteVerified | twinWriteFail | rereadOutcome | rescueReadOutcome
  | rescueWriteVerified | rescueWriteFail | patrolVerifyOutcome =>
    unfold exec
    exact outcome_starting hs _ _
  | dayClose | clearFaults | setMask | clearCauses | pickerClear | orderClose | scheduleWrite | poolAddition | poolRemoval | thresholdWrite
  | assignment | twinAddition | twinRemoval | closeBook | serviceWriteRefused =>
    unfold exec
    exact congrArg Host.Outcome.next (serviceArrival_starting hs _ _ _)
  | commandLimitExpiry =>
    unfold exec
    exact atCommand_starting hs _ _
  | _ =>
    unfold exec
    exact State.event_starting _ hs

end Waiting

section AwaitedLoad

variable {s : State} {cause : ResetCause} {i : ResetInputs} {k : Slot} {f : Face} {d : Drive}

/-- R123: the state that waits for the caddy report of a LOAD under way. -/
def AwaitingStart (s : State) (cause : ResetCause) (i : ResetInputs) (k : Slot) (f : Face) (d : Drive) : State :=
  { Restarted s cause i with
    env := { (Restarted s cause i).env with startUp := some ⟨some d, i.warning, i.cut⟩ }
    lib := (Restarted s cause i).lib.askReports (.load k f d) }

theorem reset_awaits (hf : s.env.formatMarker = true) (hk : i.memoryKept = true) (hr : s.lib.picker.record = some (.load k f d)) (hg : i.grip = false)
    (hd : d.val < i.straps) (hc : ∀ n, i.cut = some n → 4 ≤ n) : exec (.reset cause i) s = .next (AwaitingStart s cause i k f d) := by
  rw [exec_reset, startUp_found (markerFound_iff.mpr ⟨hf, hk⟩) hc, settleStart_waits (Restarted s cause i) hr hg hd]
  rfl

/-- R123: the state in which start-up goes on with the caddy report. -/
def ReportedStart (s : State) (cause : ResetCause) (i : ResetInputs) (k : Slot) (f : Face) (d : Drive) (seated : Bool) : State :=
  { (AwaitingStart s cause i k f d).begin with
    lib := (AwaitingStart s cause i k f d).begin.lib.settleRecord (.load k f d) false seated }

theorem caddy_goesOn (hr : s.lib.picker.record = some (.load k f d)) (seated : Bool) :
    exec (.caddyReport d seated) (AwaitingStart s cause i k f d) = .next ((ReportedStart s cause i k f d seated).endStart i.warning i.cut) := by
  have hrecord : (AwaitingStart s cause i k f d).begin.lib.picker.record = some (.load k f d) := hr
  show execCaddyReport d seated (AwaitingStart s cause i k f d) = _
  unfold execCaddyReport
  dsimp only
  rw [show (AwaitingStart s cause i k f d).begin.env.startUp = some ⟨some d, i.warning, i.cut⟩ from rfl]
  refine congrArg Host.Outcome.next ((if_pos rfl).trans ?_)
  unfold State.resumeStart
  rw [hrecord]
  rfl

theorem reportedStart_rest (seated : Bool) : (ReportedStart s cause i k f d seated).lib.books = s.lib.books
    ∧ (ReportedStart s cause i k f d seated).lib.picker.presence = i.presence ∧ (ReportedStart s cause i k f d seated).lib.front = Front.reset
    ∧ (ReportedStart s cause i k f d seated).lib.drives = (Restarted s cause i).lib.drives
    ∧ ∀ j, (ReportedStart s cause i k f d seated).lib.location j = if k = j ∧ seated = true then .inDrive d f else s.lib.location j := by
  obtain ⟨hbooks, -, hpresence, -, hdrives⟩ := settleRecord_books (AwaitingStart s cause i k f d).begin.lib (.load k f d) false seated
  refine ⟨hbooks, hpresence, front_settleRecord .., hdrives, fun j => ?_⟩
  refine (settleRecord_location (AwaitingStart s cause i k f d).begin.lib (.load k f d) false seated j).trans ?_
  by_cases hj : k = j
  · rw [if_pos (show (Move.load k f d).slot = j from hj), if_neg Bool.false_ne_true]
    by_cases hs : seated = true
    · rw [if_pos ⟨hj, hs⟩]
      exact if_pos hs
    · rw [if_neg fun h => hs h.2]
      exact if_neg hs
  · rw [if_neg (show ¬ (Move.load k f d).slot = j from hj), if_neg fun h => hj h.1]
    rfl

/-- R19, R123: what start-up leaves once the caddy report has come. -/
theorem start_reported (warning seated : Bool) : let w := (ReportedStart s cause i k f d seated).finishStart warning
    w.pending = s.pending ∧ w.env = { (AwaitingStart s cause i k f d).env with startUp := none, hold := warning, holdMarker := warning }
      ∧ w.fee = (AwaitingStart s cause i k f d).fee
      ∧ (∀ j, w.lib.location j = Location.compared (if k = j ∧ seated = true then .inDrive d f else s.lib.location j) (look i.presence j))
      ∧ (∀ c, (w.lib.book c).state = (s.lib.book c).state ∧ (w.lib.book c).filing = (s.lib.book c).filing) ∧ (∀ t, w.lib.entry t = none)
      ∧ ∀ c, (w.lib.drive c).lastUse = s.env.now := by
  obtain ⟨hbooks, hpresence, hfront, hdrives, hlocations⟩ := reportedStart_rest (s := s) (cause := cause) (i := i) (k := k) (f := f) (d := d) seated
  have hv : (ReportedStart s cause i k f d seated).env = { (Restarted s cause i).env with startUp := some ⟨some d, i.warning, i.cut⟩ }
      ∧ (ReportedStart s cause i k f d seated).fee = (Restarted s cause i).fee ∧ (ReportedStart s cause i k f d seated).pending = s.pending := ⟨rfl, rfl, rfl⟩
  dsimp only
  generalize ReportedStart s cause i k f d seated = v at hbooks hpresence hfront hdrives hlocations hv
  obtain ⟨hvenv, hvfee, hvpending⟩ := hv
  have hbook (b : Book) : v.lib.book b = s.lib.book b := congrArg (fun v : Vector BookEntry 127 => look v b) hbooks
  have hseated (j : Slot) : v.lib.seated j = look i.presence j := congrArg (fun v : Vector Bool 64 => look v j) hpresence
  have hdrive (c : Drive) : v.lib.drive c = .empty s.env.now := (congrArg (fun v : Vector DriveRecord 4 => look v c) hdrives).trans (restarted_drive c)
  have hstarts := finishStart_starts v warning
  refine ⟨(endStart_pending v warning none).trans hvpending, ?_, (finishStart_fee v warning).trans hvfee, fun j => ?_, fun c => ?_,
    hstarts.free (entry_reset hfront), fun c => ?_⟩
  · rw [finishStart_env, hvenv]
    cases warning <;> rfl
  · rw [finishStart_location, hlocations, hseated]
  · rw [hstarts.state, hstarts.filing, hbook]
    exact ⟨rfl, rfl⟩
  · rw [(hstarts.drive c).lastUse, hdrive]
    rfl

theorem location_compared (x : Location) (seated : Bool) : x.compared seated = match x with
    | .inSlot => if seated = true then .inSlot else .absent
    | .absent => if seated = true then .inSlot else .absent
    | x => x := by
  cases x <;> rfl

end AwaitedLoad

/-- Settles O35: the wait for the caddy report, what start-up does with it, and what it heeds meanwhile. -/
theorem startUpWaitsForCaddy : Obligations.StartUpWaitsForCaddy := by
  refine ⟨fun s cause i k f d hf hk hr hg hd hc => ⟨AwaitingStart s cause i k f d, reset_awaits hf hk hr hg hd hc, rfl, rfl, fun hcut => ⟨?_, fun b => ?_⟩, fun n b hn => ?_⟩,
    fun u od warning cut hu => ⟨fun c hcaddy hpresence hwarning hend hreset => ?_, fun j b => ?_, fun i => ⟨u.begin.noteWarning ⟨od, warning, cut⟩ true, ?_, rfl, rfl⟩,
      ⟨u.begin.noteWarning ⟨od, warning, cut⟩ false, ?_, rfl, rfl⟩⟩⟩
  · have hgo := caddy_goesOn (cause := cause) (i := i) hr true
    rw [hcut] at hgo
    obtain ⟨h1, h2, h3, h4, h5, h6, h7⟩ := start_reported (s := s) (cause := cause) (i := i) (k := k) (f := f) (d := d) i.warning true
    refine ⟨_, hgo, congrArg Env.startUp h2, ?_, h7 d, congrArg Env.hold h2⟩
    exact (h4 k).trans (by rw [if_pos ⟨rfl, rfl⟩]; rfl)
  · have hgo := caddy_goesOn (cause := cause) (i := i) hr b
    rw [hcut] at hgo
    obtain ⟨h1, h2, h3, h4, h5, h6, h7⟩ := start_reported (s := s) (cause := cause) (i := i) (k := k) (f := f) (d := d) i.warning b
    refine ⟨_, hgo, rfl, h1, h2, h3, fun j hj => ?_, h5, h6⟩
    refine (h4 j).trans ?_
    have hne : ¬ (k = j ∧ b = true) := fun hk => hj.elim (fun h => absurd (hk.2.symm.trans h) (by simp)) fun h => h hk.1.symm
    rw [if_neg hne, location_compared] <;> cases s.lib.location j <;> rfl
  · have hgo := caddy_goesOn (cause := cause) (i := i) hr b
    rw [hn] at hgo
    exact hgo
  · refine exec_starting (by rw [hu]; rfl) c (fun d b hc w hw hd => ?_) hpresence hwarning hend hreset
    rw [hu] at hw
    obtain rfl := Option.some.inj hw
    exact hcaddy d b hd hc
  · have hstarting : u.begin.starting = true := by
      show u.env.startUp.isSome = true
      rw [hu]
      rfl
    by_cases hs : u.begin.lib.seated j = b
    · refine ⟨u.begin, ?_, rfl, hs, rfl⟩
      exact congrArg Host.Outcome.next (if_pos hs)
    · refine ⟨{ u.begin with lib := u.begin.lib.setSeated j b }, ?_, rfl, look_put_same .., rfl⟩
      exact congrArg Host.Outcome.next ((if_neg hs).trans (if_pos hstarting))
  · show execPowerWarning i u = _
    unfold execPowerWarning
    dsimp only
    rw [show u.begin.env.startUp = _ from hu]
  · show execHoldEnd u = _
    unfold execHoldEnd
    dsimp only
    rw [show u.begin.env.startUp = _ from hu]

end Sys2Proof.Machine
end

section
-- One declaration after the other: the stacks of the threads that wait for each other count against the check's memory limit.
set_option Elab.async false
/-! Bursts of a FETCH: the event of a burst, and the pages of the service book as they are sent. -/

namespace Sys2Proof.Machine

section Bursts

variable {s : State} {t : Tag} {rest : List LinkJob} {x : Entry}

/-- R26, R28: the burst that is next on the link. -/
theorem nextJob_burst (hl : s.lib.front.linkBurst = none) (hr : s.lib.front.ready = .burst t :: rest) :
    s.lib.nextJob = some (.burst t) := (nextJob_head hl).trans (by rw [hr]; rfl)

/-- R26, R75: the event of a burst of a FETCH in the record books. -/
theorem exec_burst_fetch {g : Fetching} {w : Window} {ws : List Window} (count : Nat) (hs : s.env.startUp = none)
    (hl : s.lib.front.linkBurst = none) (hr : s.lib.front.ready = .burst t :: rest) (hx : s.lib.entry t = some x) (hlive : x.ended = none)
    (hjob : x.job = .fetch g) (hw : g.windows = w :: ws) :
    exec (.burstSent count) s
      = .next ((s.begin.deliver t x w (w.burst (sectorOf (x.record.addr.val + x.moved)) count)).react s.begin.lib) := by
  show execBurstSent count s = _
  unfold execBurstSent
  rw [State.event_next _ hs]
  have hj : s.begin.lib.nextJob = some (.burst t) := nextJob_burst hl hr
  have hv : x.live = true := Entry.live_iff.mpr hlive
  simp only [hj, show s.begin.lib.entry t = some x from hx, hv, if_true, hjob, hw]

/-- R26, R185: the event of a burst of a FETCH in the service book. -/
theorem exec_burst_pages (count : Nat) (hs : s.env.startUp = none) (hl : s.lib.front.linkBurst = none)
    (hr : s.lib.front.ready = .burst t :: rest) (hx : s.lib.entry t = some x) (hlive : x.ended = none) (hjob : x.job = .servicePages) :
    exec (.burstSent count) s = .next (State.finish (s.begin.deliverPages s.begin t x (min count Config.sectorsPerFrame))) := by
  show execBurstSent count s = _
  unfold execBurstSent
  rw [State.event_next _ hs]
  have hj : s.begin.lib.nextJob = some (.burst t) := nextJob_burst hl hr
  have hv : x.live = true := Entry.live_iff.mpr hlive
  simp only [hj, show s.begin.lib.entry t = some x from hx, hv, if_true, hjob]

/-- R29: the entry of a request after `n` more of its pages have been sent. -/
def Entry.paged (x : Entry) (n : Nat) : Entry :=
  { x with moved := x.moved + n, stopAddress := x.record.addr.val + (x.moved + n) - 1 }

/-- R26: what has been sent of a request is counted and goes out on the link. -/
def Library.sent (l : Library) (t : Tag) (y : Entry) (a : Nat) (data : List Sector) : Library :=
  ((l.takeBurst t).setEntry t (some y)).emit (.burst t a data)

theorem sent_entry (l : Library) (t : Tag) (y : Entry) (a : Nat) (data : List Sector) (v : Tag) :
    (l.sent t y a data).entry v = if t = v then some y else l.entry v := Library.setEntry_entry (l.takeBurst t) t v (some y)

theorem sent_sameBlocks (l : Library) (t : Tag) (y : Entry) (a : Nat) (data : List Sector) : SameBlocks l (l.sent t y a data) :=
  ⟨rfl, rfl, rfl, rfl, rfl, rfl, rfl, rfl, rfl⟩

/-- R26, R185: the pages of a burst, in block order from the next one on. -/
def Entry.pages (x : Entry) (now : State) (n : Nat) : List Sector :=
  (List.range n).map fun i => servicePage now.env now.fee now.lib (serviceBlock (x.record.addr.val + x.moved + i))

/-- R26, R34, R185: a burst of pages, of which there is one at least. -/
theorem State.deliverPages_sends (s now : State) (t : Tag) (x : Entry) {count n : Nat} (hn : min count (x.record.count.val - x.moved) = n)
    (h0 : n ≠ 0) :
    s.deliverPages now t x count
      = { s with lib := if x.moved + n = x.record.count.val
          then (s.lib.sent t (x.paged n) (x.record.addr.val + x.moved) (x.pages now n)).endRequest t .done (x.moved + n) 0
          else s.lib.sent t (x.paged n) (x.record.addr.val + x.moved) (x.pages now n) } := by
  subst hn
  unfold State.deliverPages
  dsimp only
  rw [if_neg h0]
  rfl

/-- R24: of an entry's fields, its record, its notes and its amount stand in its response. -/
theorem RequestEnds.congr {l : Library} {y : Entry} {o : Outcome} {m : Nat} (h : RequestEnds l t y o m) (hr : y.record = x.record)
    (hn : y.notes = x.notes) (ha : y.amount = x.amount) : RequestEnds l t x o m := by
  obtain ⟨he, hq⟩ := h
  rw [hr, hn, ha] at he hq
  exact ⟨he, hq⟩

/-- R26, R34, R185: what the event of a burst of pages leaves. -/
theorem burst_pages_delivered (count : Nat) (hs : s.env.startUp = none) (hl : s.lib.front.linkBurst = none)
    (hr : s.lib.front.ready = .burst t :: rest) (hx : s.lib.entry t = some x) (hlive : x.ended = none) (hjob : x.job = .servicePages)
    (h1 : 1 ≤ count) (hm : x.moved < x.record.count.val) {n : Nat} (hn : min (min count 64) (x.record.count.val - x.moved) = n) :
    ∃ u, exec (.burstSent count) s = .next u ∧ u.pending = s.pending ∧ u.env = s.env ∧ u.fee = s.fee ∧ SameBlocks s.lib u.lib
      ∧ u.lib.out = [.burst t (x.record.addr.val + x.moved) (x.pages s.begin n)]
      ∧ (∀ v, v ≠ t → u.lib.entry v = s.lib.entry v)
      ∧ (x.moved + n < x.record.count.val → ∃ y, u.lib.entry t = some y ∧ y.record = x.record ∧ y.ended = none ∧ y.moved = x.moved + n)
      ∧ (x.moved + n = x.record.count.val → RequestEnds u.lib t x .done (x.moved + n)) := by
  have h0 : n ≠ 0 := by omega
  have hsend := s.begin.deliverPages_sends s.begin t x (count := min count Config.sectorsPerFrame) hn h0
  rw [exec_burst_pages count hs hl hr hx hlive hjob, hsend]
  obtain ⟨m, hsent⟩ : ∃ m, s.begin.lib.sent t (x.paged n) (x.record.addr.val + x.moved) (x.pages s.begin n) = m := ⟨_, rfl⟩
  have hblocks : SameBlocks s.lib m := hsent ▸ s.begin_sameBlocks.trans (sent_sameBlocks ..)
  have hout : m.out = [.burst t (x.record.addr.val + x.moved) (x.pages s.begin n)] := hsent ▸ rfl
  have hentry (v : Tag) : m.entry v = if t = v then some (x.paged n) else s.lib.entry v := hsent ▸ sent_entry ..
  have hy : m.entry t = some (x.paged n) := (hentry t).trans (if_pos rfl)
  rw [hsent]
  by_cases hlast : x.moved + n = x.record.count.val
  · rw [if_pos hlast]
    have hend := endRequest_ends hy .done (x.moved + n) 0
    have hf : Ended s (State.finish { s.begin with lib := m.endRequest t .done (x.moved + n) 0 }) s.env s.fee
        (m.endRequest t .done (x.moved + n) 0) := State.finish_ended rfl
    have hwin : (x.paged n).windows = [] := by unfold Entry.windows Entry.paged; simp [hjob]
    refine ⟨_, rfl, hf.pending, hf.env, hf.fee, (hblocks.trans (hend.sameBlocks hwin)).trans hf.lib.sameBlocks,
      hf.lib.out.trans (hend.out.trans hout), fun v hv => ?_, fun h => absurd hlast (by omega), fun _ => ?_⟩
    · rw [hf.lib.entry, hend.others v hv, hentry, if_neg (Ne.symm hv)]
    · exact (hend.finished hf.lib).congr rfl rfl rfl
  · rw [if_neg hlast]
    have hf : Ended s (State.finish { s.begin with lib := m }) s.env s.fee m := State.finish_ended rfl
    refine ⟨_, rfl, hf.pending, hf.env, hf.fee, hblocks.trans hf.lib.sameBlocks, hf.lib.out.trans hout, fun v hv => ?_, fun _ => ?_,
      fun h => absurd h hlast⟩
    · rw [hf.lib.entry, hentry, if_neg (Ne.symm hv)]
    · exact ⟨x.paged n, (hf.lib.entry t).trans hy, rfl, hlive, rfl⟩

end Bursts

end Sys2Proof.Machine
end

section
-- One declaration after the other: the stacks of the threads that wait for each other count against the check's memory limit.
set_option Elab.async false
/-! The pages of the service book (chapter 11): fields that stand one after the other, and what each page reads as. -/

namespace Sys2Proof.Machine

section Layout

/-- R185: a run of fields that stand one after the other from a byte on, up to another. -/
structure Within (lo hi : Nat) (fs : List Field) : Prop where
  rising : risingFields fs
  bounds : ∀ x ∈ fs, lo ≤ x.offset ∧ x.offset + x.width ≤ hi

/-- R185: a sector from which each of the fields reads as its value. -/
def ReadsAs (p : Sector) (fs : List Field) : Prop := ∀ x ∈ fs, bytesAt p x.offset x.width = x.value % 256 ^ x.width

/-- R185: a sector that reads as zero wherever none of the fields stands. -/
def ZeroBut (p : Sector) (fs : List Field) : Prop :=
  ∀ o n, (∀ y ∈ fs, o + n ≤ y.offset ∨ y.offset + y.width ≤ o) → bytesAt p o n = 0

theorem Within.reads {hi : Nat} {fs : List Field} (h : Within 0 hi fs) (hh : hi ≤ 1024) : ReadsAs (page fs) fs := fun x hx =>
  bytesAt_page_rising fs h.rising x hx ((h.bounds x hx).2.trans hh)

theorem page_zeroBut (fs : List Field) : ZeroBut (page fs) fs := fun o n h => bytesAt_page_unnamed fs o n h

theorem Within.nil (a b : Nat) : Within a b [] := ⟨.nil, fun _ h => nomatch h⟩

theorem Within.mono {a b c d : Nat} {fs : List Field} (h : Within a b fs) (hc : c ≤ a) (hd : b ≤ d) : Within c d fs :=
  ⟨h.rising, fun x hx => ⟨hc.trans (h.bounds x hx).1, (h.bounds x hx).2.trans hd⟩⟩

theorem Within.append {a b c : Nat} {fs gs : List Field} (h : Within a b fs) (k : Within b c gs) (hab : a ≤ b) (hbc : b ≤ c) :
    Within a c (fs ++ gs) where
  rising := List.pairwise_append.mpr ⟨h.rising, k.rising, fun x hx y hy => (h.bounds x hx).2.trans (k.bounds y hy).1⟩
  bounds x hx := by
    rcases List.mem_append.mp hx with hx | hx
    · exact ⟨(h.bounds x hx).1, (h.bounds x hx).2.trans hbc⟩
    · exact ⟨hab.trans (k.bounds x hx).1, (k.bounds x hx).2⟩

/-- R185: the fields of records that stand one after the other. -/
theorem Within.flatMap {α : Type} {xs : List α} {f : α → List Field} {lo hi : α → Nat} {a b : Nat}
    (hf : ∀ x ∈ xs, Within (lo x) (hi x) (f x)) (hxs : xs.Pairwise fun x y => hi x ≤ lo y) (hab : ∀ x ∈ xs, a ≤ lo x ∧ hi x ≤ b) :
    Within a b (xs.flatMap f) where
  rising := List.pairwise_flatMap.mpr ⟨fun x hx => (hf x hx).rising, hxs.imp_of_mem fun {x y} hx hy h u hu v hv =>
    ((hf x hx).bounds u hu).2.trans (h.trans ((hf y hy).bounds v hv).1)⟩
  bounds u hu := by
    obtain ⟨x, hx, hu⟩ := List.mem_flatMap.mp hu
    exact ⟨(hab x hx).1.trans ((hf x hx).bounds u hu).1, ((hf x hx).bounds u hu).2.trans (hab x hx).2⟩

/-- R185: records of one width, numbered from 0 on. -/
theorem Within.records {n : Nat} {f : Fin n → List Field} (base step : Nat)
    (hf : ∀ i : Fin n, Within (base + step * i.val) (base + step * i.val + step) (f i)) :
    Within base (base + step * n) ((List.finRange n).flatMap f) := by
  have hstep {i j : Nat} (h : i < j) : base + step * i + step ≤ base + step * j := by
    have := Nat.mul_le_mul_left step (Nat.succ_le_of_lt h)
    rw [Nat.mul_succ] at this
    omega
  exact .flatMap (fun i _ => hf i) ((List.pairwise_lt_finRange n).imp fun h => hstep h) fun i _ => ⟨Nat.le_add_right .., hstep i.isLt⟩

/-- R185: the same of records numbered by naturals. -/
theorem Within.rows {n : Nat} {f : Nat → List Field} (base step : Nat)
    (hf : ∀ i, i < n → Within (base + step * i) (base + step * i + step) (f i)) :
    Within base (base + step * n) ((List.range n).flatMap f) := by
  have hstep {i j : Nat} (h : i < j) : base + step * i + step ≤ base + step * j := by
    have := Nat.mul_le_mul_left step (Nat.succ_le_of_lt h)
    rw [Nat.mul_succ] at this
    omega
  exact .flatMap (fun i hi => hf i (List.mem_range.mp hi)) (List.pairwise_lt_range.imp fun h => hstep h)
    fun i hi => ⟨Nat.le_add_right .., hstep (List.mem_range.mp hi)⟩

variable {p : Sector}

@[simp] theorem readsAs_nil : ReadsAs p [] ↔ True := ⟨fun _ => trivial, fun _ _ h => nomatch h⟩

@[simp] theorem readsAs_cons {x : Field} {fs : List Field} :
    ReadsAs p (x :: fs) ↔ bytesAt p x.offset x.width = x.value % 256 ^ x.width ∧ ReadsAs p fs := List.forall_mem_cons

@[simp] theorem readsAs_append {fs gs : List Field} : ReadsAs p (fs ++ gs) ↔ ReadsAs p fs ∧ ReadsAs p gs := List.forall_mem_append

@[simp] theorem readsAs_flatMap {α : Type} {xs : List α} {f : α → List Field} :
    ReadsAs p (xs.flatMap f) ↔ ∀ x ∈ xs, ReadsAs p (f x) := by
  simp only [ReadsAs, List.mem_flatMap]
  exact ⟨fun h x hx y hy => h y ⟨x, hx, hy⟩, fun h y ⟨x, hx, hy⟩ => h x hx y hy⟩

end Layout

section Codes

theorem flagByte_eq (b : Bool) : flagByte b = bitOf b := rfl

theorem optByte_mod {n : Nat} (hn : n ≤ 256) (x : Option (Fin n)) : optByte x % 256 = byteOf x := by
  cases x with
  | none => rfl
  | some i => exact Nat.mod_eq_of_lt (i.isLt.trans_le hn)

theorem bitOf_mod (b : Bool) : bitOf b % 256 = bitOf b := by cases b <;> rfl

theorem fin_mod {n : Nat} (hn : n ≤ 256) (i : Fin n) : i.val % 256 = i.val := Nat.mod_eq_of_lt (i.isLt.trans_le hn)

end Codes

section Pages

variable {p : Sector}

/-- A field is read by its first byte, however that is written. -/
theorem bytesAt_of {o o' w v : Nat} (h : bytesAt p o w = v) (e : o' = o) : bytesAt p o' w = v := e ▸ h

theorem tallyPage_within (day : Nat) (t : Tallies) : Within 0 272 (tallyPage day t) := by
  unfold tallyPage
  exact .append (b := 208)
    (.append (b := 16) ⟨by simp, by simp⟩ (.records (n := 16) 16 12 fun k => ⟨by simp, by simp⟩) (by omega) (by omega))
    (.records (n := 8) 208 8 fun c => ⟨by simp, by simp⟩) (by omega) (by omega)

theorem tallyPage_reads (day : Nat) (t : Tallies) : TallyPageReads day t (page (tallyPage day t)) := by
  have h := (tallyPage_within day t).reads (by omega)
  revert h
  generalize page (tallyPage day t) = p
  intro h
  simp only [tallyPage, readsAs_append, readsAs_cons, readsAs_nil, readsAs_flatMap, flagByte_eq, bitOf_mod, allStations, List.mem_finRange,
    forall_const, and_true, Nat.reducePow] at h
  obtain ⟨⟨⟨h0, h2, h4, h8, h12, h14⟩, hs⟩, hc⟩ := h
  refine ⟨h0, h2, h4, h8, h12, h14, fun k => ?_, fun c => ?_⟩
  · obtain ⟨ha, hp, ho⟩ := hs k
    exact ⟨ha, bytesAt_of hp (by omega), bytesAt_of ho (by omega)⟩
  · obtain ⟨ha, hp⟩ := hc c
    exact ⟨ha, bytesAt_of hp (by omega)⟩

theorem code_getElem_drive (v : DriveState) :
    [DriveState.empty, .loading, .spinUp, .ready, .active, .stopped, .spinDown, .unloading, .failed][v.code % 256]? = some v := by
  cases v <;> rfl

theorem code_getElem_picker (v : PickerState) : [PickerState.idle, .moving, .retry, .faulted][v.code % 256]? = some v := by
  cases v <;> rfl

theorem code_getElem_book (v : BookState) : [BookState.unassigned, .opened, .closed][v.code % 256]? = some v := by
  cases v <;> rfl

theorem code_getElem_twin (v : TwinState) : [TwinState.none, .caughtUp, .working, .paused, .blocked][v.code % 256]? = some v := by
  cases v <;> rfl

/-! Status, Table 11-3 -/

theorem driveFields_within (e : Env) (l : Library) (d : Drive) : Within (8 + 6 * d.val) (8 + 6 * d.val + 6) (driveFields e l d) := by
  unfold driveFields
  by_cases h : e.hasDrive d = true
  · rw [if_pos h]; exact ⟨by simp, by simp⟩
  · rw [if_neg h]; exact .nil _ _

theorem statusPage_within (e : Env) (l : Library) : Within 0 32 (statusPage e l) := by
  unfold statusPage
  exact .append (b := 8) ⟨by simp, by simp⟩ (.records (n := 4) 8 6 fun d => driveFields_within e l d) (by omega) (by omega)

/-- A drive that is not configured has no fields. -/
theorem statusPage_apart (e : Env) (l : Library) (d : Drive) (hd : e.configured ≤ d.val) :
    ∀ y ∈ statusPage e l, 8 + 6 * d.val + 6 ≤ y.offset ∨ y.offset + y.width ≤ 8 + 6 * d.val := by
  unfold statusPage
  refine List.forall_mem_append.mpr ⟨by simp; omega, fun y hy => ?_⟩
  obtain ⟨c, -, hy⟩ := List.mem_flatMap.mp hy
  have hb := (driveFields_within e l c).bounds y hy
  have hne : c.val ≠ d.val := fun hc => by
    unfold driveFields at hy
    rw [if_neg (by simp [Env.hasDrive]; omega)] at hy
    cases hy
  omega

theorem statusPage_reads (e : Env) (l : Library) : StatusPageReads e l (page (statusPage e l)) := by
  have h := (statusPage_within e l).reads (by omega)
  have hz := page_zeroBut (statusPage e l)
  revert h hz
  generalize page (statusPage e l) = p
  intro h hz
  have hout : bytesAt p 32 992 = 0 := hz 32 992 fun y hy => .inr ((statusPage_within e l).bounds y hy).2
  have hnone (d : Drive) (hd : e.configured ≤ d.val) : bytesAt p (8 + 6 * d.val) 6 = 0 := hz _ _ (statusPage_apart e l d hd)
  simp only [statusPage, readsAs_append, readsAs_cons, readsAs_nil, readsAs_flatMap, flagByte_eq, bitOf_mod, allDrives, List.mem_finRange,
    forall_const, and_true, Nat.reducePow, Nat.pow_one, optByte_mod (n := 128) (by omega)] at h
  obtain ⟨⟨h0, h1, h2, h3, h4, h6, h7⟩, hd⟩ := h
  have hlive : l.liveEntries < 256 := lt_of_le_of_lt (List.length_filter_le _ _) (by simp [allTags])
  refine ⟨h0, ?_, h2, h3.trans (Nat.mod_eq_of_lt hlive), h4, h6, h7, fun d hd' => ?_, hnone, hout⟩
  · rw [h1]; exact code_getElem_picker _
  · have hr := hd d
    unfold driveFields at hr
    rw [if_pos (by simpa [Env.hasDrive] using hd')] at hr
    simp only [readsAs_cons, readsAs_nil, flagByte_eq, bitOf_mod, and_true, Nat.pow_one, optByte_mod (n := 128) (by omega)] at hr
    obtain ⟨r0, r1, r2, r3, r4, r5⟩ := hr
    refine ⟨?_, bytesAt_of r1 (by omega), bytesAt_of r2 (by omega), bytesAt_of r3 (by omega), bytesAt_of r4 (by omega), bytesAt_of r5 (by omega)⟩
    rw [r0]; exact code_getElem_drive _

end Pages

end Sys2Proof.Machine
end

section
-- One declaration after the other: the stacks of the threads that wait for each other count against the check's memory limit.
set_option Elab.async false
/-! The fault page and the picker page (Tables 11-6 and 11-7). -/

namespace Sys2Proof.Machine

section FaultPage

/-- Table 11-2: the fault kinds in the order of their codes, from 1 on. -/
def faultKinds : List FaultKind :=
  [.pickerFault, .driveFailed, .readUncorrectable, .writeFailed, .frameLost, .noBlank, .rescueQueueFull, .cartridgeMissing,
    .tallySaturated, .powerWarning, .recordMemoryBlank]

theorem code_getElem_fault (k : FaultKind) : 1 ≤ k.code % 256 ∧ faultKinds[k.code % 256 - 1]? = some k := by
  cases k <;> exact ⟨by decide, rfl⟩

theorem faultKinds_getElem {i : Nat} {k : FaultKind} (h : faultKinds[i]? = some k) : i = k.code - 1 := by
  obtain ⟨hi, h⟩ := List.getElem?_eq_some_iff.mp h
  have hi' : i < 11 := hi
  interval_cases i <;> (subst h; rfl)

/-- R191: the bit of a kind in the two bytes of a set. -/
theorem kindSet_testBit {s : KindSet} {i : Nat} {k : FaultKind} (h : faultKinds[i]? = some k) : (s.toNat % 65536).testBit i = KindSet.has s k := by
  rw [Nat.mod_eq_of_lt (lt_trans s.isLt (by omega)), faultKinds_getElem h]
  rfl

theorem causes_code_mod (c : ResetCauses) :
    c.code % 256 = bitOf c.powerOn + 2 * bitOf c.resetLine + 4 * bitOf c.afterWarning := by
  obtain ⟨a, b, c⟩ := c
  cases a <;> cases b <;> cases c <;> rfl

theorem faultPage_within (e : Env) (g : FaultLog) : Within 0 19 (faultPage e g) := ⟨by simp [faultPage], by simp [faultPage]⟩

theorem faultPage_reads (e : Env) (g : FaultLog) : FaultPageReads e g (page (faultPage e g)) := by
  have h := (faultPage_within e g).reads (by omega)
  revert h
  generalize page (faultPage e g) = p
  intro h
  simp only [faultPage, readsAs_cons, readsAs_nil, and_true, Nat.reducePow, Nat.pow_one] at h
  obtain ⟨h0, h1, h2, h3, h4, h6, h7, h8, h10, h12, h14, h16, h18⟩ := h
  refine ⟨fun hf => ?_, fun r hf => ?_, fun i k hk => ?_, h14, h18.trans (causes_code_mod _)⟩
  · rw [hf] at h0 h1 h2 h3 h4 h6 h7 h8 h10
    exact ⟨h0, h1, h2, h3, h4, h6, h7, h8, h10⟩
  · rw [hf] at h0 h1 h2 h3 h4 h6 h7 h8 h10
    have hk := code_getElem_fault r.kind
    have h1' : bytesAt p 1 1 = r.kind.code % 256 := h1
    refine ⟨h0, h1' ▸ hk.1, h1' ▸ hk.2, h2.trans (optByte_mod (by omega) _), h3.trans (optByte_mod (by omega) _), h4,
      h6.trans (optByte_mod (by omega) _), h7.trans (optByte_mod (by omega) _), h8.trans (optByte_mod (by omega) _), h10⟩
  · rw [h12, h16]
    exact ⟨kindSet_testBit hk, kindSet_testBit hk⟩

end FaultPage

section PickerPage

theorem moveFields_within (o : Nat) (m : Option Move) : Within o (o + 4) (moveFields o m) := ⟨by simp [moveFields], by simp [moveFields]⟩

theorem optFace_mod (f : Face) : optFace (some f) % 256 = if f = .a then 0 else 1 := by cases f <;> rfl

/-- Table 11-7: the four bytes of a move. -/
theorem moveFields_reads {p : Sector} {o : Nat} {m : Option Move} (h : ReadsAs p (moveFields o m)) : MoveReads p o m := by
  unfold moveFields at h
  simp only [readsAs_cons, readsAs_nil, and_true, Nat.pow_one] at h
  obtain ⟨h0, h1, h2, h3⟩ := h
  cases m with
  | none => exact ⟨h0, h1, h2, h3⟩
  | some m =>
    cases m with
    | load s f d => exact ⟨h0, h1.trans (optByte_mod (by omega) (some s)), h2.trans (optFace_mod f), h3.trans (optByte_mod (by omega) (some d))⟩
    | back s od q => exact ⟨h0, h1.trans (optByte_mod (by omega) (some s)), h2, h3.trans (optByte_mod (by omega) od)⟩

theorem pickerPage_within (l : Library) : Within 0 320 (pickerPage l) := by
  unfold pickerPage
  exact .append (b := 64)
    (.append (b := 8)
      (.append (b := 6) (.append (b := 2) ⟨by simp, by simp⟩ (moveFields_within 2 _) (by omega) (by omega)) ⟨by simp, by simp⟩ (by omega) (by omega))
      ((Within.rows (n := 8) 8 4 fun i _ => moveFields_within (8 + 4 * i) _).mono (by omega) (by omega)) (by omega) (by omega))
    (.records (n := 64) 64 4 fun s => ⟨by simp, by simp⟩) (by omega) (by omega)

theorem pickerPage_reads (l : Library) : PickerPageReads l (page (pickerPage l)) := by
  have h := (pickerPage_within l).reads (by omega)
  revert h
  generalize page (pickerPage l) = p
  intro h
  simp only [pickerPage, readsAs_append, readsAs_cons, readsAs_nil, readsAs_flatMap, allSlots, List.mem_finRange, List.mem_range,
    forall_const, and_true, Nat.pow_one] at h
  obtain ⟨⟨⟨⟨⟨h0, h1⟩, hm⟩, h6, h7⟩, hms⟩, hs⟩ := h
  refine ⟨?_, h1.trans (bitOf_mod _), moveFields_reads hm, h6.trans ?_, h7, fun i hi => moveFields_reads (hms i hi), fun k => ?_⟩
  · rw [h0]; exact code_getElem_picker _
  · cases l.picker.record with
    | none => rfl
    | some m => cases l.picker.state <;> rfl
  · obtain ⟨k0, k1, k2, k3⟩ := hs k
    refine ⟨(bytesAt_of k3 (by omega)).trans (bitOf_mod _), ?_⟩
    have k1' := bytesAt_of k1 (o' := 65 + 4 * k.val) (by omega)
    have k2' := bytesAt_of k2 (o' := 66 + 4 * k.val) (by omega)
    cases hl : l.location k with
    | inSlot => rw [hl] at k0 k1' k2'; exact ⟨k0, k1', k2'⟩
    | inDrive d f =>
      rw [hl] at k0 k1' k2'
      exact ⟨k0, k1'.trans (optByte_mod (by omega) (some d)), k2'.trans (optFace_mod f)⟩
    | inPicker => rw [hl] at k0 k1' k2'; exact ⟨k0, k1', k2'⟩
    | absent => rw [hl] at k0 k1' k2'; exact ⟨k0, k1', k2'⟩

end PickerPage

end Sys2Proof.Machine
end

section
-- One declaration after the other: the stacks of the threads that wait for each other count against the check's memory limit.
set_option Elab.async false
/-! The other pages of the service book (Tables 11-5 and 11-8 to 11-14), and the block map that gives each its block. -/

namespace Sys2Proof.Machine

section SmallPages

theorem orderPage_reads (e : Env) (f : Fee) (k : Station) : OrderPageReads e f k (page (orderPage e f k)) := by
  have hw : Within 0 20 (orderPage e f k) := by
    unfold orderPage
    cases look f.orders k <;> exact ⟨by simp, by simp⟩
  have h := hw.reads (by omega)
  revert h
  generalize page (orderPage e f k) = p
  intro h
  unfold orderPage at h
  cases ho : look f.orders k with
  | none =>
    rw [ho] at h
    simp only [readsAs_cons, readsAs_nil, and_true, Nat.reducePow, Nat.pow_one] at h
    obtain ⟨h0, h1, h2, h4, h5, h6, h8, -, -⟩ := h
    exact ⟨fun _ => ⟨h0, h1, h2, h4, h5, h6, h8⟩, fun o h => absurd (ho.symm.trans h) (by simp)⟩
  | some o =>
    rw [ho] at h
    simp only [readsAs_cons, readsAs_nil, and_true, Nat.reducePow, Nat.pow_one] at h
    obtain ⟨h0, h1, h2, h4, h5, h6, h8, h12, h16⟩ := h
    refine ⟨fun h => absurd (ho.symm.trans h) (by simp), fun o' h' => ?_⟩
    obtain rfl : o = o' := by rw [ho] at h'; exact Option.some.inj h'
    refine ⟨h0, h1.trans (fin_mod (by omega) _), h2, h4.trans (fin_mod (by omega) _), ?_, h6.trans (bitOf_mod _), h8, h12, h16⟩
    rw [h5]
    unfold Order.mode
    cases o.certified <;> rfl

theorem schedulePage_reads (c : Schedule) : SchedulePageReads c (page (schedulePage c)) := by
  have hw : Within 0 85 (schedulePage c) := by
    unfold schedulePage
    exact .append (b := 80) ((Within.records (n := 8) 0 10 fun k => ⟨by simp, by simp⟩).mono (by omega) (by omega))
      ⟨by simp, by simp⟩ (by omega) (by omega)
  have h := hw.reads (by omega)
  revert h
  generalize page (schedulePage c) = p
  intro h
  simp only [schedulePage, readsAs_append, readsAs_cons, readsAs_nil, readsAs_flatMap, List.mem_finRange, forall_const, and_true,
    Nat.reducePow, Nat.pow_one] at h
  obtain ⟨hk, h80, h84⟩ := h
  exact ⟨hk, h80, h84⟩

theorem bookPage_reads (l : Library) (b : Book) : BookPageReads l b (page (bookPage l b)) := by
  have hw : Within 0 10 (bookPage l b) := ⟨by simp [bookPage], by simp [bookPage]⟩
  have h := hw.reads (by omega)
  revert h
  generalize page (bookPage l b) = p
  intro h
  simp only [bookPage, readsAs_cons, readsAs_nil, and_true, Nat.reducePow, Nat.pow_one] at h
  obtain ⟨h0, h1, h2, h3, h4, h6, h8⟩ := h
  refine ⟨?_, h1.trans (optByte_mod (by omega) _), h2.trans (optByte_mod (by omega) _), ?_, h4, h6, h8⟩
  · rw [h0]; exact code_getElem_book _
  · rw [h3]; exact code_getElem_twin _

theorem rescuePage_reads (e : Env) (c : Care) : RescuePageReads e c (page (rescuePage e c)) := by
  have hq : Within 9 17 ((List.range 8).map fun i => (⟨9 + i, 1, optByte c.queue[i]?⟩ : Field)) := by
    rw [List.map_eq_flatMap]
    exact (Within.rows (n := 8) 9 1 fun i _ => ⟨by simp, by simp⟩).mono (by omega) (by omega)
  have hw : Within 0 22 (rescuePage e c) := by
    unfold rescuePage
    exact .append (b := 17) (.append (b := 9) ⟨by simp, by simp⟩ hq (by omega) (by omega)) ⟨by simp, by simp⟩ (by omega) (by omega)
  have h := hw.reads (by omega)
  revert h
  generalize page (rescuePage e c) = p
  intro h
  simp only [rescuePage, readsAs_append, readsAs_cons, readsAs_nil, and_true, Nat.reducePow, Nat.pow_one] at h
  obtain ⟨⟨⟨h0, h1, h2, h3, h4, h5, h6, h8⟩, hl⟩, h20⟩ := h
  refine ⟨fun hr => ?_, fun r hr => ?_, h8, fun i hi => ?_, h20⟩
  · rw [hr] at h0 h1 h2 h3 h4 h5 h6
    exact ⟨h0, h1, h2, h3, h4, h5, h6⟩
  · rw [hr] at h0 h1 h2 h3 h4 h5 h6
    refine ⟨h0, h1.trans (optByte_mod (by omega) (some r.source)), ?_, h3.trans (optByte_mod (by omega) (some r.book)),
      h4.trans (optByte_mod (by omega) r.target), h5.trans (bitOf_mod _), h6⟩
    rw [h2]
    simp only [Option.map_some, Option.getD_some]
    cases r.ofTwin <;> rfl
  · exact (hl ⟨9 + i, 1, _⟩ (List.mem_map.mpr ⟨i, List.mem_range.mpr hi, rfl⟩)).trans (optByte_mod (by omega) _)

/-- Table 11-10: the numbers of the pool's sides stand from byte 2 on. -/
theorem poolNumbers_within (xs : List Side) (o : Nat) : Within o (o + xs.length) (xs.mapIdx fun i s => (⟨o + i, 1, s.val⟩ : Field)) := by
  refine ⟨?_, fun x hx => ?_⟩
  · refine List.pairwise_iff_getElem.mpr ?_
    intro i j hi hj hij
    simp only [List.getElem_mapIdx]
    omega
  · obtain ⟨i, hi, rfl⟩ := List.mem_mapIdx.mp hx
    simp only
    omega

theorem pool_length_le (l : Library) : l.pool.length ≤ 128 := (List.length_filter_le _ _).trans (by simp [allSides])

theorem poolPage_within (l : Library) : Within 0 (2 + l.pool.length) (poolPage l) :=
  .append (fs := [⟨0, 1, l.pool.length⟩]) (b := 2) ⟨by simp, by simp⟩ (poolNumbers_within l.pool 2) (by omega) (by omega)

theorem poolPage_reads (l : Library) : PoolPageReads l (page (poolPage l)) := by
  have hn := pool_length_le l
  have hw := poolPage_within l
  have h := hw.reads (by omega)
  have hz := page_zeroBut (poolPage l)
  revert h hz
  generalize page (poolPage l) = p
  intro h hz
  unfold poolPage at h hz
  rw [readsAs_cons] at h
  obtain ⟨h0, hi⟩ := h
  refine ⟨h0.trans (Nat.mod_eq_of_lt (show l.pool.length < 256 by omega)), hz 1 1 ?_, fun i q hq => ?_, fun i hlo hhi => hz _ _ ?_⟩
  · refine List.forall_mem_cons.mpr ⟨.inr (by simp), fun y hy => .inl ?_⟩
    exact ((poolNumbers_within l.pool 2).bounds y hy).1
  · obtain ⟨hlt, hq⟩ := List.getElem?_eq_some_iff.mp (show l.pool[i]? = some q from hq)
    exact (hi ⟨2 + i, 1, q.val⟩ (List.mem_mapIdx.mpr ⟨i, hlt, by rw [hq]⟩)).trans (fin_mod (by omega) q)
  · refine fun y hy => .inr ((hw.bounds y hy).2.trans ?_)
    exact Nat.add_le_add_left hlo 2

theorem sideFields_within (l : Library) (q : Side) : Within (16 * (q.val % 64)) (16 * (q.val % 64) + 16) (sideFields l q) :=
  ⟨by simp [sideFields], by simp [sideFields]⟩

theorem sidesPage_within (l : Library) (half : Nat) : Within 0 1024 (sidesPage l half) := by
  unfold sidesPage
  refine .flatMap (fun q _ => sideFields_within l q) ?_ fun q _ => ⟨by omega, by omega⟩
  refine ((List.pairwise_lt_finRange 128).filter _).imp_of_mem fun {a b} ha hb hab => ?_
  have ha' : a.val / 64 = half := by simpa using (List.mem_filter.mp ha).2
  have hb' : b.val / 64 = half := by simpa using (List.mem_filter.mp hb).2
  have hab' : a.val < b.val := hab
  omega

theorem sidesPage_reads (l : Library) (q : Side) : SideReads l q (page (sidesPage l (q.val / 64))) := by
  have h := (sidesPage_within l (q.val / 64)).reads (by omega)
  revert h
  generalize page (sidesPage l (q.val / 64)) = p
  intro h
  unfold sidesPage at h
  rw [readsAs_flatMap] at h
  have hq := h q (List.mem_filter.mpr ⟨List.mem_finRange q, by simp⟩)
  unfold sideFields at hq
  simp only [readsAs_cons, readsAs_nil, and_true, Nat.reducePow, Nat.pow_one] at hq
  obtain ⟨h0, h1, h2, h4, h6, h8⟩ := hq
  refine ⟨?_, h2, h4, h6, h8⟩
  cases hr : l.role q with
  | unlisted => rw [hr] at h0 h1; exact ⟨h0, h1⟩
  | blank => rw [hr] at h0 h1; exact ⟨h0, h1⟩
  | primary b => rw [hr] at h0 h1; exact ⟨h0, h1.trans (optByte_mod (by omega) (some b))⟩
  | twin b => rw [hr] at h0 h1; exact ⟨h0, h1.trans (optByte_mod (by omega) (some b))⟩
  | rescueTarget b => rw [hr] at h0 h1; exact ⟨h0, h1.trans (optByte_mod (by omega) (some b))⟩
  | retired b => rw [hr] at h0 h1; exact ⟨h0, h1.trans (optByte_mod (by omega) (some b))⟩

theorem dayPage_reads (e : Env) : bytesAt (page (dayPage e)) 0 2 = e.day % 65536 ∧ bytesAt (page (dayPage e)) 2 1022 = 0 := by
  have hw : Within 0 2 (dayPage e) := ⟨by simp [dayPage], by simp [dayPage]⟩
  exact ⟨hw.reads (by omega) ⟨0, 2, e.day⟩ (by simp [dayPage]), page_zeroBut _ 2 1022 fun y hy => .inr (hw.bounds y hy).2⟩

/-- Table 11-14: the two bytes of an entry. -/
theorem directoryReads_of {x : Frame} {o : Nat} {p : Sector} (h0 : bytesAt p o 1 = x.code % 256) (h1 : bytesAt p (o + 1) 1 = x.length % 256) :
    DirectoryReads x o p := by
  cases x with
  | blank => exact ⟨h0, h1⟩
  | head c n => exact ⟨h0.trans (Nat.mod_eq_of_lt (by simp only [Frame.code]; omega)), h1⟩
  | cont c n => exact ⟨h0.trans (Nat.mod_eq_of_lt (by simp only [Frame.code]; omega)), h1⟩
  | void => exact ⟨h0, h1⟩
  | lost wasHead c =>
    refine ⟨h0.trans ?_, h1⟩
    cases wasHead <;> exact Nat.mod_eq_of_lt (by simp only [Frame.code]; simp; omega)

theorem directoryPage_reads (e : Env) (b : Book) (k i : Nat) (hi : i < 512) :
    DirectoryReads (e.frame b (512 * k + i)) (2 * i) (page (directoryPage e b k)) := by
  have hw : Within 0 1024 (directoryPage e b k) := by
    unfold directoryPage
    exact (Within.rows (n := 512) 0 2 fun i _ => ⟨by simp, by simp⟩).mono (by omega) (by omega)
  have h := hw.reads (by omega)
  revert h
  generalize page (directoryPage e b k) = p
  intro h
  unfold directoryPage at h
  rw [readsAs_flatMap] at h
  have hr := h i (List.mem_range.mpr hi)
  simp only [readsAs_cons, readsAs_nil, and_true, Nat.pow_one] at hr
  exact directoryReads_of hr.1 hr.2

end SmallPages

end Sys2Proof.Machine
end

section
-- One declaration after the other: the stacks of the threads that wait for each other count against the check's memory limit.
set_option Elab.async false
/-! Service pages: the page of every block, and their delivery. -/

namespace Sys2Proof.Machine

section Blocks

theorem blockOf_sides (q : Side) : blockOf (35 + q.val / 64) = .sides (q.val / 64) := by
  rcases (show q.val / 64 = 0 ∨ q.val / 64 = 1 by omega) with h | h <;> rw [h] <;> rfl

theorem blockOf_directory (b : Book) {k : Nat} (hk : k < 8) : blockOf (1024 + 8 * b.val + k) = .directory b k := by
  have hb := b.isLt
  unfold blockOf
  rw [if_neg (by omega), if_neg (by omega), if_neg (by omega), if_neg (by omega), if_neg (by omega), if_neg (by omega), if_neg (by omega), if_neg (by omega),
    if_neg (by omega), if_neg (by omega), if_neg (by omega), if_neg (by omega), if_pos (by omega),
    show (1024 + 8 * b.val + k - 1024) / 8 = b.val by omega, show (1024 + 8 * b.val + k - 1024) % 8 = k by omega, asIndex_val]

/-- Table 11-1: a number that the block map does not name. -/
theorem blockOf_unnamed {n : Nat} (h : ¬ (n ≤ 5 ∨ (16 ≤ n ∧ n ≤ 36) ∨ (64 ≤ n ∧ n ≤ 190) ∨ (1024 ≤ n ∧ n ≤ 2039))) : blockOf n = .other := by
  unfold blockOf
  rw [if_neg (by omega), if_neg (by omega), if_neg (by omega), if_neg (by omega), if_neg (by omega), if_neg (by omega), if_neg (by omega), if_neg (by omega),
    if_neg (by omega), if_neg (by omega), if_neg (by omega), if_neg (by omega), if_neg (by omega)]

/-- R185, Table 11-1: a page is laid out as its block's table says. -/
theorem servicePage_reads (e : Env) (f : Fee) (l : Library) (n : Nat) : PageReads e f l n (servicePage e f l n) := by
  unfold servicePage
  refine ⟨?_, ?_, ?_, ?_, ?_, ?_, ?_, ?_, ?_, ?_, ?_, ?_, ?_, fun h => ?_⟩
  · rintro rfl; exact statusPage_reads e l
  · rintro rfl; exact tallyPage_reads e.day f.tallies
  · rintro rfl; exact tallyPage_reads f.closedDay f.closedTallies
  · rintro rfl; exact dayPage_reads e
  · rintro rfl; exact faultPage_reads e l.log
  · rintro rfl; exact pickerPage_reads l
  · rintro k rfl; rw [blockOf_order]; exact orderPage_reads e f k
  · rintro rfl; exact schedulePage_reads f.schedule
  · rintro rfl; exact poolPage_reads l
  · rintro rfl; exact rescuePage_reads e l.care
  · rintro q rfl; rw [blockOf_sides]; exact sidesPage_reads l q
  · rintro b rfl; rw [blockOf_book]; exact bookPage_reads l b
  · rintro b k i hk rfl hi; rw [blockOf_directory b hk]; exact directoryPage_reads e b k i hi
  · rw [blockOf_unnamed h]
    exact page_zeroBut [] 0 1024 fun y hy => nomatch hy

/-- Settles O14: the burst carries the pages that the event found, and each page its fields at their bytes, none of which another field shares. -/
theorem servicePagesDelivered : Obligations.ServicePagesDelivered :=
  ⟨fun _ _ _ _ count hs hl hr hx hlive hjob h1 hm => burst_pages_delivered count hs hl hr hx hlive hjob h1 hm rfl,
    servicePage_reads⟩

end Blocks

end Sys2Proof.Machine
end

section
-- One declaration after the other: the stacks of the threads that wait for each other count against the check's memory limit.
set_option Elab.async false
/-! Bursts of a FETCH in the record books: what the delivery of a burst and its offer leave, before the reactions. -/

namespace Sys2Proof.Machine

section Offers

variable {e : Env} {f : Fee} {l : Library} {o : Offer}

/-- R148: the request of an offer takes its charge. -/
def Library.takeCharge (l : Library) (t : Tag) (c : Charge) : Library :=
  match l.entry t with
  | some y => l.setEntry t (some (y.charge c))
  | none => l

theorem takeCharge_entry (l : Library) (t : Tag) (c : Charge) (v : Tag) :
    (l.takeCharge t c).entry v = if t = v then (l.entry v).map fun y => y.charge c else l.entry v := by
  unfold Library.takeCharge
  cases ht : l.entry t with
  | none =>
    by_cases hv : t = v
    · rw [if_pos hv, ← hv, ht]; rfl
    · rw [if_neg hv]
  | some y =>
    refine (Library.setEntry_entry ..).trans ?_
    by_cases hv : t = v
    · rw [if_pos hv, if_pos hv, ← hv, ht]; rfl
    · rw [if_neg hv, if_neg hv]

/-- A charge touches the Request Table alone. -/
theorem takeCharge_rest (l : Library) (t : Tag) (c : Charge) :
    l.takeCharge t c = { l with front := { l.front with table := (l.takeCharge t c).front.table } } := by
  unfold Library.takeCharge
  cases l.entry t <;> rfl

/-- R154, R177: the library that an offer leaves, with TALLY_SATURATED at the first saturation of the day. -/
def Library.offered (e : Env) (f : Fee) (l : Library) (o : Offer) : Library := (takeOffer e f l o).2

theorem offered_eq : l.offered e f o
    = if (f.take e.now e.hold o).1.tallies.saturated && !f.tallies.saturated
      then (l.takeCharge o.tag (f.take e.now e.hold o).2).faultTally e o else l.takeCharge o.tag (f.take e.now e.hold o).2 := rfl

/-- R148: the request of an offer takes its charge, and no other request changes. -/
theorem offered_entry (v : Tag) : (l.offered e f o).entry v
    = if o.tag = v then (l.entry v).map fun y => y.charge (f.take e.now e.hold o).2 else l.entry v := by
  rw [offered_eq, ← takeCharge_entry l o.tag _ v]
  split <;> rfl

/-- An offer touches the Request Table and the Fault Log alone. -/
theorem offered_rest : l.offered e f o
    = { l with front := { l.front with table := (l.offered e f o).front.table }, log := (l.offered e f o).log } := by
  rw [offered_eq]
  generalize (f.take e.now e.hold o).2 = c
  have h := takeCharge_rest l o.tag c
  generalize l.takeCharge o.tag c = m at h
  split
  · rw [h]; rfl
  · rw [h]

/-- R154, R177: the record of the first saturation of the day. -/
def Offer.saturation (e : Env) (o : Offer) : FaultRecord :=
  ⟨.tallySaturated, some o.book, none, some o.frame, none, none, some o.tag, e.day⟩

/-- R154, R177: with the first saturation of the day TALLY_SATURATED is recorded; else the log stays. -/
theorem offered_log : (l.offered e f o).log
    = if f.tallies.saturated = false ∧ (f.take e.now e.hold o).1.tallies.saturated = true then l.log.record e.mask (o.saturation e) else l.log := by
  have hl : ∀ c, (l.takeCharge o.tag c).log = l.log := fun c => by rw [takeCharge_rest]
  rw [offered_eq]
  by_cases h : f.tallies.saturated = false ∧ (f.take e.now e.hold o).1.tallies.saturated = true
  · rw [if_pos h, if_pos (by simp [h.1, h.2])]
    exact congrArg (fun g => FaultLog.record e.mask g (o.saturation e)) (hl _)
  · rw [if_neg h, if_neg (by simpa [and_comm] using h)]
    exact hl _

end Offers

section Notes

theorem foldl_join_corrected (xs : List SectorState) (n : Notes) :
    (xs.foldl Notes.join n).corrected = (n.corrected || xs.any SectorState.corrected) := by
  induction xs generalizing n with
  | nil => simp
  | cons z zs ih => rw [List.foldl_cons, ih, List.any_cons, ← Bool.or_assoc]; rfl

theorem foldl_join_fromTwin (xs : List SectorState) (n : Notes) :
    (xs.foldl Notes.join n).fromTwin = (n.fromTwin || xs.any fun z => z.source == .twin) := by
  induction xs generalizing n with
  | nil => simp
  | cons z zs ih => rw [List.foldl_cons, ih, List.any_cons, ← Bool.or_assoc]; rfl

theorem foldl_join_fromHold (xs : List SectorState) (n : Notes) :
    (xs.foldl Notes.join n).fromHold = (n.fromHold || xs.any fun z => z.source == .hold) := by
  induction xs generalizing n with
  | nil => simp
  | cons z zs ih => rw [List.foldl_cons, ih, List.any_cons, ← Bool.or_assoc]; rfl

theorem foldl_join_blankFill (xs : List SectorState) (n : Notes) :
    (xs.foldl Notes.join n).blankFill = (n.blankFill || xs.any fun z => z.source == .zero) := by
  induction xs generalizing n with
  | nil => simp
  | cons z zs ih => rw [List.foldl_cons, ih, List.any_cons, ← Bool.or_assoc]; rfl

theorem foldl_join_charged (xs : List SectorState) (n : Notes) : (xs.foldl Notes.join n).charged = n.charged := by
  induction xs generalizing n with
  | nil => rfl
  | cons z zs ih => rw [List.foldl_cons, ih]; rfl

end Notes

section Deliveries

variable {s : State} {t : Tag} {x : Entry} {w : Window} {xs : List SectorState}

/-- R26: the library after the sectors of a burst have gone out. -/
def Library.burst (l : Library) (t : Tag) (x : Entry) (xs : List SectorState) : Library :=
  l.sent t (x.delivered xs) (x.record.addr.val + x.moved) (xs.map SectorState.data)

/-- R78: a burst that makes no offer. -/
theorem State.deliver_quiet (hxs : xs ≠ []) (ho : x.offer s.env w (sectorOf (x.record.addr.val + x.moved)) = none) :
    s.deliver t x w xs = { s with lib := s.lib.burst t x xs } := by
  unfold State.deliver
  dsimp only
  rw [if_neg (by simpa using hxs), ho]
  rfl

/-- R77: a burst that makes its offer. -/
theorem State.deliver_offers {o : Offer} (hxs : xs ≠ []) (ho : x.offer s.env w (sectorOf (x.record.addr.val + x.moved)) = some o) :
    s.deliver t x w xs
      = { s with fee := (s.fee.take s.env.now s.env.hold o).1, lib := (s.lib.burst t x xs).offered s.env s.fee o } := by
  unfold State.deliver
  dsimp only
  rw [if_neg (by simpa using hxs), ho]
  rfl

/-- R78: a burst without a charge mode, one that does not begin at sector 0 of a frame, and one of a window that is neither HEAD nor CONT make no offer. -/
theorem Entry.offer_none {e : Env} {k : Nat} (h : x.record.mode = .none ∨ k ≠ 0 ∨ ∀ c n, w.resolved ≠ .head c n ∧ w.resolved ≠ .cont c n) :
    x.offer e w k = none := by
  unfold Entry.offer
  by_cases hk : k = 0
  · rw [if_pos hk]
    rcases h with hm | hk' | hr
    · rw [hm]; rfl
    · exact absurd hk hk'
    · have hp : w.resolved.page? = none := by
        cases hw : w.resolved with
        | head c n => exact absurd hw (hr c n).1
        | cont c n => exact absurd hw (hr c n).2
        | _ => rfl
      rw [hp]
      cases certifiedMode x.record.mode <;> rfl
  · rw [if_neg hk]

/-- R77: the offer of sector 0 of a HEAD or CONT frame under a charge mode. -/
theorem Entry.offer_some {e : Env} {m k : Bool} {cls hc : FeeClass} {n h : Nat}
    (hm : x.record.mode = .copy ∧ m = false ∨ x.record.mode = .certified ∧ m = true)
    (hw : w.resolved = .head cls n ∧ k = true ∨ w.resolved = .cont cls n ∧ k = false)
    (hb : HeadBelow (fun n => (e.frame w.book n).mark) (w.frame + 1) h hc) :
    x.offer e w 0 = some ⟨x.record.tag, x.record.station, m, w.book, w.frame, cls, h, k⟩ := by
  unfold Entry.offer
  have h1 : certifiedMode x.record.mode = some m := by rcases hm with ⟨h, rfl⟩ | ⟨h, rfl⟩ <;> rw [h] <;> rfl
  have h2 : w.resolved.page? = some (k, cls) := by rcases hw with ⟨h, rfl⟩ | ⟨h, rfl⟩ <;> rw [h] <;> rfl
  have h3 : e.headOf w.book w.frame = some (h, hc) := headBelow_iff.mp hb
  rw [if_pos rfl, h1, h2, h3]

/-- R26: an entry after a burst, but for the charge of its offer. -/
def Entry.SentAs (x : Entry) (xs : List SectorState) (y : Entry) : Prop :=
  y = { x.delivered xs with amount := y.amount, notes := { (x.delivered xs).notes with charged := y.notes.charged } }

theorem sentAs_charge (x : Entry) (xs : List SectorState) (c : Charge) : x.SentAs xs ((x.delivered xs).charge c) := by
  unfold Entry.SentAs Entry.charge
  cases c.charged <;> rfl

/-- R26, R77: what the delivery of a burst leaves, whether it makes an offer or not. -/
structure Delivers (s a : State) (t : Tag) (x : Entry) (xs : List SectorState) : Prop where
  pending : a.pending = s.pending
  env : a.env = s.env
  rest : a.lib = { s.lib.burst t x xs with front := { (s.lib.burst t x xs).front with table := a.lib.front.table }, log := a.lib.log }
  entry : ∃ y, a.lib.entry t = some y ∧ x.SentAs xs y

theorem burst_entry (l : Library) (t : Tag) (x : Entry) (xs : List SectorState) : (l.burst t x xs).entry t = some (x.delivered xs) :=
  (sent_entry ..).trans (if_pos rfl)

theorem State.deliver_delivers (s : State) (t : Tag) (x : Entry) (w : Window) (hxs : xs ≠ []) : Delivers s (s.deliver t x w xs) t x xs := by
  cases ho : x.offer s.env w (sectorOf (x.record.addr.val + x.moved)) with
  | none =>
    rw [State.deliver_quiet hxs ho]
    exact ⟨rfl, rfl, rfl, x.delivered xs, burst_entry .., rfl⟩
  | some o =>
    rw [State.deliver_offers hxs ho]
    refine ⟨rfl, rfl, offered_rest, ?_⟩
    have he := offered_entry (e := s.env) (f := s.fee) (l := s.lib.burst t x xs) (o := o) t
    rw [burst_entry] at he
    by_cases hv : o.tag = t
    · exact ⟨_, he.trans (if_pos hv), sentAs_charge ..⟩
    · exact ⟨_, he.trans (if_neg hv), rfl⟩

end Deliveries

end Sys2Proof.Machine
end

section
-- One declaration after the other: the stacks of the threads that wait for each other count against the check's memory limit.
set_option Elab.async false
/-! The delivery of a page that is offered. -/

namespace Sys2Proof.Machine

section Charged

variable {s : State} {t : Tag} {x : Entry} {w : Window}

/-- R75: a burst of one sector at least, where one is ready. -/
theorem burst_ne_nil {pos count : Nat} (hr : w.run pos ≠ []) (hc : 1 ≤ count) : w.burst pos count ≠ [] := by
  unfold Window.burst
  obtain ⟨z, zs, hz⟩ := List.exists_cons_of_ne_nil hr
  obtain ⟨c, rfl⟩ : ∃ c, count = c + 1 := ⟨count - 1, by omega⟩
  rw [hz]
  simp [Config.sectorsPerFrame]

/-- R148: what a charge makes of an entry. -/
theorem charge_charged {y : Entry} {c : Charge} (h : c.charged = true) :
    (y.charge c).notes.charged = true ∧ (y.charge c).amount = min 4294967295 (y.amount + c.total) := by
  unfold Entry.charge
  rw [if_pos h]
  exact ⟨rfl, rfl⟩

theorem charge_free {y : Entry} {c : Charge} (h : c.charged = false) : y.charge c = y := by
  unfold Entry.charge
  rw [if_neg (by simp [h])]

theorem charge_record (y : Entry) (c : Charge) : (y.charge c).record = y.record := by
  unfold Entry.charge
  split <;> rfl

/-- Settles O13: the offer is taken with the delivery, before the reactions, which keep the request's notes and amount and the first fault. -/
theorem deliveredPageIsCharged : Obligations.DeliveredPageIsCharged := by
  intro s t rest x g w ws count m k cls n h hc hs hl hr hx htag hlive hjob hw hcount hat hrun hm hres hb o
  have hsec : sectorOf (x.record.addr.val + x.moved) = 0 := hat
  have hoff : x.offer s.env w (sectorOf (x.record.addr.val + x.moved)) = some o := by
    rw [hsec, Entry.offer_some hm hres hb, htag]
  have hxs : w.burst (sectorOf (x.record.addr.val + x.moved)) count ≠ [] := burst_ne_nil (hsec ▸ hrun) hcount
  have hexec := exec_burst_fetch count hs hl hr hx hlive hjob hw
  revert hxs hexec
  generalize w.burst (sectorOf (x.record.addr.val + x.moved)) count = xs
  intro hxs hexec
  rw [State.deliver_offers (s := s.begin) hxs hoff] at hexec
  obtain ⟨a, ha⟩ : ∃ a, (s.begin.lib.burst t x xs).offered s.env s.fee o = a := ⟨_, rfl⟩
  have hr : Reacted s (State.react { s.begin with fee := (s.fee.take s.env.now s.env.hold o).1, lib := a } s.begin.lib) s.env
      (s.fee.take s.env.now s.env.hold o).1 a := State.react_reacted rfl
  have hentry : a.entry t = some ((x.delivered xs).charge (s.fee.take s.env.now s.env.hold o).2) := by
    rw [← ha, offered_entry, burst_entry]
    exact if_pos rfl
  obtain ⟨y, hy, hk⟩ := hr.lib.entry t _ hentry
  refine ⟨_, y, ha ▸ hexec, hr.fee, hy, hk.record.trans (charge_record ..), fun h => ?_, fun h => ?_, fun h0 h1 hf hmask => ?_⟩
  · obtain ⟨h1, h2⟩ := charge_charged (y := x.delivered xs) h
    exact ⟨(congrArg Notes.charged hk.notes).trans h1, hk.amount.trans h2⟩
  · rw [charge_free h] at hk
    exact ⟨(congrArg Notes.charged hk.notes).trans (foldl_join_charged ..), hk.amount⟩
  · refine hr.lib.first _ ?_
    have hlog : a.log = s.lib.log.record s.env.mask (o.saturation s.env) := by
      rw [← ha, offered_log, if_pos ⟨h0, hr.fee ▸ h1⟩]
      rfl
    rw [hlog]
    exact fault_first (l := s.lib) (r := o.saturation s.env) hf hmask

end Charged

end Sys2Proof.Machine
end

section
-- One declaration after the other: the stacks of the threads that wait for each other count against the check's memory limit.
set_option Elab.async false
/-! The course of a request through its windows (R40, R42, R46, R75). -/

namespace Sys2Proof.Machine

section Course

variable {e : Env} {l : Library} {t : Tag} {x : Entry} {g : Fetching} {w : Window} {ws : List Window}

/-- R29: the address of the next sector of a request. -/
def Entry.next (x : Entry) : Nat := x.record.addr.val + x.moved

/-- R43, R44: a FETCH without windows ends. -/
theorem progress_empty (n : Nat) (hx : l.entry t = some x) (hl : x.ended = none) (hj : x.job = .fetch g) (hw : g.windows = []) :
    Library.progress e t (n + 1) l = l.endRequest t g.finish x.moved 0 := by
  simp only [Library.progress, hx, hl, hj, hw]

/-- R75: a delivered window goes. -/
theorem progress_delivered (n : Nat) (hx : l.entry t = some x) (hl : x.ended = none) (hj : x.job = .fetch g) (hw : g.windows = w :: ws)
    (h : w.address w.last < x.next) :
    Library.progress e t (n + 1) l = Library.progress e t n
      { l.setEntry t (some (x.setWindows ws)) with
        buffer := { l.buffer with lookWait := l.buffer.lookWait.filter fun u => u != t } } := by
  simp only [Library.progress, hx, hl, hj, hw]
  exact if_pos h

/-- R42: a stop at the next sector ends the request. -/
theorem progress_stop (n : Nat) (hx : l.entry t = some x) (hl : x.ended = none) (hj : x.job = .fetch g) (hw : g.windows = w :: ws)
    (h : x.next ≤ w.address w.last) {st : Stop} (hs : w.stop = some st) (ha : w.address st.sector = x.next) :
    Library.progress e t (n + 1) l = l.endRequest t st.outcome x.moved 0 := by
  simp only [Library.progress, hx, hl, hj, hw, hs, Option.map_some, Option.getD_some]
  exact (if_neg (Nat.not_lt.mpr h)).trans (if_pos (congrArg some ha))

/-- R46: above that, an unopened delivery window is opened, and otherwise the look-ahead window is asked for. -/
theorem progress_goes (n : Nat) (hx : l.entry t = some x) (hl : x.ended = none) (hj : x.job = .fetch g) (hw : g.windows = w :: ws)
    (h : x.next ≤ w.address w.last) (hs : ∀ st, w.stop = some st → w.address st.sector ≠ x.next) :
    (w.state = .unopened → (∀ y ∈ l.buffer.deliveryWait, y.tag ≠ t) → Library.progress e t (n + 1) l = Library.progress e t n (l.openDelivery e t w))
      ∧ (w.state = .unopened → (∃ y ∈ l.buffer.deliveryWait, y.tag = t) → Library.progress e t (n + 1) l = l)
      ∧ (w.state ≠ .unopened → (w.stop ≠ none ∨ ws = []) → Library.progress e t (n + 1) l = l)
      ∧ ∀ v vs, w.state ≠ .unopened → w.stop = none → ws = v :: vs → Library.progress e t (n + 1) l = l.wantLookAhead t x g v := by
  have hstop : ¬ (w.stop.map fun st => w.address st.sector) = some (x.record.addr.val + x.moved) := by
    intro hc
    obtain ⟨st, hst, ha⟩ := Option.map_eq_some_iff.mp hc
    exact hs st hst ha
  have hpast : ¬ w.address w.last < x.record.addr.val + x.moved := Nat.not_lt.mpr h
  refine ⟨fun hu hd => ?_, fun hu hd => ?_, fun hu hr => ?_, fun v vs hu hn hv => ?_⟩
  · simp only [Library.progress, hx, hl, hj, hw, if_neg hpast, if_neg hstop, if_pos hu]
    exact if_neg (by simpa using hd)
  · simp only [Library.progress, hx, hl, hj, hw, if_neg hpast, if_neg hstop, if_pos hu]
    exact if_pos (by simpa using hd)
  · simp only [Library.progress, hx, hl, hj, hw, if_neg hpast, if_neg hstop, if_neg hu]
    rcases hr with hr | rfl
    · cases hw' : w.stop with
      | none => exact absurd hw' hr
      | some st => rfl
    · cases w.stop <;> rfl
  · simp only [Library.progress, hx, hl, hj, hw, if_neg hpast, if_neg hu, hn, hv]
    exact if_neg (by simp)

/-- R46: a look-ahead window that is open, or whose request waits, is not asked for again. -/
theorem wantLookAhead_stays {v : Window} (h : v.state ≠ .unopened ∨ t ∈ l.buffer.lookWait) : l.wantLookAhead t x g v = l := by
  unfold Library.wantLookAhead
  refine if_pos ?_
  rcases h with h | h
  · simp [Window.isOpen, h]
  · simp [h]

theorem checked_iff (g : Fetching) (v : Window) : g.checked v = true ↔ ∃ k ∈ g.segments, k.book = v.book ∧ k.checked = true := by
  simp [Fetching.checked]

/-- R40, R46: the look-ahead window joins the list when its segment's book has been checked. -/
theorem wantLookAhead_waits {v : Window} (ho : v.state = .unopened) (ht : t ∉ l.buffer.lookWait) (hc : g.checked v = true) :
    l.wantLookAhead t x g v = { l with buffer := { l.buffer with lookWait := l.buffer.lookWait ++ [t] } } := by
  unfold Library.wantLookAhead
  rw [if_neg (by simp [Window.isOpen, ho, ht])]
  exact if_pos hc

/-- R40: an UNASSIGNED book cuts the request at its boundary. -/
theorem wantLookAhead_cuts {v : Window} (ho : v.state = .unopened) (ht : t ∉ l.buffer.lookWait) (hc : g.checked v = false)
    (hu : (l.book v.book).state = .unassigned) : l.wantLookAhead t x g v = l.setEntry t (some { x with job := .fetch (g.cut v) }) := by
  unfold Library.wantLookAhead
  rw [if_neg (by simp [Window.isOpen, ho, ht])]
  dsimp only
  rw [if_neg (by simp [hc])]
  exact if_pos hu

/-- R40, R46: another book is checked as the window joins the list. -/
theorem wantLookAhead_checks {v : Window} (ho : v.state = .unopened) (ht : t ∉ l.buffer.lookWait) (hc : g.checked v = false)
    (hu : (l.book v.book).state ≠ .unassigned) : l.wantLookAhead t x g v
      = { l.setEntry t (some { x with job := .fetch (g.check v) }) with buffer := { l.buffer with lookWait := l.buffer.lookWait ++ [t] } } := by
  unfold Library.wantLookAhead
  rw [if_neg (by simp [Window.isOpen, ho, ht])]
  dsimp only
  rw [if_neg (by simp [hc])]
  exact if_neg hu

theorem check_eq (g : Fetching) (v : Window) : g.check v
    = { g with segments := g.segments.map fun k => if k.book = v.book then { k with checked := true } else k } := by
  simp [Fetching.check]

/-- R40, R42, R43, R46, R75: the course of a request. -/
theorem progress_course (e : Env) (l : Library) (t : Tag) (x : Entry) (g : Fetching) (n : Nat) (hx : l.entry t = some x) (hl : x.ended = none)
    (hj : x.job = .fetch g) :
      let a := Library.progress e t (n + 1) l
      (g.windows = [] → a = l.endRequest t g.finish x.moved 0)
      ∧ ∀ w ws, g.windows = w :: ws →
        (w.address w.last < x.record.addr.val + x.moved →
          let m := l.setEntry t (some (x.setWindows ws))
          a = Library.progress e t n { m with buffer := { m.buffer with lookWait := m.buffer.lookWait.filter fun u => u != t } })
        ∧ (x.record.addr.val + x.moved ≤ w.address w.last →
          (∀ st, w.stop = some st → w.address st.sector = x.record.addr.val + x.moved → a = l.endRequest t st.outcome x.moved 0)
          ∧ ((∀ st, w.stop = some st → w.address st.sector ≠ x.record.addr.val + x.moved) →
            (w.state = .unopened → (∀ y ∈ l.buffer.deliveryWait, y.tag ≠ t) → a = Library.progress e t n (l.openDelivery e t w))
            ∧ (w.state = .unopened → (∃ y ∈ l.buffer.deliveryWait, y.tag = t) → a = l)
            ∧ (w.state ≠ .unopened → (w.stop ≠ none ∨ ws = []) → a = l)
            ∧ ∀ v vs, w.state ≠ .unopened → w.stop = none → ws = v :: vs →
              (v.state ≠ .unopened ∨ t ∈ l.buffer.lookWait → a = l)
              ∧ (v.state = .unopened → t ∉ l.buffer.lookWait →
                let joins (m : Library) : Library := { m with buffer := { m.buffer with lookWait := m.buffer.lookWait ++ [t] } }
                ((∃ k ∈ g.segments, k.book = v.book ∧ k.checked = true) → a = joins l)
                ∧ ((∀ k ∈ g.segments, k.book = v.book → k.checked = false) →
                  let cut : Fetching := { g with windows := g.windows.filter fun z => z.book != v.book, finish := .bookUnassigned }
                  let checked : Fetching :=
                    { g with segments := g.segments.map fun k => if k.book = v.book then { k with checked := true } else k }
                  ((l.book v.book).state = .unassigned → a = l.setEntry t (some { x with job := .fetch cut }))
                  ∧ ((l.book v.book).state ≠ .unassigned → a = joins (l.setEntry t (some { x with job := .fetch checked }))))))) := by
  intro a
  refine ⟨progress_empty n hx hl hj, fun w ws hw => ⟨progress_delivered n hx hl hj hw, fun h => ⟨fun st hs ha => progress_stop n hx hl hj hw h hs ha,
    fun hs => ?_⟩⟩⟩
  obtain ⟨h1, h2, h3, h4⟩ := progress_goes (e := e) n hx hl hj hw h hs
  refine ⟨h1, h2, h3, fun v vs hu hn hv => ?_⟩
  have ha : a = l.wantLookAhead t x g v := h4 v vs hu hn hv
  rw [ha]
  refine ⟨wantLookAhead_stays, fun ho ht => ⟨fun hc => wantLookAhead_waits ho ht ((checked_iff g v).mpr hc), fun hno => ?_⟩⟩
  have hc : g.checked v = false := by
    rw [← Bool.not_eq_true, checked_iff]
    rintro ⟨k, hk, hb, hc⟩
    exact absurd hc (by simp [hno k hk hb])
  refine ⟨fun hu => wantLookAhead_cuts ho ht hc hu, fun hu => ?_⟩
  rw [wantLookAhead_checks ho ht hc hu, check_eq]
  rfl

end Course

end Sys2Proof.Machine
end

section
-- One declaration after the other: the stacks of the threads that wait for each other count against the check's memory limit.
set_option Elab.async false
/-! The delivery window of a request while its blocks react (chapter 4): it stays as the event left it until its request takes its course. -/

namespace Sys2Proof.Machine

section Heads

/-- Two windows of one frame. -/
def Window.SameKey (v w : Window) : Prop := v.book = w.book ∧ v.frame = w.frame

/-- R29: the FETCH `y` of a tag, live with the work `g`, whose delivery window is `w`; the windows above it are still those of `ws`, in whatever state. -/
structure HeadStands (l : Library) (t : Tag) (y : Entry) (g : Fetching) (w : Window) (ws : List Window) : Prop where
  stands : ∃ vs, l.entry t = some { y with job := .fetch { g with windows := w :: vs } } ∧ ∀ v ∈ vs, ∃ z ∈ ws, v.SameKey z

/-- A window of a tag that is not the delivery window of the request looked at. -/
def Window.elsewhere (v : Window) (u t : Tag) (w : Window) : Prop := u = t → ¬ v.SameKey w

theorem same_iff_key {v w : Window} : v.same w = true ↔ v.SameKey w := same_iff

theorem mem_windowsUpTo_key {v w : Window} {ws : List Window} (h : v ∈ windowsUpTo w ws) : ∃ z ∈ ws, v.SameKey z := by
  induction ws with
  | nil => cases h
  | cons y ys ih =>
    unfold windowsUpTo at h
    split at h
    next hs =>
      obtain rfl := List.mem_singleton.mp h
      have hk := same_iff.mp hs
      exact ⟨y, List.mem_cons_self, hk.1.symm, hk.2.symm⟩
    next =>
      rcases List.mem_cons.mp h with rfl | h
      · exact ⟨v, List.mem_cons_self, rfl, rfl⟩
      · obtain ⟨z, hz, hk⟩ := ih h
        exact ⟨z, List.mem_cons_of_mem _ hz, hk⟩

variable {e : Env} {l m : Library} {t u : Tag} {y : Entry} {g : Fetching} {w v : Window} {ws : List Window}

theorem HeadStands.of_entry (h : HeadStands l t y g w ws) (he : m.entry t = l.entry t) : HeadStands m t y g w ws := by
  obtain ⟨vs, hx, hvs⟩ := h
  exact ⟨vs, he.trans hx, hvs⟩

theorem HeadStands.windows (h : HeadStands l t y g w ws) (hy : y.ended = none) : ∃ vs, l.windows t = w :: vs ∧ ∀ v ∈ vs, ∃ z ∈ ws, v.SameKey z := by
  obtain ⟨vs, hx, hvs⟩ := h
  refine ⟨vs, ?_, hvs⟩
  unfold Library.windows
  rw [hx]
  exact if_pos (Entry.live_iff.mpr hy)

/-- The windows of the request are replaced, the delivery window alone staying. -/
theorem HeadStands.setWindows {vs : List Window} (h : HeadStands l t y g w ws) (hy : y.ended = none) (hvs : ∀ v ∈ vs, ∃ z ∈ ws, v.SameKey z) :
    HeadStands (l.setWindows t (w :: vs)) t y g w ws := by
  obtain ⟨zs, hx, -⟩ := h
  refine ⟨vs, ?_, hvs⟩
  unfold Library.setWindows
  rw [hx]
  refine (Library.setEntry_entry ..).trans ((if_pos rfl).trans (congrArg some ?_))
  exact if_pos (Entry.live_iff.mpr hy)

theorem HeadStands.setWindow (h : HeadStands l t y g w ws) (hy : y.ended = none) (he : v.elsewhere u t w) :
    HeadStands (l.setWindow u v) t y g w ws := by
  by_cases hu : u = t
  · subst hu
    obtain ⟨vs, hws, hvs⟩ := h.windows hy
    have hne : w.same v ≠ true := fun hs => he rfl ⟨(same_iff.mp hs).1.symm, (same_iff.mp hs).2.symm⟩
    unfold Library.setWindow
    rw [hws, List.map_cons, if_neg hne]
    refine h.setWindows hy fun a ha => ?_
    obtain ⟨b, hb, rfl⟩ := List.mem_map.mp ha
    obtain ⟨z, hz, hk⟩ := hvs b hb
    split
    next hs => exact ⟨z, hz, (same_iff.mp hs).1.symm.trans hk.1, (same_iff.mp hs).2.symm.trans hk.2⟩
    next => exact ⟨z, hz, hk⟩
  · exact h.of_entry (entry_setWindows (Ne.symm hu) _)

theorem HeadStands.recordStop (h : HeadStands l t y g w ws) (hy : y.ended = none) (he : v.elsewhere u t w) (st : Stop) :
    HeadStands (l.recordStop u v st) t y g w ws := by
  have hfront : ((windowsAbove v (l.windows u)).foldl (fun l v => l.release u v none) l).front = l.front :=
    (onlyDemand_releases u none (windowsAbove v (l.windows u)) l).front
  revert hfront
  unfold Library.recordStop
  dsimp only
  generalize (windowsAbove v (l.windows u)).foldl (fun l v => l.release u v none) l = m
  intro hfront
  have hm : HeadStands m t y g w ws := h.of_entry (congrArg (fun f : Front => look f.table t) hfront)
  suffices hs : HeadStands (m.setWindows u (windowsUpTo (v.stoppedAt st) (l.windows u))) t y g w ws from hs.of_entry rfl
  by_cases hu : u = t
  · subst hu
    obtain ⟨vs, hws, hvs⟩ := h.windows hy
    obtain ⟨hb, hf, -⟩ := stoppedAt_key v st
    have hne : w.same (v.stoppedAt st) ≠ true := fun hs =>
      he rfl ⟨hb.symm.trans (same_iff.mp hs).1.symm, hf.symm.trans (same_iff.mp hs).2.symm⟩
    rw [hws, windowsUpTo, if_neg hne]
    refine hm.setWindows hy fun a ha => ?_
    obtain ⟨b, hb, hk⟩ := mem_windowsUpTo_key ha
    obtain ⟨z, hz, hk'⟩ := hvs b hb
    exact ⟨z, hz, hk.1.trans hk'.1, hk.2.trans hk'.2⟩
  · exact hm.of_entry (entry_setWindows (Ne.symm hu) _)

theorem HeadStands.holdFallback (h : HeadStands l t y g w ws) (hy : y.ended = none) (he : v.elsewhere u t w) :
    HeadStands (l.holdFallback u v) t y g w ws := by
  unfold Library.holdFallback
  dsimp only
  split
  · exact h.setWindow hy he
  · split
    · exact h.setWindow hy he
    · exact h.recordStop hy (by exact he) _

theorem HeadStands.twinFallback (h : HeadStands l t y g w ws) (hy : y.ended = none) (he : v.elsewhere u t w) :
    HeadStands (l.twinFallback e u v) t y g w ws := by
  unfold Library.twinFallback
  split
  · exact h.setWindow hy he
  · split
    · split
      · exact HeadStands.setWindow (h.of_entry (m := l.place e _ (.fetch u v.book v.frame)) rfl) hy (by exact he)
      · exact h.holdFallback hy he
    · exact h.holdFallback hy he

theorem HeadStands.source (h : HeadStands l t y g w ws) (hy : y.ended = none) (he : v.elsewhere u t w) :
    HeadStands (l.source e u v) t y g w ws := by
  unfold Library.source
  split
  · exact h.setWindow hy he
  · split
    · split
      · exact HeadStands.setWindow (h.of_entry (m := l.place e _ (.fetch u v.book v.frame)) rfl) hy (by exact he)
      · exact h.twinFallback hy he
    · exact h.twinFallback hy he

theorem HeadStands.resolve (h : HeadStands l t y g w ws) (hy : y.ended = none) (he : v.elsewhere u t w) :
    HeadStands (l.resolve e u v) t y g w ws := by
  unfold Library.resolve
  dsimp only
  split
  · split
    · exact h.setWindow hy he
    · exact h.setWindow hy he
  · exact h.setWindow hy he
  · exact h.recordStop hy (by exact he) _
  · exact h.source hy he
  · exact h.source hy he

theorem HeadStands.openWindow (h : HeadStands l t y g w ws) (hy : y.ended = none) (he : v.elsewhere u t w) :
    HeadStands (l.openWindow e u v) t y g w ws := by
  unfold Library.openWindow
  exact HeadStands.resolve (HeadStands.setWindow (h.of_entry rfl) hy (by exact he)) hy (by exact he)

/-- Each window of a tag is treated in turn; the delivery window looked at is left alone. -/
theorem HeadStands.eachWindow {f : Library → Window → Library} (h : HeadStands l t y g w ws) (hy : y.ended = none)
    (hws : ∀ z ∈ ws, ¬ z.SameKey w) (hself : ∀ l : Library, u = t → f l w = l)
    (hother : ∀ (l : Library) v, HeadStands l t y g w ws → v.elsewhere u t w → HeadStands (f l v) t y g w ws) :
    HeadStands (l.eachWindow u f) t y g w ws := by
  unfold Library.eachWindow
  refine List.foldlRecOn (motive := fun l => HeadStands l t y g w ws) _ _ h fun m hm a _ => ?_
  cases hf : (m.windows u).find? fun v => v.same a with
  | none => exact hm
  | some v =>
    by_cases hu : u = t
    · obtain ⟨vs, hmw, hvs⟩ := hm.windows hy
      have hv : v ∈ w :: vs := by
        rw [← hmw, ← hu]
        exact List.mem_of_find?_eq_some hf
      rcases List.mem_cons.mp hv with rfl | hv
      · show HeadStands (f m v) t y g v ws
        rw [hself m hu]; exact hm
      · obtain ⟨z, hz, hk⟩ := hvs v hv
        exact hother m v hm fun _ hvw => hws z hz ⟨hk.1.symm.trans hvw.1, hk.2.symm.trans hvw.2⟩
    · exact hother m v hm fun h => absurd h hu

theorem HeadStands.turnWindows (h : HeadStands l t y g w ws) (hy : y.ended = none) (hws : ∀ z ∈ ws, ¬ z.SameKey w) (hi : w.item = none) (u : Tag) :
    HeadStands (l.turnWindows e u) t y g w ws := by
  rw [turnWindows_eq]
  refine h.eachWindow hy hws (fun l _ => turnWindow_stays (.inl hi)) fun l v hl hv => ?_
  unfold Library.turnWindow
  split
  · split
    · exact hl
    · dsimp only
      split
      · exact HeadStands.holdFallback (hl.of_entry rfl) hy hv
      · exact HeadStands.twinFallback (hl.of_entry rfl) hy hv
  · exact hl

theorem HeadStands.resolvePending (h : HeadStands l t y g w ws) (hy : y.ended = none) (hws : ∀ z ∈ ws, ¬ z.SameKey w) (hp : w.state ≠ .pending) (u : Tag) :
    HeadStands (l.resolvePending e u) t y g w ws := by
  rw [resolvePending_eq]
  refine h.eachWindow hy hws (fun l _ => if_neg fun hn => hp hn.1) fun l v hl hv => ?_
  unfold Library.resolveWindow
  split
  · exact hl.resolve hy hv
  · exact hl

end Heads

end Sys2Proof.Machine
end

section
-- One declaration after the other: the stacks of the threads that wait for each other count against the check's memory limit.
set_option Elab.async false
/-! The other requests take their course, and the request whose delivery window has been emptied, or delivered up to its stop, ends (R42, R43, R75). -/

namespace Sys2Proof.Machine

section OtherCourses

variable {e : Env} {l m : Library} {t u : Tag} {y : Entry} {g : Fetching} {w v : Window} {ws : List Window}

theorem HeadStands.displace (h : HeadStands l t y g w ws) (hy : y.ended = none) (hws : ∀ z ∈ ws, ¬ z.SameKey w) (hv : l.lookAhead u = some v) :
    HeadStands (l.displace u v) t y g w ws := by
  have he : v.close.elsewhere u t w := by
    rintro rfl hk
    obtain ⟨vs, hlw, hvs⟩ := h.windows hy
    unfold Library.lookAhead at hv
    rw [hlw] at hv
    cases vs with
    | nil => cases hv
    | cons a as =>
      obtain rfl := Option.some.inj hv
      obtain ⟨z, hz, hzk⟩ := hvs a List.mem_cons_self
      exact hws z hz ⟨hzk.1.symm.trans hk.1, hzk.2.symm.trans hk.2⟩
  have hrel : HeadStands (l.release u v (some v.size)) t y g w ws :=
    h.of_entry (congrArg (fun f : Front => look f.table t) (onlyDemand_release l u v (some v.size)).front)
  unfold Library.displace
  exact (hrel.setWindow hy he).of_entry rfl

/-- R47: a look-ahead window that may be displaced is one of another request. -/
theorem lastLookAhead_open {reading : Bool} (h : l.lastLookAhead t reading = some (u, v)) : l.lookAhead u = some v := by
  rw [lastLookAhead_eq] at h
  obtain ⟨hn | ⟨-, -, hahead, -⟩, -⟩ := (lastAhead_last l t reading allTags none).1 (u, v) h
  · cases hn
  · exact hahead

theorem HeadStands.displaceIdle (need : Nat) (n : Nat) (hy : y.ended = none) (hws : ∀ z ∈ ws, ¬ z.SameKey w) :
    ∀ l : Library, HeadStands l t y g w ws → HeadStands (Library.displaceIdle need u n l) t y g w ws := by
  induction n with
  | zero => exact fun l h => h
  | succ n ih =>
    intro l h
    unfold Library.displaceIdle
    split
    · exact h
    · split
      next u' v' hv => exact ih _ (h.displace hy hws (lastLookAhead_open hv))
      next => exact h

theorem HeadStands.displaceReading (need : Nat) (n : Nat) (hy : y.ended = none) (hws : ∀ z ∈ ws, ¬ z.SameKey w) :
    ∀ (due : List (Drive × Nat)) (l : Library), HeadStands l t y g w ws → HeadStands (Library.displaceReading need u n due l).2 t y g w ws := by
  induction n with
  | zero => exact fun _ l h => h
  | succ n ih =>
    intro due l h
    unfold Library.displaceReading
    split
    · exact h
    · split
      next u' v' hv => exact ih _ _ (h.displace hy hws (lastLookAhead_open hv))
      next => exact h

theorem HeadStands.openDelivery (h : HeadStands l t y g w ws) (hy : y.ended = none) (hws : ∀ z ∈ ws, ¬ z.SameKey w) (hu : u ≠ t) :
    HeadStands (l.openDelivery e u v) t y g w ws := by
  have hm := HeadStands.displaceIdle (u := u) v.size 16 hy hws l h
  unfold Library.openDelivery
  dsimp only
  generalize Library.displaceIdle v.size u 16 l = m at hm
  split
  · exact hm.openWindow hy fun h => absurd h hu
  · exact (hm.displaceReading (u := u) _ 16 hy hws []).of_entry rfl

theorem HeadStands.setOther (h : HeadStands l t y g w ws) (hu : u ≠ t) (x : Option Entry) : HeadStands (l.setEntry u x) t y g w ws :=
  h.of_entry ((Library.setEntry_entry ..).trans (if_neg hu))

theorem HeadStands.endOther (h : HeadStands l t y g w ws) (hu : u ≠ t) (o : Outcome) (m d : Nat) : HeadStands (l.endRequest u o m d) t y g w ws := by
  cases hx : l.entry u with
  | none => rw [endRequest_none hx]; exact h
  | some x => exact h.of_entry ((endRequest_ends hx o m d).others t (Ne.symm hu))

theorem HeadStands.wantLookAhead (h : HeadStands l t y g w ws) (hu : u ≠ t) (x : Entry) (g' : Fetching) :
    HeadStands (l.wantLookAhead u x g' v) t y g w ws := by
  unfold Library.wantLookAhead
  dsimp only
  split
  · exact h
  · split
    · exact h.of_entry rfl
    · split
      · exact h.setOther hu _
      · refine HeadStands.setOther ?_ hu _
        exact h.of_entry rfl

theorem HeadStands.progress (hu : u ≠ t) (n : Nat) (hy : y.ended = none) (hws : ∀ z ∈ ws, ¬ z.SameKey w) :
    ∀ l : Library, HeadStands l t y g w ws → HeadStands (Library.progress e u n l) t y g w ws := by
  induction n with
  | zero => exact fun l h => h
  | succ n ih =>
    intro l h
    unfold Library.progress
    split
    · exact h
    · split
      · split
        · exact h.endOther hu _ _ _
        · dsimp only
          split
          · exact ih _ ((h.setOther hu _).of_entry rfl)
          · split
            · exact h.endOther hu _ _ _
            · split
              · split
                · exact h
                · exact ih _ (h.openDelivery hy hws hu)
              · split
                · exact h.wantLookAhead hu _ _
                · exact h
      · exact h

/-- R88: the unwinding of FILEs leaves a FETCH alone. -/
theorem HeadStands.unwindStranded (h : HeadStands l t y g w ws) : HeadStands (l.unwindStranded e) t y g w ws := by
  unfold Library.unwindStranded
  refine List.foldlRecOn (motive := fun l => HeadStands l t y g w ws) _ _ h fun m hm u _ => ?_
  split
  next b hb =>
    have hu : u ≠ t := by
      rintro rfl
      obtain ⟨vs, hx, -⟩ := hm
      have hno : m.fileOf u = none := by
        unfold Library.fileOf
        rw [hx]
        dsimp only
        split <;> rfl
      unfold Library.strandedBook at hb
      rw [hno] at hb
      cases hb
    refine HeadStands.of_entry (m := (m.unwindFile u .sideUnavailable).lowerIntake b) ?_ rfl
    exact HeadStands.of_entry (l := m.unwindFile u .sideUnavailable) (by
      unfold Library.unwindFile
      split
      · split
        · exact hm
        · exact hm.endOther hu _ _ _
      · exact hm) rfl
  next => exact hm

end OtherCourses

section Ends

variable {e : Env} {l : Library} {t : Tag} {y : Entry} {g : Fetching} {w : Window} {ws : List Window}

/-- R42, R43: the request has come to its end: its last window is delivered, or it is delivered up to its delivery window's stop. -/
inductive Entry.AtEnd (y : Entry) (g : Fetching) (w : Window) (ws : List Window) : Outcome → Prop
  | run (hws : ws = []) (h : w.address w.last < y.next) : Entry.AtEnd y g w ws g.finish
  | stop {st : Stop} (hs : w.stop = some st) (h : y.next ≤ w.address w.last) (ha : w.address st.sector = y.next) : Entry.AtEnd y g w ws st.outcome

/-- R42, R43, R75: the request ends when it takes its course. -/
theorem HeadStands.ends (h : HeadStands l t y g w ws) (hy : y.ended = none) {o : Outcome} (ho : y.AtEnd g w ws o) :
    ∃ (m : Library) (z : Entry), EndsRequest m (Library.progress e t 24 l) t z o y.moved 0 ∧ z.record = y.record ∧ z.notes = y.notes ∧ z.amount = y.amount := by
  obtain ⟨vs, hx, hvs⟩ := h
  cases ho with
  | run hws hlast =>
    obtain rfl : vs = [] := List.eq_nil_iff_forall_not_mem.mpr fun v hv => by
      obtain ⟨z, hz, -⟩ := hvs v hv
      rw [hws] at hz
      cases hz
    rw [progress_delivered (n := 23) hx hy rfl rfl (by exact hlast)]
    have hset : Entry.setWindows { y with job := .fetch { g with windows := [w] } } []
        = { y with job := .fetch { g with windows := [] } } := if_pos (Entry.live_iff.mpr hy)
    rw [hset]
    obtain ⟨m, hm⟩ : ∃ m : Library, { l.setEntry t (some { y with job := .fetch { g with windows := [] } }) with
      buffer := { l.buffer with lookWait := l.buffer.lookWait.filter fun u => u != t } } = m := ⟨_, rfl⟩
    have hmx : m.entry t = some { y with job := .fetch { g with windows := [] } } :=
      hm ▸ (Library.setEntry_entry l t t _).trans (if_pos rfl)
    rw [hm, progress_empty (n := 22) hmx hy rfl rfl]
    exact ⟨m, _, endRequest_ends hmx .., rfl, rfl, rfl⟩
  | stop hs hle ha =>
    rw [progress_stop (n := 23) hx hy rfl rfl hle hs ha]
    exact ⟨l, _, endRequest_ends hx .., rfl, rfl, rfl⟩

/-- R28, R44: the end of a request inside the reactions of its event. -/
theorem EndsRequest.settles {a b p : Library} {z : Entry} {o : Outcome} {n d : Nat} (h : EndsRequest a b t z o n d) (hk : Kept e b p) :
    RequestEnds p.finish t z o n := by
  obtain ⟨rs, hrs⟩ := hk.ending
  refine h.settled (e := e) (c := p.finish)
    { hk with
      responses := ⟨p.front.ending.foldr insertResponse [], ?_, fun r hr => ?_⟩
      ending := rfl }
  · show p.front.responses ++ _ = _
    rw [hk.responses]
  · rw [(sortResponses_perm _).mem_iff, hrs]
    exact List.mem_append_left _ hr

/-- R42, R43: with every request taking its course, the request ends in its turn. -/
theorem HeadStands.progressAll (h : HeadStands l t y g w ws) (hy : y.ended = none) (hws : ∀ z ∈ ws, ¬ z.SameKey w) {o : Outcome}
    (ho : y.AtEnd g w ws o) :
    ∃ (m a : Library) (z : Entry), EndsRequest m a t z o y.moved 0 ∧ z.record = y.record ∧ z.notes = y.notes ∧ z.amount = y.amount
      ∧ Kept e a (l.progressAll e) := by
  obtain ⟨pre, post, hsplit⟩ := List.append_of_mem (List.mem_finRange t)
  have hpre : t ∉ pre := fun hin => by
    have hnd := List.nodup_finRange 16
    rw [hsplit] at hnd
    exact List.disjoint_of_nodup_append hnd hin List.mem_cons_self
  have hm : HeadStands (pre.foldl (fun l t => Library.progress e t 24 l) l) t y g w ws :=
    List.foldlRecOn (motive := fun l => HeadStands l t y g w ws) _ _ h fun m hm u hu =>
      HeadStands.progress (u := u) (fun hut => hpre (by rw [← hut]; exact hu)) 24 hy hws m hm
  have hall : l.progressAll e = post.foldl (fun l t => Library.progress e t 24 l)
      (Library.progress e t 24 (pre.foldl (fun l t => Library.progress e t 24 l) l)) := by
    unfold Library.progressAll
    rw [show allTags = pre ++ t :: post from hsplit, List.foldl_append, List.foldl_cons]
  rw [hall]
  obtain ⟨m, z, hend, hz⟩ := hm.ends (e := e) hy ho
  exact ⟨m, _, z, hend, hz.1, hz.2.1, hz.2.2, Kept.foldl (fun l t => kept_progress e t 24 l) _ _⟩

/-- R42, R43, R44, R75: the request ends at the event that brings it to its end. -/
theorem HeadStands.settles (h : HeadStands l t y g w ws) (hy : y.ended = none) (hws : ∀ z ∈ ws, ¬ z.SameKey w) (hi : w.item = none)
    (hp : w.state ≠ .pending) {o : Outcome} (ho : y.AtEnd g w ws o) (was : Library) : RequestEnds (l.settle e was) t y o y.moved := by
  have h1 : HeadStands (allTags.foldl (fun l t => l.turnWindows e t) l) t y g w ws :=
    List.foldlRecOn (motive := fun l => HeadStands l t y g w ws) _ _ h fun m hm u _ => hm.turnWindows hy hws hi u
  have h2 := h1.unwindStranded (e := e)
  have h3 : HeadStands (allTags.foldl (fun l t => l.resolvePending e t) ((allTags.foldl (fun l t => l.turnWindows e t) l).unwindStranded e)) t y g w ws :=
    List.foldlRecOn (motive := fun l => HeadStands l t y g w ws) _ _ h2 fun m hm u _ => hm.resolvePending hy hws hp u
  obtain ⟨m, hm⟩ : ∃ m, allTags.foldl (fun l t => l.resolvePending e t) ((allTags.foldl (fun l t => l.turnWindows e t) l).unwindStranded e) = m :=
    ⟨_, rfl⟩
  have hwork : l.work e = (m.stage e).rescueReaction e := by rw [← hm]; rfl
  rw [hm] at h3
  have h4 : HeadStands m.passSlots t y g w ws := h3.of_entry rfl
  obtain ⟨b, a, z, hend, hz1, hz2, hz3, hk⟩ := h4.progressAll (e := e) hy hws ho
  have hstage : Kept e (m.passSlots.progressAll e) (m.stage e) := by
    unfold Library.stage
    dsimp only
    have h := kept_passSlots e (m.passSlots.progressAll e)
    generalize (m.passSlots.progressAll e).passSlots = n at h
    refine (h.trans (Kept.foldl (fun l x => kept_openWaitingDelivery e l x) n.buffer.deliveryWait n)).trans ?_
    refine (kept_progressAll e _).trans ?_
    exact Kept.foldl (fun l t => kept_openLookAhead e l t) _ _
  have hafter : Kept e a (l.work e) := by
    rw [hwork]
    exact (hk.trans hstage).trans (kept_rescueReaction e _)
  have hpasses : Kept e a (Library.passes e 6 was l) := by
    unfold Library.passes Library.pass
    dsimp only
    exact ((hafter.trans (kept_registerEvents e _ was)).trans (kept_direct e _)).trans (kept_passes e 5 _ _)
  exact (hend.settles (hpasses.trans (kept_orderReservations e _ was))).congr hz1 hz2 hz3

end Ends

end Sys2Proof.Machine
end

section
-- One declaration after the other: the stacks of the threads that wait for each other count against the check's memory limit.
set_option Elab.async false
/-! The event of a burst of a FETCH in the record books. -/

namespace Sys2Proof.Machine

section RecordBursts

variable {s : State} {t : Tag} {x y : Entry} {xs : List SectorState}

theorem Entry.SentAs.record (h : x.SentAs xs y) : y.record = x.record := by rw [h]; rfl
theorem Entry.SentAs.moved (h : x.SentAs xs y) : y.moved = x.moved + xs.length := by rw [h]; rfl
theorem Entry.SentAs.job (h : x.SentAs xs y) : y.job = x.job := by rw [h]; rfl
theorem Entry.SentAs.ended (h : x.SentAs xs y) : y.ended = x.ended := by rw [h]; rfl
theorem Entry.SentAs.stopAddress (h : x.SentAs xs y) : y.stopAddress = x.record.addr.val + (x.moved + xs.length) - 1 := by rw [h]; rfl

theorem Entry.SentAs.notes (h : x.SentAs xs y) : y.notes.fromTwin = (x.notes.fromTwin || xs.any fun z => z.source == .twin)
    ∧ y.notes.fromHold = (x.notes.fromHold || xs.any fun z => z.source == .hold)
    ∧ y.notes.blankFill = (x.notes.blankFill || xs.any fun z => z.source == .zero)
    ∧ y.notes.corrected = (x.notes.corrected || xs.any SectorState.corrected) := by
  rw [h]
  exact ⟨foldl_join_fromTwin .., foldl_join_fromHold .., foldl_join_blankFill .., foldl_join_corrected ..⟩

/-- R44: the stop address of a FETCH after its event's reactions. -/
theorem KeptTo.stopAddress {z : Entry} (h : y.KeptTo z) (hy : y.ended = none) (hm : z.moved = y.moved)
    (hs : y.stopAddress = y.record.addr.val + y.moved - 1) :
    z.stopAddress = if z.ended = none ∨ z.ended = some .done then y.record.addr.val + z.moved - 1 else y.record.addr.val + z.moved := by
  rw [h.stop (Entry.live_iff.mpr hy)]
  cases hz : z.ended with
  | none => exact hs.trans (by rw [if_pos (.inl rfl), hm])
  | some o =>
    by_cases ho : o = .done
    · subst ho; rfl
    · refine (if_neg ho).trans (if_neg ?_).symm
      simpa using ho

/-- Settles O12: the burst and its notes are told before the reactions, which keep them; the request ends in the first pass of the reactions, where nothing before its own
course touches its delivery window. -/
theorem fetchBurstDelivers : Obligations.FetchBurstDelivers := by
  refine ⟨?_, fun e l t x g n hx hl hj => progress_course e l t x g n hx hl hj⟩
  intro s t rest x g w ws count hs hlink hr hx hlive hjob hw hc hrun run xs
  have hxs : w.burst (sectorOf (x.record.addr.val + x.moved)) count = xs := by
    unfold Window.burst
    rw [if_congr (and_iff_right (show 0 < count from hc)) rfl rfl]
    rfl
  have hne : xs ≠ [] := hxs ▸ burst_ne_nil hrun hc
  have hlen : xs.length ≤ 64 := by rw [← hxs]; exact List.length_take_le ..
  have hpos : 1 ≤ xs.length := List.length_pos_iff.mpr hne
  have hexec := exec_burst_fetch count hs hlink hr hx hlive hjob hw
  rw [hxs] at hexec
  have hd : Delivers s.begin (s.begin.deliver t x w xs) t x xs := State.deliver_delivers s.begin t x w hne
  have hquiet : x.record.mode = .none ∨ (x.record.addr.val + x.moved) % 64 ≠ 0 ∨ (∀ c n, w.resolved ≠ .head c n ∧ w.resolved ≠ .cont c n) →
      s.begin.deliver t x w xs = { s.begin with lib := s.begin.lib.burst t x xs } := fun h =>
    State.deliver_quiet hne (Entry.offer_none h)
  clear_value xs run
  revert hd hexec hquiet
  generalize s.begin.deliver t x w xs = a
  intro hexec hd hquiet
  obtain ⟨y, hy, hsent⟩ := hd.entry
  have hyl : y.ended = none := hsent.ended.trans hlive
  have hyj : y.job = .fetch g := hsent.job.trans hjob
  have hreact : Reacted s (a.react s.begin.lib) s.env a.fee a.lib := hd.env ▸ State.react_reacted hd.pending
  obtain ⟨z, hz, hk⟩ := hreact.lib.entry t y hy
  have hzm : z.moved = x.moved + xs.length := (hk.moved (by simp [hyj])).trans hsent.moved
  obtain ⟨os, hos⟩ := hreact.lib.out
  have hstands : HeadStands a.lib t y g w ws := by
    refine ⟨ws, hy.trans (congrArg some ?_), fun v hv => ⟨v, hv, rfl, rfl⟩⟩
    rw [← hw, ← hyj]
  have hends {o : Outcome} (hws : ∀ v ∈ ws, ¬ v.SameKey w) (hi : w.item = none) (hp : w.state ≠ .pending) (ho : y.AtEnd g w ws o) :
      RequestEnds (a.react s.begin.lib).lib t z o (x.moved + xs.length) := by
    have h := hstands.settles (e := s.env) hyl hws hi hp ho s.begin.lib
    rw [← hreact.reacts, hsent.moved] at h
    exact h.congr hk.record.symm hk.notes.symm hk.amount.symm
  obtain ⟨n1, n2, n3, n4⟩ := hsent.notes
  have hnext : y.next = x.record.addr.val + x.moved + xs.length := by
    unfold Entry.next
    rw [hsent.record, hsent.moved, Nat.add_assoc]
  refine ⟨_, z, os, hexec, hreact.pending, hreact.env, hreact, ?_, hz, hk.record.trans hsent.record, hzm, hpos, hlen, ?_,
    (congrArg Notes.fromTwin hk.notes).trans n1, (congrArg Notes.fromHold hk.notes).trans n2, (congrArg Notes.blankFill hk.notes).trans n3,
    (congrArg Notes.corrected hk.notes).trans n4, fun h => ?_, ?_, fun b => ?_, ?_, fun hws hst hi hp hlast => ?_, fun st hst hi hp hws hle ha => ?_⟩
  · rw [hos, hd.rest]
    rfl
  · rw [KeptTo.stopAddress hk hyl (hzm.trans hsent.moved.symm) (by rw [hsent.stopAddress, hsent.record, hsent.moved]), hsent.record]
  · have ha := hquiet h
    have hax : y = x.delivered xs := by
      rw [ha] at hy
      exact Option.some.inj (hy.symm.trans (burst_entry ..))
    exact ⟨hreact.fee.trans (by rw [ha]; rfl), hk.amount.trans (by rw [hax]; rfl),
      (congrArg Notes.charged hk.notes).trans (by rw [hax]; exact foldl_join_charged ..)⟩
  · rw [hreact.lib.locations, hd.rest]; rfl
  · rw [hreact.lib.filing, hd.rest]; rfl
  · rw [hreact.lib.hold, hd.rest]; rfl
  · refine hends (by rw [hws]; exact fun v hv => nomatch hv) hi hp (.run hws ?_)
    rw [hnext]; exact hlast
  · refine hends (fun v hv hk => (hws v hv).elim (fun h => h hk.1) fun h => h hk.2) hi hp (.stop hst ?_ ?_)
    · rw [hnext, ← ha]
      unfold Window.address
      omega
    · rw [hnext, ha]

end RecordBursts

end Sys2Proof.Machine
end

section
-- One declaration after the other: the stacks of the threads that wait for each other count against the check's memory limit.
set_option Elab.async false
/-! What HOLD makes of the requests (R89, R181): every request ends but for the FILEs in WRITING. -/

namespace Sys2Proof.Machine

section Holding

variable {l m a : Library} {t : Tag} {x : Entry}

/-- R89, R181: a request that HOLD ends, with the sectors moved that it ends with. -/
inductive Entry.HeldAt (x : Entry) : Nat → Prop
  | fetch {g : Fetching} (h : x.job = .fetch g) : x.HeldAt x.moved
  | pages (h : x.job = .servicePages) : x.HeldAt x.moved
  | write {p : Bool} (h : x.job = .serviceWrite p) : x.HeldAt 0
  | file {g : Filing} (h : x.job = .file g) (hp : g.phase ≠ .writing) : x.HeldAt 0

/-- R44, R181: what HOLD leaves of the requests of `m`, and of what it does not touch. -/
structure HeldTo (m a : Library) : Prop where
  ends : ∀ t x n, m.entry t = some x → x.ended = none → x.HeldAt n →
    ∃ d, a.entry t = some (x.end_ .powerHold n d) ∧ (x.end_ .powerHold n d).response .powerHold ∈ a.front.ending
  past : ∀ t x, m.entry t = some x → x.ended ≠ none → a.entry t = some x
  writing : ∀ t x g, m.entry t = some x → x.ended = none → x.job = .file g → g.phase = .writing → a.entry t = some x
  ending : ∀ r ∈ m.front.ending, r ∈ a.front.ending
  filing : ∀ b, (a.book b).filing = (m.book b).filing
  picker : a.picker = m.picker
  log : a.log = m.log
  out : a.out = m.out

/-- A visit of every tag: what the steps of the others keep before a tag's own step, what that step makes, and what the others keep of it. -/
theorem foldl_visit {f : Library → Tag → Library} {l : Library} {t : Tag} (P Q : Library → Prop) (hP : ∀ m u, u ≠ t → P m → P (f m u))
    (h0 : P l) (hown : ∀ m, P m → Q (f m t)) (hQ : ∀ m u, u ≠ t → Q m → Q (f m u)) : Q (allTags.foldl f l) := by
  obtain ⟨pre, post, hsplit⟩ := List.append_of_mem (List.mem_finRange t)
  have hnd := List.nodup_finRange 16
  rw [hsplit] at hnd
  have hpre : t ∉ pre := fun hin => List.disjoint_of_nodup_append hnd hin List.mem_cons_self
  have hpost : t ∉ post := (List.nodup_cons.mp (List.nodup_append.mp hnd).2.1).1
  rw [show allTags = pre ++ t :: post from hsplit, List.foldl_append, List.foldl_cons]
  exact List.foldlRecOn (motive := Q) _ _
    (hown _ (List.foldlRecOn (motive := P) _ _ h0 fun m hm u hu => hP m u (fun h => hpre (h ▸ hu)) hm))
    fun m hm u hu => hQ m u (fun h => hpost (h ▸ hu)) hm

/-- A visit of every tag at which each tag's step touches its own request alone: what it makes of one request. -/
theorem foldl_tags {f : Library → Tag → Library} (hothers : ∀ l t u, u ≠ t → (f l t).entry u = l.entry u)
    (hending : ∀ l t r, r ∈ l.front.ending → r ∈ (f l t).front.ending) (l : Library) (t : Tag) :
    ∃ k : Library, k.entry t = l.entry t ∧ (allTags.foldl f l).entry t = (f k t).entry t
      ∧ ∀ r ∈ (f k t).front.ending, r ∈ (allTags.foldl f l).front.ending := by
  refine foldl_visit (fun m => m.entry t = l.entry t)
    (fun m => ∃ k : Library, k.entry t = l.entry t ∧ m.entry t = (f k t).entry t ∧ ∀ r ∈ (f k t).front.ending, r ∈ m.front.ending)
    (fun m u hu h => (hothers m u t (Ne.symm hu)).trans h) rfl (fun m h => ⟨m, h, rfl, fun _ hr => hr⟩) fun m u hu => ?_
  rintro ⟨k, h1, h2, h3⟩
  exact ⟨k, h1, (hothers m u t (Ne.symm hu)).trans h2, fun r hr => hending m u r (h3 r hr)⟩

/-- R44: the end of a request as one step of such a visit. -/
theorem endRequest_others (l : Library) (t u : Tag) (o : Outcome) (m d : Nat) (hu : u ≠ t) : (l.endRequest t o m d).entry u = l.entry u := by
  cases hx : l.entry t with
  | none => rw [endRequest_none hx]
  | some x => exact (endRequest_ends hx o m d).others u hu

theorem endRequest_ending (l : Library) (t : Tag) (o : Outcome) (m d : Nat) {r : Response} (hr : r ∈ l.front.ending) :
    r ∈ (l.endRequest t o m d).front.ending := by
  cases hx : l.entry t with
  | none => rw [endRequest_none hx]; exact hr
  | some x => rw [(endRequest_ends hx o m d).ending]; exact List.mem_append_left _ hr

/-- The blocks that the end of a request leaves. -/
structure SameHeld (l a : Library) : Prop where
  filing : ∀ b, (a.book b).filing = (l.book b).filing
  picker : a.picker = l.picker
  log : a.log = l.log
  out : a.out = l.out

theorem SameHeld.refl (l : Library) : SameHeld l l := ⟨fun _ => rfl, rfl, rfl, rfl⟩

theorem SameHeld.trans (h : SameHeld l m) (k : SameHeld m a) : SameHeld l a :=
  ⟨fun b => (k.filing b).trans (h.filing b), k.picker.trans h.picker, k.log.trans h.log, k.out.trans h.out⟩

theorem SameHeld.foldl {f : Library → Tag → Library} (h : ∀ l t, SameHeld l (f l t)) (xs : List Tag) (l : Library) : SameHeld l (xs.foldl f l) :=
  List.foldlRecOn (motive := fun m => SameHeld l m) _ _ (.refl l) fun m hm t _ => hm.trans (h m t)

theorem sameHeld_endRequest (l : Library) (t : Tag) (o : Outcome) (m d : Nat) : SameHeld l (l.endRequest t o m d) := by
  cases hx : l.entry t with
  | none => rw [endRequest_none hx]; exact .refl l
  | some x =>
    have h := endRequest_ends hx o m d
    exact ⟨fun b => congrArg (fun v : Vector BookEntry 127 => (look v b).filing) h.books, h.picker, h.log, h.out⟩

/-- R181: a request that is not a FILE ends, or stays as it is. -/
theorem holdRequest_cases (l : Library) (t : Tag) :
    l.holdRequest t = l ∨ ∃ n d, l.holdRequest t = l.endRequest t .powerHold n d := by
  unfold Library.holdRequest
  cases hx : l.entry t with
  | none => exact .inl rfl
  | some x =>
    dsimp only
    by_cases hl : x.live = true
    · rw [if_pos hl]
      cases x.job with
      | fetch g => exact .inr ⟨_, _, rfl⟩
      | servicePages => exact .inr ⟨_, _, rfl⟩
      | serviceWrite p => exact .inr ⟨_, _, rfl⟩
      | file g => exact .inl rfl
      | refused => exact .inl rfl
    · rw [if_neg hl]; exact .inl rfl

/-- R181: the step of one request as HOLD begins. -/
theorem holdRequest_own {l : Library} (hx : l.entry t = some x) :
    (x.ended ≠ none → l.holdRequest t = l) ∧ (∀ g, x.job = .file g → l.holdRequest t = l)
      ∧ ∀ n, x.ended = none → (∀ g, x.job ≠ .file g) → x.HeldAt n → ∃ d, l.holdRequest t = l.endRequest t .powerHold n d := by
  unfold Library.holdRequest
  rw [hx]
  dsimp only
  refine ⟨fun he => if_neg (fun hl => he (Entry.live_iff.mp hl)), fun g hj => ?_, fun n he hf hn => ?_⟩
  · rw [hj]
    split <;> rfl
  · rw [if_pos (Entry.live_iff.mpr he)]
    cases hn with
    | fetch h => rw [h]; exact ⟨_, rfl⟩
    | pages h => rw [h]; exact ⟨_, rfl⟩
    | write h => rw [h]; exact ⟨_, rfl⟩
    | file h hp => exact absurd h (hf _)

/-- R89: the step of one FILE as HOLD begins. -/
def Library.holdFile (l : Library) (t : Tag) : Library :=
  match l.fileOf t with
  | some (_, g) => (l.unwindFile t .powerHold).lowerIntake g.book
  | none => l

theorem unwindAll_eq (l : Library) : l.unwindAll = allTags.foldl Library.holdFile l := rfl

theorem unwindFile_cases (l : Library) (t : Tag) (o : Outcome) : l.unwindFile t o = l ∨ ∃ d, l.unwindFile t o = l.endRequest t o 0 d := by
  unfold Library.unwindFile
  split
  · split
    · exact .inl rfl
    · exact .inr ⟨_, rfl⟩
  · exact .inl rfl

theorem lowerIntake_front (l : Library) (b : Book) : (l.lowerIntake b).front = l.front := rfl

theorem sameHeld_lowerIntake (l : Library) (b : Book) : SameHeld l (l.lowerIntake b) := by
  refine ⟨fun k => ?_, rfl, rfl, rfl⟩
  rw [Library.lowerIntake_book]
  split
  next h => rw [h]
  next => rfl

theorem holdFile_cases (l : Library) (t : Tag) :
    l.holdFile t = l ∨ (∃ b, l.holdFile t = l.lowerIntake b) ∨ ∃ b d, l.holdFile t = (l.endRequest t .powerHold 0 d).lowerIntake b := by
  unfold Library.holdFile
  split
  next x g hg =>
    rcases unwindFile_cases l t .powerHold with h | ⟨d, h⟩
    · rw [h]; exact .inr (.inl ⟨_, rfl⟩)
    · rw [h]; exact .inr (.inr ⟨_, _, rfl⟩)
  next => exact .inl rfl

/-- R89: a request that has ended, or is not a FILE, is not touched; a FILE in WRITING is left as well. -/
theorem holdFile_stays {l : Library} (hx : l.entry t = some x) (h : x.ended ≠ none ∨ (∀ g, x.job ≠ .file g) ∨ ∃ g, x.job = .file g ∧ g.phase = .writing) :
    (l.holdFile t).entry t = some x := by
  unfold Library.holdFile
  cases hf : l.fileOf t with
  | none => exact hx
  | some p =>
    obtain ⟨y, g⟩ := p
    obtain ⟨hy, hl, hj⟩ := Library.fileOf_some hf
    obtain rfl := Option.some.inj (hx.symm.trans hy)
    rcases h with h | h | ⟨g', hg', hp⟩
    · exact absurd (Entry.live_iff.mp hl) h
    · exact absurd hj (h g)
    · obtain rfl : g' = g := Job.file.inj (hg'.symm.trans hj)
      have hu : l.unwindFile t .powerHold = l := by
        unfold Library.unwindFile
        rw [hf]
        exact if_pos hp
      show ((l.unwindFile t .powerHold).lowerIntake g'.book).entry t = _
      rw [hu]
      exact hx

theorem holdFile_ends {l : Library} {g : Filing} (hx : l.entry t = some x) (he : x.ended = none) (hj : x.job = .file g) (hp : g.phase ≠ .writing) :
    ∃ d, l.holdFile t = (l.endRequest t .powerHold 0 d).lowerIntake g.book := by
  have hf : l.fileOf t = some (x, g) := by
    unfold Library.fileOf
    rw [hx]
    simp [Entry.live_iff.mpr he, hj]
  obtain ⟨d, hd⟩ := unwindFile_of_file hf hp .powerHold
  refine ⟨d, ?_⟩
  unfold Library.holdFile
  rw [hf]
  show (l.unwindFile t .powerHold).lowerIntake g.book = _
  rw [hd]

theorem endFetches_eq (l : Library) : l.endFetches = allTags.foldl Library.holdRequest l := rfl

/-- R181: the requests that are no FILEs, as HOLD begins. -/
theorem endFetches_held (l : Library) (t : Tag) :
    ∃ k : Library, k.entry t = l.entry t ∧ l.endFetches.entry t = (k.holdRequest t).entry t
      ∧ ∀ r ∈ (k.holdRequest t).front.ending, r ∈ l.endFetches.front.ending := by
  rw [endFetches_eq]
  refine foldl_tags (f := Library.holdRequest) (fun l t u hu => ?_) (fun l t r hr => ?_) l t
  · rcases holdRequest_cases l t with h | ⟨n, d, h⟩ <;> rw [h]
    exact endRequest_others l t u _ n d hu
  · rcases holdRequest_cases l t with h | ⟨n, d, h⟩ <;> rw [h]
    · exact hr
    · exact endRequest_ending l t _ n d hr

/-- R89: the FILEs, as HOLD begins. -/
theorem unwindAll_held (l : Library) (t : Tag) :
    ∃ k : Library, k.entry t = l.entry t ∧ l.unwindAll.entry t = (k.holdFile t).entry t
      ∧ ∀ r ∈ (k.holdFile t).front.ending, r ∈ l.unwindAll.front.ending := by
  rw [unwindAll_eq]
  refine foldl_tags (f := Library.holdFile) (fun l t u hu => ?_) (fun l t r hr => ?_) l t
  · rcases holdFile_cases l t with h | ⟨b, h⟩ | ⟨b, d, h⟩ <;> rw [h]
    · rfl
    · exact endRequest_others l t u _ 0 d hu
  · rcases holdFile_cases l t with h | ⟨b, h⟩ | ⟨b, d, h⟩ <;> rw [h]
    · exact hr
    · exact hr
    · exact endRequest_ending l t _ 0 d hr

theorem ending_mono {f : Library → Tag → Library} (hending : ∀ l t r, r ∈ l.front.ending → r ∈ (f l t).front.ending) (l : Library) :
    ∀ r ∈ l.front.ending, r ∈ (allTags.foldl f l).front.ending := fun r hr =>
  List.foldlRecOn (motive := fun m => r ∈ m.front.ending) _ _ hr fun m hm u _ => hending m u r hm

/-- R44, R89, R181: the requests as HOLD leaves them. -/
theorem heldTo_holdRequests (m : Library) : HeldTo m m.endFetches.unwindAll := by
  have h1 (t : Tag) := endFetches_held m t
  have h2 (t : Tag) := unwindAll_held m.endFetches t
  have hmono1 : ∀ r ∈ m.front.ending, r ∈ m.endFetches.front.ending := endFetches_eq m ▸ ending_mono (f := Library.holdRequest) (fun l t r hr => by
    rcases holdRequest_cases l t with h | ⟨n, d, h⟩ <;> rw [h]
    · exact hr
    · exact endRequest_ending l t _ n d hr) m
  have hmono2 : ∀ r ∈ m.endFetches.front.ending, r ∈ m.endFetches.unwindAll.front.ending := unwindAll_eq m.endFetches ▸ ending_mono (f := Library.holdFile) (fun l t r hr => by
    rcases holdFile_cases l t with h | ⟨b, h⟩ | ⟨b, d, h⟩ <;> rw [h]
    · exact hr
    · exact hr
    · exact endRequest_ending l t _ 0 d hr) m.endFetches
  have hsame : SameHeld m m.endFetches.unwindAll := by
    refine (SameHeld.foldl (fun l t => ?_) allTags m).trans (SameHeld.foldl (f := Library.holdFile) (fun l t => ?_) allTags m.endFetches)
    · rcases holdRequest_cases l t with h | ⟨n, d, h⟩ <;> rw [h]
      · exact .refl l
      · exact sameHeld_endRequest l t _ n d
    · rcases holdFile_cases l t with h | ⟨b, h⟩ | ⟨b, d, h⟩ <;> rw [h]
      · exact .refl l
      · exact sameHeld_lowerIntake l b
      · exact (sameHeld_endRequest l t _ 0 d).trans (sameHeld_lowerIntake _ b)
  have hover {t : Tag} {x : Entry} (hx : m.endFetches.entry t = some x)
      (h : x.ended ≠ none ∨ (∀ g, x.job ≠ .file g) ∨ ∃ g, x.job = .file g ∧ g.phase = .writing) : m.endFetches.unwindAll.entry t = some x := by
    obtain ⟨k, hk, he, -⟩ := h2 t
    rw [he]
    exact holdFile_stays (hk.trans hx) h
  have hkeep {t : Tag} {x : Entry} (hx : m.entry t = some x) (h : x.ended ≠ none ∨ ∃ g, x.job = .file g) : m.endFetches.entry t = some x := by
    obtain ⟨k, hk, he, -⟩ := h1 t
    have hkx := hk.trans hx
    obtain ⟨o1, o2, -⟩ := holdRequest_own hkx
    rw [he]
    rcases h with h | ⟨g, h⟩
    · rw [o1 h]; exact hkx
    · rw [o2 g h]; exact hkx
  refine ⟨fun t x n hx he hn => ?_, fun t x hx he => hover (hkeep hx (.inl he)) (.inl he),
    fun t x g hx he hj hp => hover (hkeep hx (.inr ⟨g, hj⟩)) (.inr (.inr ⟨g, hj, hp⟩)), fun r hr => hmono2 r (hmono1 r hr), hsame.filing, hsame.picker,
    hsame.log, hsame.out⟩
  by_cases hf : ∃ g, x.job = .file g
  · obtain ⟨g, hj⟩ := hf
    have hn0 : n = 0 ∧ g.phase ≠ .writing := by
      cases hn with
      | fetch h => rw [hj] at h; cases h
      | pages h => rw [hj] at h; cases h
      | write h => rw [hj] at h; cases h
      | file h hp => rw [hj] at h; cases h; exact ⟨rfl, hp⟩
    obtain ⟨rfl, hp⟩ := hn0
    obtain ⟨k, hk, hke, hkr⟩ := h2 t
    have hkx : k.entry t = some x := hk.trans (hkeep hx (.inr ⟨g, hj⟩))
    obtain ⟨d, hd⟩ := holdFile_ends hkx he hj hp
    have hend := endRequest_ends hkx .powerHold 0 d
    refine ⟨d, ?_, hkr _ ?_⟩
    · rw [hke, hd]; exact hend.entry
    · rw [hd, lowerIntake_front, hend.ending]
      exact List.mem_append_right _ (List.mem_singleton_self _)
  · obtain ⟨k, hk, hke, hkr⟩ := h1 t
    have hkx : k.entry t = some x := hk.trans hx
    obtain ⟨-, -, o3⟩ := holdRequest_own hkx
    obtain ⟨d, hd⟩ := o3 n he (fun g hj => hf ⟨g, hj⟩) hn
    have hend := endRequest_ends hkx .powerHold n d
    refine ⟨d, hover ?_ (.inl (by simp [Entry.end_])), hmono2 _ (hkr _ ?_)⟩
    · rw [hke, hd]; exact hend.entry
    · rw [hd, hend.ending]
      exact List.mem_append_right _ (List.mem_singleton_self _)

end Holding

end Sys2Proof.Machine
end

section
-- One declaration after the other: the stacks of the threads that wait for each other count against the check's memory limit.
set_option Elab.async false
/-! The power warning (R181) and its withdrawal (R182), with no sector in transfer or with a burst that is not looked at. -/

namespace Sys2Proof.Machine

section Warning

variable {s : State} {i : InTransfer}

/-- R44, R89, R181: a request that HOLD ends has ended after the reactions too. -/
theorem HeldTo.requestEnds {m a c : Library} {e : Env} {t : Tag} {x : Entry} {n : Nat} (h : HeldTo m a) (k : Settled e a c)
    (hx : m.entry t = some x) (hl : x.ended = none) (hn : x.HeldAt n) : RequestEnds c t x .powerHold n := by
  obtain ⟨d, he, hr⟩ := h.ends t x n hx hl hn
  obtain ⟨y, hy, hk⟩ := k.entry t _ he
  obtain rfl := hk.ended rfl
  obtain ⟨rs, hrs, hm⟩ := k.responses
  exact ⟨⟨_, hy, rfl, rfl, rfl, rfl, rfl, rfl⟩, by rw [hrs]; exact List.mem_append_right _ (hm _ hr)⟩

/-- R181: the state as the power warning leaves it before the reactions. -/
def State.held (s : State) (i : Option InTransfer) : State := { s.warned i with lib := (s.warned i).lib.endFetches.unwindAll }

/-- R181: the event of the power warning. -/
theorem exec_asserts (i : Option InTransfer) (hs : s.env.startUp = none) (hh : s.env.hold = false) :
    exec (.powerWarning i) s = .next (s.begin.assertWarning i) := by
  show execPowerWarning i s = _
  unfold execPowerWarning
  have hs' : s.begin.env.startUp = none := hs
  have hh' : s.begin.env.hold = false := hh
  simp only [hs', hh', Bool.false_eq_true, if_false]

theorem exec_warning (i : Option InTransfer) (hs : s.env.startUp = none) (hh : s.env.hold = false) :
    exec (.powerWarning i) s = .next (State.react (s.begin.held i) s.begin.lib) := by
  rw [exec_asserts i hs hh, State.assertWarning_eq]
  rfl

/-- R181, R152: the event of the power warning, by what the burst on the link leaves of it. -/
theorem warning_reacted {i : Option InTransfer} {v : State} (hv : s.begin.warned i = v) (hp : v.pending = s.pending) :
    Reacted s (State.react (s.begin.held i) s.begin.lib) v.env v.fee v.lib.endFetches.unwindAll := by
  unfold State.held
  rw [hv]
  generalize v.lib.endFetches.unwindAll = a
  exact State.react_reacted hp

theorem closeAll_closed (f : Fee) (k : Station) : look f.closeAll.orders k = none ∧ look f.closeAll.recent k = [] :=
  ⟨look_replicate .., look_replicate ..⟩

/-- R42, R89, R149, R152, R181: the power warning with no sector in transfer. -/
theorem warning_holds (hs : s.env.startUp = none) (hh : s.env.hold = false) :
      ∃ u, exec (.powerWarning none) s = .next u ∧ u.pending = s.pending ∧ u.env = { s.env with hold := true, holdMarker := true }
        ∧ (∀ k, look u.fee.orders k = none ∧ look u.fee.recent k = [])
        ∧ u.fee.tallies = s.fee.tallies ∧ u.fee.schedule = s.fee.schedule ∧ u.fee.closedTallies = s.fee.closedTallies
        ∧ (∀ t x, s.lib.entry t = some x → x.ended = none →
          ((∃ g, x.job = .fetch g) ∨ x.job = .servicePages ∨ ∃ p, x.job = .serviceWrite p) → RequestEnds u.lib t x .powerHold
            (match x.job with
              | .serviceWrite _ => 0
              | _ => x.moved))
        ∧ (∀ t x g, s.lib.entry t = some x → x.ended = none → x.job = .file g → g.phase ≠ .writing → RequestEnds u.lib t x .powerHold 0)
        ∧ (∀ t x g, s.lib.entry t = some x → x.ended = none → x.job = .file g → g.phase = .writing → u.lib.entry t = some x)
        ∧ (∀ b, (u.lib.book b).filing = (s.lib.book b).filing) ∧ u.lib.picker.locations = s.lib.picker.locations
        ∧ (s.lib.log.first = none → KindSet.has s.env.mask .powerWarning = false →
          u.lib.log.first = some ⟨.powerWarning, none, none, none, none, none, none, s.env.day⟩) := by
  have hr := warning_reacted (s := s) (i := none) (v := s.begin.beginHold) rfl rfl
  have hheld := heldTo_holdRequests s.begin.beginHold.lib
  revert hr hheld
  generalize s.begin.beginHold.lib.endFetches.unwindAll = a
  intro hr hheld
  refine ⟨_, exec_warning none hs hh, hr.pending, hr.env, fun k => ?_, ?_, ?_, ?_, fun t x hx hl hj => ?_, fun t x g hx hl hj hp => ?_,
    fun t x g hx hl hj hp => ?_, fun b => ?_, ?_, fun hf hm => ?_⟩
  · rw [hr.fee]; exact closeAll_closed _ k
  · rw [hr.fee]; rfl
  · rw [hr.fee]; rfl
  · rw [hr.fee]; rfl
  · rcases hj with ⟨g, hj⟩ | hj | ⟨p, hj⟩ <;> rw [hj]
    · exact hheld.requestEnds hr.lib hx hl (.fetch hj)
    · exact hheld.requestEnds hr.lib hx hl (.pages hj)
    · exact hheld.requestEnds hr.lib hx hl (.write hj)
  · exact hheld.requestEnds hr.lib hx hl (.file hj hp)
  · obtain ⟨y, hy, hk⟩ := hr.lib.entry t x (hheld.writing t x g hx hl hj hp)
    rw [hy, hk.writing g hj hp]
  · exact (hr.lib.filing b).trans (hheld.filing b)
  · exact hr.lib.locations.trans (congrArg Picker.locations hheld.picker)
  · refine hr.lib.first _ ?_
    rw [hheld.log]
    exact fault_first (l := s.begin.lib) (r := FaultRecord.of s.env .powerWarning) hf hm

/-- R28, R181: an operand that names no sector is as none. -/
theorem warning_alone (hb : s.begin.lib.burstOnLink i.sent = none) : exec (.powerWarning (some i)) s = exec (.powerWarning none) s := by
  have hover : s.begin.holdOver i = s.begin.beginHold := by
    unfold State.holdOver
    rw [hb]
  show execPowerWarning (some i) s = execPowerWarning none s
  unfold execPowerWarning State.assertWarning
  dsimp only
  rw [hover]

/-- R26, R28: a burst with too few sectors ready is not the one in transfer. -/
theorem burstOnLink_short {l : Library} {n : Nat} (h : 64 ≤ n ∨ ∃ t rest x, l.front.ready = .burst t :: rest ∧ l.entry t = some x ∧ x.sectorsReady ≤ n) :
    l.burstOnLink n = none := by
  cases hb : l.burstOnLink n with
  | none => rfl
  | some p =>
    obtain ⟨-, h2, h3, h4, h5⟩ := burstOnLink_some hb
    have h5' : n < 64 := h5
    rcases h with h | ⟨t, rest, x, hr, hx, hn⟩
    · omega
    · rw [hr] at h2
      obtain rfl : t = p.1 := by
        have := Option.some.inj h2
        exact LinkJob.burst.inj this
      obtain rfl := Option.some.inj (hx.symm.trans h3)
      omega

theorem sectorsReady_fetch {x : Entry} {g : Fetching} {w : Window} {ws : List Window} (hj : x.job = .fetch g) (hw : g.windows = w :: ws) :
    x.sectorsReady ≤ (w.run (sectorOf (x.record.addr.val + x.moved))).length := by
  unfold Entry.sectorsReady
  rw [hj]
  dsimp only
  rw [hw]
  split
  · exact Nat.le_refl _
  · exact Nat.zero_le _

theorem sectorsReady_pages {x : Entry} (hj : x.job = .servicePages) : x.sectorsReady ≤ x.record.count.val - x.moved := by
  unfold Entry.sectorsReady
  rw [hj]
  split
  · exact Nat.le_refl _
  · exact Nat.zero_le _

/-- R28, R181: the operands that name no sector in transfer. -/
theorem warning_names_none (s : State) (i : InTransfer)
    (h : s.lib.front.linkBurst ≠ none ∨ (∀ t, s.lib.front.ready.head? ≠ some (.burst t)) ∨ 64 ≤ i.sent
        ∨ (∃ t rest x, s.lib.front.ready = .burst t :: rest ∧ s.lib.entry t = some x
          ∧ ((∃ g w ws, x.job = .fetch g ∧ g.windows = w :: ws ∧ (w.run (sectorOf (x.record.addr.val + x.moved))).length ≤ i.sent)
            ∨ (x.job = .servicePages ∧ x.record.count.val ≤ x.moved + i.sent)))) :
    exec (.powerWarning (some i)) s = exec (.powerWarning none) s := by
  refine warning_alone ?_
  rcases h with h | h | h | ⟨t, rest, x, hr, hx, h⟩
  · exact burstOnLink_none (l := s.begin.lib) (.inl h)
  · exact burstOnLink_none (l := s.begin.lib) (.inr h)
  · exact burstOnLink_short (.inl h)
  · refine burstOnLink_short (l := s.begin.lib) (.inr ⟨t, rest, x, hr, hx, ?_⟩)
    rcases h with ⟨g, w, ws, hj, hw, hn⟩ | ⟨hj, hn⟩
    · exact (sectorsReady_fetch hj hw).trans hn
    · have := sectorsReady_pages hj
      omega

/-- R152: every order is closed after the warning, whatever was in transfer. -/
theorem warning_closes (s : State) (i : InTransfer) (hs : s.env.startUp = none) (hh : s.env.hold = false) :
    ∃ u, exec (.powerWarning (some i)) s = .next u ∧ u.pending = s.pending ∧ u.env = { s.env with hold := true, holdMarker := true }
        ∧ ∀ k, look u.fee.orders k = none := by
  obtain ⟨he, hf⟩ := s.begin.assertWarning_accounts (some i)
  exact ⟨_, exec_asserts (some i) hs hh, assertWarning_pending s.begin (some i), he, Fee.noOrders_held hf⟩

/-- R182: the withdrawal of the power warning. -/
theorem holdEnd_ends (s : State) (hs : s.env.startUp = none) (hh : s.env.hold = true) :
      ∃ u, exec .holdEnd s = .next u
        ∧ Reacted s u { s.env with hold := false, holdMarker := false } s.fee
            { s.lib with
              scheduler := { s.lib.scheduler with decisionDue := true }, care := { s.lib.care with patrolDue := true }, out := [] }
        ∧ ∀ t x, s.lib.entry t = some x → ∃ y, u.lib.entry t = some y ∧ x.KeptTo y := by
  obtain ⟨a, ha⟩ : ∃ a : Library, { s.lib with
      scheduler := { s.lib.scheduler with decisionDue := true }, care := { s.lib.care with patrolDue := true }, out := [] } = a := ⟨_, rfl⟩
  have hexec : exec .holdEnd s = .next (State.react { s with env := { s.env with hold := false, holdMarker := false }, lib := a } s.begin.lib) := by
    show execHoldEnd s = _
    unfold execHoldEnd
    have hs' : s.begin.env.startUp = none := hs
    have hh' : s.begin.env.hold = true := hh
    simp only [hs', hh', if_true]
    rw [← ha]
    rfl
  rw [ha]
  have hr : Reacted s (State.react { s with env := { s.env with hold := false, holdMarker := false }, lib := a } s.begin.lib)
      { s.env with hold := false, holdMarker := false } s.fee a := State.react_reacted rfl
  exact ⟨_, hexec, hr, fun t x hx => hr.lib.entry t x (ha ▸ hx)⟩

end Warning

end Sys2Proof.Machine
end

section
-- One declaration after the other: the stacks of the threads that wait for each other count against the check's memory limit.
set_option Elab.async false
/-! The power warning with a sector of a burst in transfer (R42, R152, R181). -/

namespace Sys2Proof.Machine

section Transfers

variable {s v : State} {t : Tag} {x y : Entry} {i : InTransfer}

theorem sameHeld_endDelivered (l : Library) (t : Tag) : SameHeld l (l.endDelivered t) := by
  rcases endDelivered_cases l t with ⟨h, -⟩ | ⟨x, -, -, h⟩ <;> rw [h]
  · exact .refl l
  · exact sameHeld_endRequest ..

/-- R44, R181: a FETCH whose burst was cut ends with the last sector of its run, or with HOLD. -/
theorem endDelivered_holds {b m a c : Library} {e : Env} (hb : b.entry t = some y) (hl : y.ended = none) (hn : y.HeldAt y.moved)
    (hm : m.front = (b.endDelivered t).front) (h : HeldTo m a) (k : Settled e a c) :
    RequestEnds c t y (if y.moved = y.record.count.val then .done else .powerHold) y.moved := by
  have hentry (u : Tag) : m.entry u = (b.endDelivered t).entry u := congrArg (fun f : Front => look f.table u) hm
  rcases endDelivered_cases b t with ⟨hd, hno⟩ | ⟨z, hz, hlast, hd⟩
  · rw [if_neg (hno y hb)]
    refine h.requestEnds k ((hentry t).trans ?_) hl hn
    rw [hd, hb]
  · obtain rfl := Option.some.inj (hb.symm.trans hz)
    rw [if_pos hlast]
    have hend := endRequest_ends hb .done y.moved 0
    rw [← hd] at hend
    have ha := h.past t _ ((hentry t).trans hend.entry) (by simp [Entry.end_])
    obtain ⟨z, hz, hk⟩ := k.entry t _ ha
    obtain rfl := hk.ended rfl
    obtain ⟨rs, hrs, hin⟩ := k.responses
    refine ⟨⟨_, hz, rfl, rfl, rfl, rfl, rfl, rfl⟩, ?_⟩
    rw [hrs]
    refine List.mem_append_right _ (hin _ (h.ending _ ?_))
    rw [hm, hend.ending]
    exact List.mem_append_right _ (List.mem_singleton_self _)

/-- R181: the event of a warning that cuts a burst, by the state `v` in which its requests end. -/
theorem transferred (hs : s.env.startUp = none) (hh : s.env.hold = false) (hv : s.begin.warned (some i) = v) (hp : v.pending = s.pending)
    (he : v.env = s.env.inHold) {b : Library} {o : Output} (hb : b.entry t = some y) (hl : y.ended = none) (hn : y.HeldAt y.moved)
    (hfront : v.lib.front = (b.endDelivered t).front) (hout : v.lib.out = [o]) :
    ∃ u os, exec (.powerWarning (some i)) s = .next u ∧ u.pending = s.pending ∧ u.env = { s.env with hold := true, holdMarker := true }
      ∧ u.fee = v.fee ∧ u.lib.out = o :: os
      ∧ RequestEnds u.lib t y (if y.moved = y.record.count.val then .done else .powerHold) y.moved
      ∧ (∀ r, v.lib.log.first = some r → u.lib.log.first = some r)
      ∧ ∀ k, KindSet.has v.lib.log.later k = true → KindSet.has u.lib.log.later k = true := by
  have hr := warning_reacted hv hp
  have hheld := heldTo_holdRequests v.lib
  revert hr hheld
  generalize v.lib.endFetches.unwindAll = a
  intro hr hheld
  obtain ⟨os, hos⟩ := hr.lib.out
  refine ⟨_, os, exec_warning (some i) hs hh, hr.pending, hr.env.trans he, hr.fee, ?_, endDelivered_holds hb hl hn hfront hheld hr.lib, fun r h => ?_,
    fun k h => ?_⟩
  · rw [hos, hheld.out, hout]; rfl
  · exact hr.lib.first r (by rw [hheld.log]; exact h)
  · exact hr.lib.later k (by rw [hheld.log]; exact h)

/-- R28, R181: the sector in transfer is one of the burst that is next on the link. -/
theorem burstOnLink_names {rest : List LinkJob} (hl : s.lib.front.linkBurst = none) (hr : s.lib.front.ready = .burst t :: rest)
    (hx : s.lib.entry t = some x) (hn : i.sent < x.sectorsReady) (h64 : i.sent < 64) : s.begin.lib.burstOnLink i.sent = some (t, x) := by
  unfold Library.burstOnLink
  have hj : s.begin.lib.nextJob = some (.burst t) := nextJob_burst hl hr
  rw [hj]
  dsimp only
  rw [show s.begin.lib.entry t = some x from hx]
  exact if_pos (lt_min hn h64)

/-- R152, R181: the two orders of the offer and the assertion. -/
theorem warned_cut (hb : s.begin.lib.burstOnLink i.sent = some (t, x)) :
    s.begin.warned (some i) = if offersFirst i = true then (s.begin.finishTransfer s.begin t x (i.sent + 1)).beginHold
      else s.begin.beginHold.finishTransfer s.begin t x (i.sent + 1) := by
  show s.begin.holdOver i = _
  unfold State.holdOver
  rw [hb]

/-- R42: a burst of a FETCH in the record books that is cut. -/
theorem finishTransfer_fetch (S now : State) {g : Fetching} {w : Window} {ws : List Window} (hj : x.job = .fetch g) (hw : g.windows = w :: ws) (n : Nat) :
    S.finishTransfer now t x n
      = { S.deliver t x w ((w.run (sectorOf (x.record.addr.val + x.moved))).take n) with
          lib := (S.deliver t x w ((w.run (sectorOf (x.record.addr.val + x.moved))).take n)).lib.endDelivered t } := by
  unfold State.finishTransfer
  rw [hj]
  dsimp only
  rw [hw]

theorem offersFirst_iff : offersFirst i = true ↔ i.offerFirst = true ∨ 0 < i.sent := by
  simp [offersFirst]

end Transfers

section Pages

variable {s : State} {t : Tag} {x : Entry} {i : InTransfer}

/-- R42, R185: a burst of pages that is cut. -/
theorem finishTransfer_pages (S now : State) (hj : x.job = .servicePages) {n : Nat} (h0 : n ≠ 0) (hn : x.moved + n ≤ x.record.count.val) :
    S.finishTransfer now t x n
      = { S with lib := (S.lib.sent t (x.paged n) (x.record.addr.val + x.moved) (x.pages now n)).endDelivered t } := by
  have h1 : S.finishTransfer now t x n = S.deliverPages now t x n := by
    unfold State.finishTransfer
    rw [hj]
  rw [h1, State.deliverPages_sends S now t x (count := n) (n := n) (by omega) h0]
  unfold Library.endDelivered
  rw [show (S.lib.sent t (x.paged n) (x.record.addr.val + x.moved) (x.pages now n)).entry t = some (x.paged n) from
    (sent_entry ..).trans (if_pos rfl)]
  rfl

/-- R42, R152, R181, R185: the warning with a page of the service book in transfer. -/
theorem warning_cuts_pages {rest : List LinkJob} (hs : s.env.startUp = none) (hh : s.env.hold = false) (hl : s.lib.front.linkBurst = none)
    (hr : s.lib.front.ready = .burst t :: rest) (hx : s.lib.entry t = some x) (hlive : x.ended = none) (hj : x.job = .servicePages)
    (h64 : i.sent < 64) (hn : x.moved + i.sent < x.record.count.val) :
      ∃ u os, exec (.powerWarning (some i)) s = .next u ∧ u.pending = s.pending
        ∧ u.env = { s.env with hold := true, holdMarker := true }
        ∧ u.lib.out = .burst t (x.record.addr.val + x.moved) (x.pages s.begin (i.sent + 1)) :: os
        ∧ RequestEnds u.lib t x (if x.moved + (i.sent + 1) = x.record.count.val then .done else .powerHold) (x.moved + (i.sent + 1))
        ∧ (∀ k, look u.fee.orders k = none ∧ look u.fee.recent k = []) ∧ u.fee.tallies = s.fee.tallies := by
  have hready : i.sent < x.sectorsReady := by
    unfold Entry.sectorsReady
    rw [if_pos (Entry.live_iff.mpr hlive), hj]
    show i.sent < x.record.count.val - x.moved
    omega
  have hv := warned_cut (burstOnLink_names hl hr hx hready h64)
  rw [finishTransfer_pages _ _ hj (by omega) (by omega), finishTransfer_pages _ _ hj (by omega) (by omega)] at hv
  have hheld : Entry.HeldAt (x.paged (i.sent + 1)) (x.moved + (i.sent + 1)) := .pages (x := x.paged (i.sent + 1)) hj
  by_cases hi : offersFirst i = true
  · rw [if_pos hi] at hv
    obtain ⟨u, os, h1, h2, h3, h4, h5, h6, -⟩ := transferred hs hh hv rfl rfl
      (b := s.begin.lib.sent t (x.paged (i.sent + 1)) (x.record.addr.val + x.moved) (x.pages s.begin (i.sent + 1)))
      (o := .burst t (x.record.addr.val + x.moved) (x.pages s.begin (i.sent + 1))) ((sent_entry ..).trans (if_pos rfl)) hlive hheld rfl
      (sameHeld_endDelivered _ t).out
    exact ⟨u, os, h1, h2, h3, h5, h6.congr rfl rfl rfl, fun k => by rw [h4]; exact closeAll_closed _ k, by rw [h4]; rfl⟩
  · rw [if_neg hi] at hv
    obtain ⟨u, os, h1, h2, h3, h4, h5, h6, -⟩ := transferred hs hh hv rfl rfl
      (b := s.begin.beginHold.lib.sent t (x.paged (i.sent + 1)) (x.record.addr.val + x.moved) (x.pages s.begin (i.sent + 1)))
      (o := .burst t (x.record.addr.val + x.moved) (x.pages s.begin (i.sent + 1))) ((sent_entry ..).trans (if_pos rfl)) hlive hheld rfl
      (sameHeld_endDelivered _ t).out
    exact ⟨u, os, h1, h2, h3, h5, h6.congr rfl rfl rfl, fun k => by rw [h4]; exact closeAll_closed _ k, by rw [h4]; rfl⟩

end Pages

end Sys2Proof.Machine
end

section
-- One declaration after the other: the stacks of the threads that wait for each other count against the check's memory limit.
set_option Elab.async false
/-! The power warning with a sector of a record book in transfer: the burst that is cut, and its offer before the assertion or after it (R77, R152). -/

namespace Sys2Proof.Machine

section CutBursts

variable {s : State} {t : Tag} {x : Entry} {g : Fetching} {w : Window} {ws : List Window} {i : InTransfer} {rest : List LinkJob}

/-- R75, R181: the sectors of a burst that is cut after the one in transfer. -/
def Window.cutRun (w : Window) (x : Entry) (i : InTransfer) : List SectorState :=
  (w.run (sectorOf (x.record.addr.val + x.moved))).take (i.sent + 1)

theorem cutRun_length (h : i.sent < (w.run (sectorOf (x.record.addr.val + x.moved))).length) : (w.cutRun x i).length = i.sent + 1 :=
  List.length_take_of_le h

/-- R77, R152, R181: the state in which a warning's requests end, in the two orders. -/
theorem warned_fetch (hl : s.lib.front.linkBurst = none) (hr : s.lib.front.ready = .burst t :: rest) (hx : s.lib.entry t = some x)
    (hlive : x.ended = none) (hj : x.job = .fetch g) (hw : g.windows = w :: ws) (h64 : i.sent < 64)
    (hn : i.sent < (w.run (sectorOf (x.record.addr.val + x.moved))).length) :
    (offersFirst i = true → ∀ d, s.begin.deliver t x w (w.cutRun x i) = d →
        s.begin.warned (some i) = State.beginHold { d with lib := d.lib.endDelivered t })
      ∧ (offersFirst i = false → ∀ d, s.begin.beginHold.deliver t x w (w.cutRun x i) = d →
        s.begin.warned (some i) = { d with lib := d.lib.endDelivered t }) := by
  have hready : i.sent < x.sectorsReady := by
    unfold Entry.sectorsReady
    rw [if_pos (Entry.live_iff.mpr hlive), hj]
    dsimp only
    rw [hw]
    exact hn
  have hv := warned_cut (burstOnLink_names hl hr hx hready h64)
  rw [finishTransfer_fetch _ _ hj hw, finishTransfer_fetch _ _ hj hw] at hv
  refine ⟨fun hi d hd => ?_, fun hi d hd => ?_⟩
  · rw [hv, if_pos hi, ← hd]; rfl
  · rw [hv, if_neg (by simp [hi]), ← hd]; rfl

/-- R42, R78, R152, R181: the warning cuts a burst that makes no offer. -/
theorem warning_cuts_quiet (hs : s.env.startUp = none) (hh : s.env.hold = false) (hl : s.lib.front.linkBurst = none)
    (hr : s.lib.front.ready = .burst t :: rest) (hx : s.lib.entry t = some x) (hlive : x.ended = none) (hj : x.job = .fetch g)
    (hw : g.windows = w :: ws) (h64 : i.sent < 64) (hn : i.sent < (w.run (sectorOf (x.record.addr.val + x.moved))).length)
    (hq : x.record.mode = .none ∨ (x.record.addr.val + x.moved) % 64 ≠ 0 ∨ (∀ c k, w.resolved ≠ .head c k ∧ w.resolved ≠ .cont c k)) :
        ∃ u os, exec (.powerWarning (some i)) s = .next u ∧ u.pending = s.pending
          ∧ u.env = { s.env with hold := true, holdMarker := true }
          ∧ u.lib.out = .burst t (x.record.addr.val + x.moved) ((w.cutRun x i).map SectorState.data) :: os
          ∧ RequestEnds u.lib t (x.delivered (w.cutRun x i)) (if x.moved + (i.sent + 1) = x.record.count.val then .done else .powerHold)
            (x.moved + (i.sent + 1))
          ∧ (∀ k, look u.fee.orders k = none ∧ look u.fee.recent k = []) ∧ u.fee.tallies = s.fee.tallies
          ∧ u.fee.schedule = s.fee.schedule ∧ u.fee.closedTallies = s.fee.closedTallies ∧ u.fee.closedDay = s.fee.closedDay := by
  obtain ⟨hfirst, hlater⟩ := warned_fetch hl hr hx hlive hj hw h64 hn
  have hlen := cutRun_length hn
  revert hfirst hlater hlen
  generalize w.cutRun x i = xs
  intro hfirst hlater hlen
  have hne : xs ≠ [] := by
    rintro rfl
    simp at hlen
  have hheld : Entry.HeldAt (x.delivered xs) (x.delivered xs).moved := .fetch (x := x.delivered xs) hj
  have hmoved : (x.delivered xs).moved = x.moved + (i.sent + 1) := congrArg (x.moved + ·) hlen
  have hfee {f : Fee} (h : f = s.fee.closeAll) : (∀ k, look f.orders k = none ∧ look f.recent k = []) ∧ f.tallies = s.fee.tallies
      ∧ f.schedule = s.fee.schedule ∧ f.closedTallies = s.fee.closedTallies ∧ f.closedDay = s.fee.closedDay := by
    subst h
    exact ⟨closeAll_closed _, rfl, rfl, rfl, rfl⟩
  cases hi : offersFirst i with
  | true =>
    have hv := hfirst hi _ (State.deliver_quiet (s := s.begin) hne (Entry.offer_none hq))
    obtain ⟨u, os, h1, h2, h3, h4, h5, h6, -⟩ := transferred hs hh hv rfl rfl (b := s.begin.lib.burst t x xs)
      (o := .burst t (x.record.addr.val + x.moved) (xs.map SectorState.data)) (burst_entry ..) hlive hheld rfl (sameHeld_endDelivered _ t).out
    rw [hmoved] at h6
    exact ⟨u, os, h1, h2, h3, h5, h6, hfee h4⟩
  | false =>
    have hv := hlater hi _ (State.deliver_quiet (s := s.begin.beginHold) hne (Entry.offer_none hq))
    obtain ⟨u, os, h1, h2, h3, h4, h5, h6, -⟩ := transferred hs hh hv rfl rfl (b := s.begin.beginHold.lib.burst t x xs)
      (o := .burst t (x.record.addr.val + x.moved) (xs.map SectorState.data)) (burst_entry ..) hlive hheld rfl (sameHeld_endDelivered _ t).out
    rw [hmoved] at h6
    exact ⟨u, os, h1, h2, h3, h5, h6, hfee h4⟩

/-- R148: what a charge of a page leaves of its request's entry. -/
theorem charge_eq (y : Entry) (c : Charge) : y.charge c
    = if c.charged = true then { y with amount := min 4294967295 (y.amount + c.total), notes := { y.notes with charged := true } } else y := rfl

/-- R144, R145: an offer that finds no order opens one, whose list is empty, so that its page is charged. -/
theorem take_charges {f : Fee} {now : Nat} {hold : Bool} {o : Offer} (h : look f.orders o.station = none) : (f.take now hold o).2.charged = true := by
  have hno : f.hasOrder o = false := by unfold Fee.hasOrder; rw [h]; rfl
  unfold Fee.take
  show (Fee.chargePage (f.settleOrder now o) now o).2.charged = true
  unfold Fee.settleOrder
  rw [if_neg (by simp [hno])]
  unfold Fee.chargePage
  simp only [look_put_same, List.not_mem_nil, if_false]

/-- R178: a recorded fault leaves the later set of the log what it held. -/
theorem fault_later (e : Env) (l : Library) (r : FaultRecord) {k : FaultKind} (h : KindSet.has l.log.later k = true) :
    KindSet.has (l.fault e r).log.later k = true := (kept_fault e l r).later k h

/-- R77, R144 to R148, R152, R177, R181: the warning cuts a burst that makes its offer. -/
theorem warning_cuts_offer (hs : s.env.startUp = none) (hh : s.env.hold = false) (hl : s.lib.front.linkBurst = none)
    (hr : s.lib.front.ready = .burst t :: rest) (hx : s.lib.entry t = some x) (hlive : x.ended = none) (hj : x.job = .fetch g)
    (hw : g.windows = w :: ws) (h64 : i.sent < 64) (hn : i.sent < (w.run (sectorOf (x.record.addr.val + x.moved))).length) {o : Offer}
    (ho : ∀ e : Env, e.directory = s.env.directory → x.offer e w (sectorOf (x.record.addr.val + x.moved)) = some o) (htag : o.tag = t) :
    ∃ u os, exec (.powerWarning (some i)) s = .next u ∧ u.pending = s.pending
      ∧ u.env = { s.env with hold := true, holdMarker := true }
      ∧ u.lib.out = .burst t (x.record.addr.val + x.moved) ((w.cutRun x i).map SectorState.data) :: os
      ∧ (offersFirst i = true → u.fee = (s.fee.take s.env.now false o).1.closeAll
        ∧ RequestEnds u.lib t ((x.delivered (w.cutRun x i)).charge (s.fee.take s.env.now false o).2)
          (if x.moved + (i.sent + 1) = x.record.count.val then .done else .powerHold) (x.moved + (i.sent + 1)))
      ∧ (offersFirst i = false → u.fee = (s.fee.closeAll.take s.env.now true o).1
        ∧ RequestEnds u.lib t ((x.delivered (w.cutRun x i)).charge (s.fee.closeAll.take s.env.now true o).2)
          (if x.moved + (i.sent + 1) = x.record.count.val then .done else .powerHold) (x.moved + (i.sent + 1)))
      ∧ (s.fee.tallies.saturated = false → u.fee.tallies.saturated = true → KindSet.has s.env.mask .tallySaturated = false →
        (s.lib.log.first ≠ none → KindSet.has u.lib.log.later .tallySaturated = true)
        ∧ (s.lib.log.first = none → offersFirst i = true → u.lib.log.first = some (o.saturation s.env)))
      ∧ (s.lib.log.first = none → KindSet.has s.env.mask .powerWarning = false → offersFirst i = false →
        u.lib.log.first = some (FaultRecord.of s.env .powerWarning)) := by
  obtain ⟨hfirst, hlater⟩ := warned_fetch hl hr hx hlive hj hw h64 hn
  have hlen := cutRun_length hn
  revert hfirst hlater hlen
  generalize w.cutRun x i = xs
  intro hfirst hlater hlen
  have hne : xs ≠ [] := by
    rintro rfl
    simp at hlen
  have hmoved (c : Charge) : ((x.delivered xs).charge c).moved = x.moved + (i.sent + 1) := by
    rw [charge_eq]
    split <;> exact congrArg (x.moved + ·) hlen
  have hheld (c : Charge) : Entry.HeldAt ((x.delivered xs).charge c) ((x.delivered xs).charge c).moved := by
    refine .fetch (x := (x.delivered xs).charge c) (g := g) ?_
    rw [charge_eq]
    split <;> exact hj
  have hlive' (c : Charge) : ((x.delivered xs).charge c).ended = none := by
    rw [charge_eq]
    split <;> exact hlive
  have hentry {l : Library} {e : Env} {f : Fee} : ((l.burst t x xs).offered e f o).entry t = some ((x.delivered xs).charge (f.take e.now e.hold o).2) := by
    rw [offered_entry, burst_entry, if_pos htag]
    rfl
  cases hi : offersFirst i with
  | true =>
    have hv := hfirst hi _ (State.deliver_offers (s := s.begin) hne (ho _ rfl))
    obtain ⟨b, hb⟩ : ∃ b, (s.begin.lib.burst t x xs).offered s.begin.env s.begin.fee o = b := ⟨_, rfl⟩
    have hbe : b.entry t = some ((x.delivered xs).charge (s.fee.take s.env.now s.env.hold o).2) := hb ▸ hentry
    have hbo : b.out = [.burst t (x.record.addr.val + x.moved) (xs.map SectorState.data)] := by rw [← hb, offered_rest]; rfl
    have hbl : b.log = if s.fee.tallies.saturated = false ∧ (s.fee.take s.env.now s.env.hold o).1.tallies.saturated = true
        then s.lib.log.record s.env.mask (o.saturation s.env) else s.lib.log := hb ▸ offered_log
    rw [hb] at hv
    rw [hh] at hbe hbl
    have hlog : (b.endDelivered t).log = b.log := (sameHeld_endDelivered b t).log
    obtain ⟨u, os, h1, h2, h3, h4, h5, h6, h7, h8⟩ := transferred hs hh hv rfl rfl (b := b) hbe (hlive' _) (hheld _) rfl
      ((sameHeld_endDelivered b t).out.trans hbo)
    rw [hmoved, charge_record] at h6
    have hfee : u.fee = (s.fee.take s.env.now false o).1.closeAll := by
      rw [h4, ← hh]; rfl
    refine ⟨u, os, h1, h2, h3, h5, fun _ => ⟨hfee, h6⟩, fun h => absurd h (by simp), fun hsat hu hm => ?_, fun _ _ h => absurd h (by simp)⟩
    have hb1 : (b.endDelivered t).log = (s.lib.fault s.env (o.saturation s.env)).log := by
      rw [hlog, hbl, if_pos ⟨hsat, by rw [hfee] at hu; exact hu⟩]
      rfl
    refine ⟨fun hf => h8 _ (fault_later _ (b.endDelivered t) _ ?_), fun hf _ => h7 _ (fault_keeps (l := b.endDelivered t) ?_)⟩
    · obtain ⟨r, hr⟩ := Option.ne_none_iff_exists'.mp hf
      rw [hb1]
      exact (fault_joins hr hm).2
    · rw [hb1]
      exact fault_first hf hm
  | false =>
    have hv := hlater hi _ (State.deliver_offers (s := s.begin.beginHold) hne (ho _ rfl))
    obtain ⟨b, hb⟩ : ∃ b, (s.begin.beginHold.lib.burst t x xs).offered s.begin.beginHold.env s.begin.beginHold.fee o = b := ⟨_, rfl⟩
    have hbe : b.entry t = some ((x.delivered xs).charge (s.fee.closeAll.take s.env.now true o).2) := hb ▸ hentry
    have hbo : b.out = [.burst t (x.record.addr.val + x.moved) (xs.map SectorState.data)] := by rw [← hb, offered_rest]; rfl
    have hbl : b.log = if s.fee.tallies.saturated = false ∧ (s.fee.closeAll.take s.env.now true o).1.tallies.saturated = true
        then (s.lib.fault s.env (FaultRecord.of s.env .powerWarning)).log.record s.env.mask (o.saturation s.env)
        else (s.lib.fault s.env (FaultRecord.of s.env .powerWarning)).log := hb ▸ offered_log
    rw [hb] at hv
    have hlog : (b.endDelivered t).log = b.log := (sameHeld_endDelivered b t).log
    obtain ⟨u, os, h1, h2, h3, h4, h5, h6, h7, h8⟩ := transferred hs hh hv rfl rfl (b := b) hbe (hlive' _) (hheld _) rfl
      ((sameHeld_endDelivered b t).out.trans hbo)
    rw [hmoved, charge_record] at h6
    have hfee : u.fee = (s.fee.closeAll.take s.env.now true o).1 := h4
    refine ⟨u, os, h1, h2, h3, h5, fun h => absurd h (by simp), fun _ => ⟨hfee, h6⟩, fun hsat hu hm => ?_, fun hf hm _ => h7 _ ?_⟩
    · have hb1 : (b.endDelivered t).log = ((s.lib.fault s.env (FaultRecord.of s.env .powerWarning)).fault s.env (o.saturation s.env)).log := by
        rw [hlog, hbl, if_pos ⟨hsat, by rw [hfee] at hu; exact hu⟩]
        rfl
      refine ⟨fun hf => h8 _ ?_, fun _ h => absurd h (by simp)⟩
      obtain ⟨r, hr⟩ := Option.ne_none_iff_exists'.mp hf
      show KindSet.has (b.endDelivered t).log.later _ = true
      rw [hb1]
      exact (fault_joins (fault_keeps (l := s.lib) hr) hm).2
    · have hp : (s.lib.fault s.env (FaultRecord.of s.env .powerWarning)).log.first = some (FaultRecord.of s.env .powerWarning) := fault_first hf hm
      show (b.endDelivered t).log.first = _
      rw [hlog, hbl]
      split
      · exact fault_keeps (l := s.lib.fault s.env (FaultRecord.of s.env .powerWarning)) hp
      · exact hp

/-- R152: after the offer of a burst in transfer, taken in HOLD, every order is closed and every list empty. -/
theorem take_hold_closed (f : Fee) (now : Nat) (o : Offer) (k : Station) :
    look (f.closeAll.take now true o).1.orders k = none ∧ look (f.closeAll.take now true o).1.recent k = [] := by
  refine ⟨Fee.noOrders_take f.noOrders_closeAll now o k, ?_⟩
  show look (put ((f.closeAll.settleOrder now o).chargePage now o).1.recent o.station []) k = []
  rw [look_put]
  split
  · rfl
  next hk =>
    have h1 : look (f.closeAll.settleOrder now o).recent k = [] := by
      unfold Fee.settleOrder
      split
      · exact (closeAll_closed f k).2
      · exact (look_put_ne _ _ hk).trans (closeAll_closed f k).2
    unfold Fee.chargePage
    (repeat' split)
    · exact h1
    · exact h1
    · exact (look_put_ne _ _ hk).trans h1

/-- Settles O33: the warning's own effect ends the requests one by one in tag order, before the reactions; the burst in transfer is cut before or after its assertion. -/
theorem holdBeginsAndEnds : Obligations.HoldBeginsAndEnds := by
  refine ⟨fun s hs hh => warning_holds hs hh, fun s i h => warning_names_none s i h, ?_,
    fun s t rest x i hs hh hl hr hx hlive hj h64 hn => warning_cuts_pages hs hh hl hr hx hlive hj h64 hn,
    fun s i hs hh => warning_closes s i hs hh, fun s hs hh => holdEnd_ends s hs hh⟩
  intro s t rest x g w ws i hs hh hl hr hx hlive hj hw h64 hn xs outcome
  refine ⟨fun hq => warning_cuts_quiet hs hh hl hr hx hlive hj hw h64 hn hq, ?_⟩
  intro m k cls len h hc htag hat hm hres hb o isEarly before later charged
  have hsec : sectorOf (x.record.addr.val + x.moved) = 0 := hat
  have hoff (e : Env) (he : e.directory = s.env.directory) : x.offer e w (sectorOf (x.record.addr.val + x.moved)) = some o := by
    have hframe : (fun n => (e.frame w.book n).mark) = fun n => (s.env.frame w.book n).mark := by
      unfold Env.frame
      rw [he]
    rw [hsec, Entry.offer_some hm hres (hframe ▸ hb), htag]
  obtain ⟨u, os, h1, h2, h3, h4, h5, h6, h7, h8⟩ := warning_cuts_offer hs hh hl hr hx hlive hj hw h64 hn hoff rfl
  have hlate (hi : ¬ isEarly) : offersFirst i = false := by
    rw [← Bool.not_eq_true, offersFirst_iff]
    exact hi
  refine ⟨u, os, h1, h2, h3, h4, fun hi => h5 (offersFirst_iff.mpr hi), fun hi => ?_, fun q => ?_, fun hsat hu hmask => ?_,
    fun hf hmask hi => h8 hf hmask (hlate hi)⟩
  · obtain ⟨hfee, hend⟩ := h6 (hlate hi)
    exact ⟨hfee, take_charges (closeAll_closed s.fee _).1, hend⟩
  · cases hi : offersFirst i with
    | true => rw [(h5 hi).1]; exact closeAll_closed _ q
    | false => rw [(h6 hi).1]; exact take_hold_closed ..
  · obtain ⟨k1, k2⟩ := h7 hsat hu hmask
    exact ⟨k1, fun hf hi => k2 hf (offersFirst_iff.mpr hi)⟩

end CutBursts

end Sys2Proof.Machine
end

section
-- One declaration after the other: the stacks of the threads that wait for each other count against the check's memory limit.
set_option Elab.async false
/-! A sector of a FILE burst (R50, R81), and the FILEs that unwind because no primary side is available (R88). -/

namespace Sys2Proof.Machine

section Sectors

variable {s : State} {t : Tag} {x : Entry} {g : Filing}

/-- R50, R81: the FILE after a sector has arrived. -/
def Filing.taking (g : Filing) (data : Sector) : Filing :=
  { g with received := g.received ++ [data], phase := if g.received.length + 1 < g.len then g.phase else .queued }

/-- R50, R81: what the arrival of a sector leaves of the FILE and of the link. -/
theorem takeSector_leaves (e : Env) (l : Library) (t : Tag) (x : Entry) (g : Filing) (data : Sector) :
    (l.takeSector e t x g data).entry t = some { x with job := .file (g.taking data) }
      ∧ (l.takeSector e t x g data).front.linkBurst = if g.received.length + 1 < g.len then some t else none := by
  have hlen : (g.received ++ [data]).length = g.received.length + 1 := by simp
  unfold Library.takeSector Filing.taking
  dsimp only
  rw [hlen]
  by_cases h : g.received.length + 1 < g.len
  · rw [if_pos h, if_pos h, if_pos h]
    exact ⟨(Library.setEntry_entry ..).trans (if_pos rfl), rfl⟩
  · rw [if_neg h, if_neg h, if_neg h]
    split
    · exact ⟨(Library.setEntry_entry l ..).trans (if_pos rfl), rfl⟩
    · exact ⟨(Library.setEntry_entry l ..).trans (if_pos rfl), rfl⟩

/-- R81: the event of a sector of a FILE's burst. -/
theorem exec_sector (data : Sector) (key : KeyPosition) (hs : s.env.startUp = none)
    (hl : s.lib.front.linkBurst = none ∨ s.lib.front.linkBurst = some t) (hx : s.lib.entry t = some x) (hlive : x.ended = none) (hj : x.job = .file g)
    (hp : g.phase = .intake) (hpull : g.pulled = true) :
    exec (.fileBurstArrival t data key) s = .next (State.react { s.begin with lib := s.begin.lib.takeSector s.env t x g data } s.begin.lib) := by
  show execFileBurstArrival t data key s = _
  unfold execFileBurstArrival
  rw [State.event_next _ hs]
  have hopen : s.begin.lib.linkOpen t = true := by
    show s.lib.linkOpen t = true
    unfold Library.linkOpen
    rcases hl with hl | hl <;> simp [hl]
  have hv : x.live = true := Entry.live_iff.mpr hlive
  simp only [hopen, if_true, show s.begin.lib.entry t = some x from hx]
  unfold State.arrive
  simp only [hv, if_true, hj, hp, hpull, and_self]
  rfl

/-- R50, R81: what the event of a sector leaves. -/
theorem sector_arrives (data : Sector) (key : KeyPosition) (hs : s.env.startUp = none)
    (hl : s.lib.front.linkBurst = none ∨ s.lib.front.linkBurst = some t) (hx : s.lib.entry t = some x) (hlive : x.ended = none) (hj : x.job = .file g)
    (hp : g.phase = .intake) (hpull : g.pulled = true) :
    ∃ u y g', exec (.fileBurstArrival t data key) s = .next u
      ∧ Reacted s u s.env s.fee (s.begin.lib.takeSector s.env t x g data)
      ∧ u.lib.entry t = some y ∧ y.record = x.record ∧ y.job = .file g' ∧ g'.book = g.book ∧ g'.frame = g.frame
      ∧ (y.ended = none → g'.received = g.received ++ [data])
      ∧ (g.received.length + 1 < g.len → u.lib.front.linkBurst = some t ∧ (y.ended = none → g'.phase = .intake ∨ g'.phase = .writing))
      ∧ (g.len ≤ g.received.length + 1 → u.lib.front.linkBurst = none ∧ (y.ended = none → g'.phase = .queued ∨ g'.phase = .writing)) := by
  obtain ⟨hentry, hlink⟩ := takeSector_leaves s.env s.begin.lib t x g data
  have hexec := exec_sector data key hs hl hx hlive hj hp hpull
  revert hentry hlink hexec
  generalize s.begin.lib.takeSector s.env t x g data = a
  intro hentry hlink hexec
  have hr : Reacted s (State.react { s.begin with lib := a } s.begin.lib) s.env s.fee a := State.react_reacted rfl
  obtain ⟨y, hy, hk⟩ := hr.lib.entry t _ hentry
  obtain ⟨g', hj', hb, hf, hlive'⟩ := hk.file (g.taking data) rfl
  have hphase (he : y.ended = none) : g'.phase = (g.taking data).phase ∨ g'.phase = .writing := (hlive' (Entry.live_iff.mpr he)).2
  refine ⟨_, y, g', hexec, hr, hy, hk.record, hj', hb, hf, fun he => (hlive' (Entry.live_iff.mpr he)).1, fun h => ⟨?_, fun he => ?_⟩,
    fun h => ⟨?_, fun he => ?_⟩⟩
  · rw [hr.lib.link, hlink, if_pos h]
  · refine (hphase he).imp (fun hq => hq.trans ?_) id
    exact (if_pos h).trans hp
  · rw [hr.lib.link, hlink, if_neg (by omega)]
  · refine (hphase he).imp (fun hq => hq.trans ?_) id
    exact if_neg (by omega)

end Sectors

section Stranded

variable {e : Env} {l m : Library} {t u : Tag} {x : Entry} {g : Filing}

/-- R88: the visit of one tag. -/
def Library.strandStep (e : Env) (l : Library) (t : Tag) : Library :=
  match l.strandedBook e t with
  | some b => (l.unwindFile t .sideUnavailable).lowerIntake b
  | none => l

theorem unwindStranded_eq (e : Env) (l : Library) : l.unwindStranded e = allTags.foldl (Library.strandStep e) l := rfl

/-- R88: the FILE of a tag is to unwind. -/
def Library.strandedFile (e : Env) (l : Library) (t : Tag) (x : Entry) (g : Filing) : Prop :=
  l.fileOf t = some (x, g) ∧ g.phase ≠ .writing ∧ l.stranded e g.book = true

theorem stranded_iff (e : Env) (l : Library) (b : Book) : l.stranded e b = true ↔ ∀ p, (l.book b).primary = some p → l.available e p = false := by
  unfold Library.stranded
  cases h : (l.book b).primary with
  | none => simp
  | some s => simp

/-- R81, R88: the sectors of a FILE's burst that are still to be discarded when it unwinds. -/
def Filing.unsent (g : Filing) : Nat := if g.phase = .intake ∧ g.pulled = true then g.len - g.received.length else 0

theorem strandStep_unwinds (h : l.strandedFile e t x g) :
    l.strandStep e t = (l.endRequest t .sideUnavailable 0 g.unsent).lowerIntake g.book := by
  obtain ⟨hf, hp, hs⟩ := h
  unfold Library.strandStep
  rw [Library.strandedBook_eq e hf, if_neg hp, if_pos hs]
  dsimp only
  unfold Library.unwindFile
  rw [hf]
  dsimp only
  rw [if_neg hp]
  rfl

theorem strandStep_stays (h : ∀ x g, ¬ l.strandedFile e t x g) : l.strandStep e t = l := by
  unfold Library.strandStep
  cases hf : l.fileOf t with
  | none => rw [Library.strandedBook_none e hf]
  | some p =>
    obtain ⟨x, g⟩ := p
    rw [Library.strandedBook_eq e hf]
    by_cases hp : g.phase = .writing
    · rw [if_pos hp]
    · rw [if_neg hp, if_neg fun hs => h x g ⟨hf, hp, hs⟩]

/-- A step of the visit does nothing, or unwinds the FILE of its tag. -/
theorem strandStep_cases (e : Env) (l : Library) (t : Tag) :
    l.strandStep e t = l ∨ ∃ x g, l.strandedFile e t x g ∧ l.strandStep e t = (l.endRequest t .sideUnavailable 0 g.unsent).lowerIntake g.book := by
  by_cases h : ∃ x g, l.strandedFile e t x g
  · obtain ⟨x, g, h⟩ := h
    exact .inr ⟨x, g, h, strandStep_unwinds h⟩
  · exact .inl (strandStep_stays fun x g hx => h ⟨x, g, hx⟩)

/-- R88: what the unwinding of FILEs leaves alone: every block but the requests, the items and the intake marks. -/
structure StrandKeeps (l a : Library) : Prop where
  book : ∀ b, a.book b = { l.book b with intake := (a.book b).intake }
  roles : a.roles = l.roles
  twins : a.twins = l.twins
  drives : a.drives = l.drives
  picker : a.picker = l.picker
  care : a.care = l.care
  log : a.log = l.log

theorem StrandKeeps.refl (l : Library) : StrandKeeps l l := ⟨fun _ => rfl, rfl, rfl, rfl, rfl, rfl, rfl⟩

theorem StrandKeeps.trans {a : Library} (h : StrandKeeps l m) (k : StrandKeeps m a) : StrandKeeps l a where
  book b := by rw [k.book b, h.book b]
  roles := k.roles.trans h.roles
  twins := k.twins.trans h.twins
  drives := k.drives.trans h.drives
  picker := k.picker.trans h.picker
  care := k.care.trans h.care
  log := k.log.trans h.log

theorem StrandKeeps.stranded (h : StrandKeeps l m) (b : Book) : m.stranded e b = l.stranded e b := by
  have hp : (m.book b).primary = (l.book b).primary := by rw [h.book b]
  unfold Library.stranded
  rw [hp]
  cases (l.book b).primary with
  | none => rfl
  | some q =>
    dsimp only
    rw [available_congr h.picker (fun d => congrArg (fun v : Vector DriveRecord 4 => (look v d).state) h.drives) q]

/-- R44: the end of a FILE. -/
theorem endFile_ends (hf : l.fileOf t = some (x, g)) (o : Outcome) (d : Nat) :
    EndsRequest l (l.endRequest t o 0 d) t x o 0 d ∧ (l.endRequest t o 0 d).drives = l.drives := by
  obtain ⟨hx, -, hj⟩ := Library.fileOf_some hf
  have h := endRequest_ends hx o 0 d
  refine ⟨h, h.drives ?_⟩
  unfold Entry.windows
  rw [hj]
  split <;> rfl

theorem strandKeeps_step (e : Env) (l : Library) (t : Tag) : StrandKeeps l (l.strandStep e t) := by
  rcases strandStep_cases e l t with h | ⟨x, g, ⟨hf, -, -⟩, h⟩ <;> rw [h]
  · exact .refl l
  · obtain ⟨hend, hd⟩ := endFile_ends hf .sideUnavailable g.unsent
    have hbook (b : Book) : (l.endRequest t .sideUnavailable 0 g.unsent).book b = l.book b := congrArg (fun v : Vector BookEntry 127 => look v b) hend.books
    refine ⟨fun b => ?_, hend.roles, hend.twins, hd, hend.picker, hend.care, hend.log⟩
    rw [Library.lowerIntake_book]
    split
    next hb => subst hb; rw [hbook]
    next => rw [hbook]

theorem strandStep_others (e : Env) (l : Library) (t : Tag) (hu : u ≠ t) : (l.strandStep e t).entry u = l.entry u := by
  rcases strandStep_cases e l t with h | ⟨x, g, -, h⟩ <;> rw [h]
  exact endRequest_others l t u _ 0 _ hu

theorem fileOf_congr (h : m.entry t = l.entry t) : m.fileOf t = l.fileOf t := by
  unfold Library.fileOf
  rw [h]

/-- R88: a FILE that waits in the course of the visit is one of those that waited before it. -/
theorem strandStep_fileOf {y : Entry} {k : Filing} (h : (l.strandStep e t).fileOf u = some (y, k)) : l.fileOf u = some (y, k) := by
  by_cases hu : u = t
  · subst hu
    rcases strandStep_cases e l u with hs | ⟨x, g, ⟨hf, -, -⟩, hs⟩
    · rw [hs] at h; exact h
    · obtain ⟨hy, hl, -⟩ := Library.fileOf_some h
      rw [hs] at hy
      have hend := (endFile_ends hf .sideUnavailable g.unsent).1.entry
      obtain rfl := Option.some.inj (hend.symm.trans hy)
      cases Entry.live_iff.mp hl
  · rw [fileOf_congr (strandStep_others e l t hu)] at h
    exact h

/-- R88: the count of a book's FILEs in the course of the visit. -/
def Library.counted (m : Library) (b : Book) : Prop := (m.book b).intake = (m.book b).filing + m.liveFiles b

theorem counted_lowerIntake (n : Library) (b : Book) : (n.lowerIntake b).counted b := by
  unfold Library.counted
  rw [Library.lowerIntake_book, if_pos rfl]
  rfl

theorem strandStep_counted (e : Env) {b : Book} (h : m.counted b) (u : Tag) : (m.strandStep e u).counted b := by
  rcases strandStep_cases e m u with hs | ⟨y, k, ⟨hf, hp, -⟩, hs⟩ <;> rw [hs]
  · exact h
  · by_cases hb : k.book = b
    · subst hb; exact counted_lowerIntake ..
    · obtain ⟨hx, hl, hj⟩ := Library.fileOf_some hf
      have hends := fileEnds_endRequest hx (Entry.live_iff.mp hl) hj .sideUnavailable 0 k.unsent
      obtain ⟨n, hn⟩ : ∃ n, m.endRequest u .sideUnavailable 0 k.unsent = n := ⟨_, rfl⟩
      rw [hn] at hends ⊢
      have hlive : m.liveFiles b = n.liveFiles b := by
        have := Library.liveFiles_join (l := n) (m := m) ((hends.files u).trans (if_pos rfl)) (fileKey_waiting hf hp)
          (fun v hv => ((hends.files v).trans (if_neg (Ne.symm hv))).symm) b
        rw [if_neg (Ne.symm hb), Nat.add_zero] at this
        exact this
      unfold Library.counted
      rw [Library.lowerIntake_book, if_neg hb, hends.book b]
      show _ = _ + n.liveFiles b
      rw [← hlive]
      exact h

theorem withdrawAll_item (l : Library) (p : ItemKind → Bool) (i : Side) :
    (l.withdrawAll p).items i = (l.items i).filter fun j => !p j.kind := look_map ..

/-- R44: the items of a FILE that ends leave every list. -/
theorem endFile_items (hf : l.fileOf t = some (x, g)) (o : Outcome) (d : Nat) (i : Side) :
    (l.endRequest t o 0 d).items i = (l.items i).filter fun j => !ItemKind.ofTag t j.kind := by
  obtain ⟨hx, -, hj⟩ := Library.fileOf_some hf
  rw [endRequest_of_file hx hj]
  exact withdrawAll_item l (ItemKind.ofTag t) i

theorem listed_filter {k : ItemKind} {xs : List Item} (p : Item → Bool) (h : listed k xs = false) : listed k (xs.filter p) = false := by
  unfold listed at *
  rw [List.any_eq_false] at *
  exact fun j hj => h j (List.mem_filter.mp hj).1

/-- R44: no item joins a list as FILEs unwind. -/
theorem strandStep_items (e : Env) (l : Library) (t : Tag) (k : ItemKind) (i : Side) (h : listed k (l.items i) = false) :
    listed k ((l.strandStep e t).items i) = false := by
  rcases strandStep_cases e l t with hs | ⟨x, g, ⟨hf, -, -⟩, hs⟩ <;> rw [hs]
  · exact h
  · show listed k ((l.endRequest t .sideUnavailable 0 g.unsent).items i) = false
    rw [endFile_items hf]
    exact listed_filter _ h

/-- R88: an unwound FILE, in the library `a`. -/
structure Unwound (a : Library) (t : Tag) (x : Entry) (g : Filing) : Prop where
  entry : a.entry t = some (x.end_ .sideUnavailable 0 g.unsent)
  items : ∀ i, listed (.file t) (a.items i) = false
  intake : a.counted g.book

theorem strandStep_unwound (h : l.strandedFile e t x g) : Unwound (l.strandStep e t) t x g := by
  have hf := h.1
  rw [strandStep_unwinds h]
  refine ⟨(endFile_ends hf .sideUnavailable g.unsent).1.entry, fun i => ?_, counted_lowerIntake ..⟩
  show listed (.file t) ((l.endRequest t .sideUnavailable 0 g.unsent).items i) = false
  rw [endFile_items hf]
  unfold listed
  rw [List.any_eq_false]
  intro j hj hk
  have hof := (List.mem_filter.mp hj).2
  rw [show j.kind = .file t by simpa using hk] at hof
  simp [ItemKind.ofTag] at hof

/-- R88: the visit as a whole keeps what each of its steps keeps. -/
theorem strandKeeps_unwindStranded (e : Env) (l : Library) : StrandKeeps l (l.unwindStranded e) :=
  unwindStranded_eq e l ▸ List.foldlRecOn (motive := fun m => StrandKeeps l m) _ _ (.refl l) fun m hm t _ => hm.trans (strandKeeps_step e m t)

/-- R88: the FILE of a tag as the visit comes to it. -/
theorem unwindStranded_unwinds (h : l.strandedFile e t x g) : Unwound (l.unwindStranded e) t x g := by
  rw [unwindStranded_eq]
  refine foldl_visit (f := Library.strandStep e) (t := t) (fun m => StrandKeeps l m ∧ m.entry t = l.entry t) (fun m => Unwound m t x g)
    (fun m u hu hm => ⟨hm.1.trans (strandKeeps_step e m u), (strandStep_others e m u (Ne.symm hu)).trans hm.2⟩) ⟨.refl l, rfl⟩ (fun m hm => ?_)
    fun m u hu hm => ?_
  · exact strandStep_unwound ⟨(fileOf_congr hm.2).trans h.1, h.2.1, (hm.1.stranded g.book).trans h.2.2⟩
  · exact ⟨(strandStep_others e m u (Ne.symm hu)).trans hm.entry, fun i => strandStep_items e m u _ i (hm.items i), strandStep_counted e hm.intake u⟩

/-- R88: the request of a tag without such a FILE is not touched. -/
theorem unwindStranded_stays (h : ∀ x g, ¬ l.strandedFile e t x g) : (l.unwindStranded e).entry t = l.entry t := by
  rw [unwindStranded_eq]
  refine foldl_visit (f := Library.strandStep e) (t := t) (fun m => StrandKeeps l m ∧ m.entry t = l.entry t) (fun m => m.entry t = l.entry t)
    (fun m u hu hm => ⟨hm.1.trans (strandKeeps_step e m u), (strandStep_others e m u (Ne.symm hu)).trans hm.2⟩) ⟨.refl l, rfl⟩ (fun m hm => ?_)
    fun m u hu hm => (strandStep_others e m u (Ne.symm hu)).trans hm
  rw [strandStep_stays fun x g hx => h x g ⟨(fileOf_congr hm.2).symm.trans hx.1, hx.2.1, (hm.1.stranded g.book).symm.trans hx.2.2⟩]
  exact hm.2

/-- R88: a book without such a FILE is not touched. -/
theorem unwindStranded_book {b : Book} (h : ∀ t x g, l.strandedFile e t x g → g.book ≠ b) : (l.unwindStranded e).book b = l.book b := by
  have hall : StrandKeeps l (l.unwindStranded e) ∧ (∀ u y k, (l.unwindStranded e).fileOf u = some (y, k) → l.fileOf u = some (y, k))
      ∧ (l.unwindStranded e).book b = l.book b := by
    rw [unwindStranded_eq]
    refine List.foldlRecOn (motive := fun m => StrandKeeps l m ∧ (∀ u y k, m.fileOf u = some (y, k) → l.fileOf u = some (y, k)) ∧ m.book b = l.book b) _ _
      ⟨.refl l, fun _ _ _ h => h, rfl⟩ fun m ⟨hk, hf, hb⟩ t _ => ⟨hk.trans (strandKeeps_step e m t), fun u y k hu => hf u y k (strandStep_fileOf hu), ?_⟩
    rcases strandStep_cases e m t with hs | ⟨x, g, ⟨hg, hp, hst⟩, hs⟩ <;> rw [hs]
    · exact hb
    · rw [Library.lowerIntake_book, if_neg (h t x g ⟨hf t x g hg, hp, (hk.stranded g.book).symm.trans hst⟩)]
      exact (congrArg (fun v : Vector BookEntry 127 => look v b) (endFile_ends hg .sideUnavailable g.unsent).1.books).trans hb
  exact hall.2.2

/-- Settles O11: the sector is placed before the reactions, which leave a FILE that has not ended its sectors; the unwinding visits the tags in order, and what one visit leaves
of a FILE, of the lists and of a book's intake mark the others keep. -/
theorem fileSectorArrives : Obligations.FileSectorArrives := by
  refine ⟨fun s t x g data key hs hl hx hlive hj hp hpull => sector_arrives data key hs hl hx hlive hj hp hpull, ?_⟩
  intro e l a
  have hkeeps := strandKeeps_unwindStranded e l
  refine ⟨fun t x g hf hp hprim => ?_, fun t h => unwindStranded_stays fun x g hx => ?_, hkeeps.book, fun b h => unwindStranded_book fun t x g hx hb => ?_,
    hkeeps.roles, hkeeps.twins, hkeeps.drives, hkeeps.picker, hkeeps.care, hkeeps.log⟩
  · obtain ⟨hentry, hitems, hcount⟩ := unwindStranded_unwinds ⟨hf, hp, (stranded_iff e l g.book).mpr hprim⟩
    refine ⟨⟨_, hentry, rfl, rfl, rfl, rfl⟩, hitems, ?_⟩
    have hfiling : (a.book g.book).filing = (l.book g.book).filing := by rw [hkeeps.book]
    rw [← hfiling]
    exact hcount
  · obtain ⟨hf, hp, hs⟩ := hx
    rcases h x g hf with hw | ⟨p, hprim, ha⟩
    · exact hp hw
    · exact absurd ((stranded_iff e l g.book).mp hs p hprim) (by simp [ha])
  · subst hb
    obtain ⟨hf, hp, hs⟩ := hx
    rcases h t x g hf rfl with hw | ⟨p, hprim, ha⟩
    · exact hp hw
    · exact absurd ((stranded_iff e l g.book).mp hs p hprim) (by simp [ha])

end Stranded

end Sys2Proof.Machine
end

section
-- One declaration after the other: the stacks of the threads that wait for each other count against the check's memory limit.
set_option Elab.async false
/-! The re-read records and the twin items of a book (R52, R96, R97), as the Twin Writer's steps leave them. -/

namespace Sys2Proof.Machine

section Rereads

variable {e : Env} {l m : Library} {b c : Book} {f len : Nat}

theorem mapRereads_twin (l : Library) (b : Book) (g : List Reread → List Reread) (c : Book) :
    (l.mapRereads b g).twin c = if b = c then { l.twin b with rereads := g (l.twin b).rereads } else l.twin c := Library.setTwin_twin ..

theorem twins_syncReread (e : Env) (l : Library) (b : Book) : (l.syncReread e b).twins = l.twins := by
  unfold Library.syncReread
  (repeat' split) <;> rfl

theorem twin_syncReread (e : Env) (l : Library) (b c : Book) : (l.syncReread e b).twin c = l.twin c :=
  congrArg (fun v : Vector TwinRecord 127 => look v c) (twins_syncReread e l b)

theorem mem_insertReread {r q : Reread} {rs : List Reread} : r ∈ insertReread q rs ↔ r = q ∨ r ∈ rs := by
  induction rs with
  | nil => simp [insertReread]
  | cons p ps ih =>
    unfold insertReread
    split
    · simp
    · rw [List.mem_cons, ih, List.mem_cons]
      exact or_left_comm

/-- R96: the frames of the re-read records of a book. -/
def Library.rereadFrames (l : Library) (b : Book) : List Nat := (l.twin b).rereads.map Reread.frame

theorem rereadFrames_congr (h : m.twin b = l.twin b) : m.rereadFrames b = l.rereadFrames b := congrArg (fun t : TwinRecord => t.rereads.map Reread.frame) h

/-- R52: a record that is granted keeps its frame. -/
theorem grantFrom_frames (e : Env) (c : Book) : ∀ (xs : List (Book × Nat)) (l : Library), (Library.grantFrom e xs l).rereadFrames c = l.rereadFrames c
  | [], _ => rfl
  | (b, f) :: rest, l => by
    unfold Library.grantFrom
    split
    · exact grantFrom_frames e c rest l
    · split
      · refine (grantFrom_frames e c rest _).trans ((rereadFrames_congr (twin_syncReread e _ b c)).trans ?_)
        unfold Library.rereadFrames
        rw [mapRereads_twin]
        split
        next h =>
          subst h
          rw [List.map_map]
          refine List.map_congr_left fun q _ => ?_
          simp only [Function.comp]
          split <;> rfl
        next => rfl
      · rfl

/-- R52, R96: the frames of the records that are left when some are removed. -/
theorem dropRereads_frames (e : Env) (l : Library) (b : Book) (gone : Nat → Bool) (c : Book) :
    (l.dropRereads e b gone).rereadFrames c = if b = c then (l.rereadFrames b).filter (fun f => !gone f) else l.rereadFrames c := by
  unfold Library.dropRereads
  dsimp only
  refine (grantFrom_frames e c _ _).trans ((rereadFrames_congr (twin_syncReread e _ b c)).trans ?_)
  show (l.mapRereads b fun rs => rs.filter fun r => !gone r.frame).rereadFrames c = _
  unfold Library.rereadFrames
  rw [mapRereads_twin]
  split
  next h =>
    rw [List.filter_map]
    rfl
  next => rfl

theorem stopTwinWork_frames (e : Env) (l : Library) (b : Book) : (l.stopTwinWork e b).rereadFrames b = [] := by
  unfold Library.stopTwinWork
  rw [dropRereads_frames, if_pos rfl]
  simp

theorem rereads_nil (h : l.rereadFrames b = []) : (l.twin b).rereads = [] := List.map_eq_nil_iff.mp h

theorem mem_rereadFrames {r : Reread} (h : r ∈ (l.twin b).rereads) : r.frame ∈ l.rereadFrames b := List.mem_map_of_mem h

/-- R96: what the asking of a reservation makes of the records. -/
theorem askReread_twin (e : Env) (l : Library) (b : Book) (f len : Nat) (c : Book) :
    (l.askReread e b f len).twin c = if b = c
      then { l.twin b with rereads := insertReread ⟨f, len, if len ≤ l.rereadFree then .granted else .asked, []⟩ (l.twin b).rereads } else l.twin c := by
  unfold Library.askReread
  by_cases h : len ≤ l.rereadFree
  · rw [if_pos h, if_pos h, twin_syncReread, mapRereads_twin]
  · rw [if_neg h, if_neg h]
    exact mapRereads_twin ..

/-- R96: what the asking of a window's reservations makes of a book's records. -/
theorem askWindow_rereads (e : Env) (l : Library) (b : Book) :
    (∀ r ∈ (l.twin b).rereads, r ∈ ((l.askWindow e b).twin b).rereads)
      ∧ ∀ r ∈ ((l.askWindow e b).twin b).rereads, r ∈ (l.twin b).rereads
        ∨ (r.frame ∈ rereadWindow (l.book b) (l.twin b).failed ∧ ∀ q ∈ (l.twin b).rereads, q.frame ≠ r.frame) := by
  unfold Library.askWindow
  refine List.foldlRecOn (motive := fun m : Library => (∀ r ∈ (l.twin b).rereads, r ∈ (m.twin b).rereads)
    ∧ ∀ r ∈ (m.twin b).rereads, r ∈ (l.twin b).rereads
        ∨ (r.frame ∈ rereadWindow (l.book b) (l.twin b).failed ∧ ∀ q ∈ (l.twin b).rereads, q.frame ≠ r.frame)) _ _
    ⟨fun _ h => h, fun _ h => .inl h⟩ fun m ⟨h1, h2⟩ f hf => ?_
  dsimp only
  split
  next hask =>
    have hno : ∀ q ∈ (m.twin b).rereads, q.frame ≠ f := by
      intro q hq hqf
      simp only [Bool.and_eq_true, Bool.not_eq_true', List.any_eq_false, beq_iff_eq] at hask
      exact hask.2 q hq hqf
    rw [askReread_twin, if_pos rfl]
    refine ⟨fun r hr => mem_insertReread.mpr (.inr (h1 r hr)), fun r hr => ?_⟩
    rcases mem_insertReread.mp hr with rfl | hr
    · exact .inr ⟨hf, fun q hq => hno q (h1 q hq)⟩
    · exact h2 r hr
  next => exact ⟨h1, h2⟩

theorem mem_rereadWindow {k : BookEntry} {failed : Option Nat} (h : f ∈ rereadWindow k failed) :
    k.twinMark ≤ f ∧ ∀ low, failed = some low → f < low := by
  unfold rereadWindow at h
  obtain ⟨h1, h2⟩ := List.mem_range'_1.mp h
  refine ⟨h1, fun low hl => ?_⟩
  subst hl
  simp only [Option.getD_some] at h2
  omega

/-- R94 to R96: the records of a book with a twin after its examination: those that stood, or ones that its window asks, of frames that had none. -/
theorem examine_rereads {s : Side} (h : (l.book b).twin = some s) :
    ∀ r ∈ ((l.examine e b).twin b).rereads, r ∈ (l.twin b).rereads
      ∨ ((l.twin b).state ≠ .paused ∧ (l.book b).twinMark ≤ r.frame ∧ (∀ low, (l.twin b).failed = some low → r.frame < low)
        ∧ ∀ q ∈ (l.twin b).rereads, q.frame ≠ r.frame) := by
  unfold Library.examine
  rw [h]
  dsimp only
  by_cases hp : (l.twin b).state = .paused
  · rw [if_pos hp]
    exact fun r hr => .inl hr
  rw [if_neg hp]
  obtain ⟨m, hm, hmark, -⟩ := skipFrames_marks e l b Config.framesPerBook
  rw [hm]
  obtain ⟨k, hk⟩ : ∃ k, l.setBook b { l.book b with twinMark := m } = k := ⟨_, rfl⟩
  rw [hk]
  have hkt : k.twin b = l.twin b := hk ▸ rfl
  have hkb : k.book b = { l.book b with twinMark := m } := hk ▸ Library.setBook_book_same ..
  obtain ⟨n, hn⟩ : ∃ n, k.setTwin b { k.twin b with state := twinStateOf (k.book b) (k.twin b).failed } = n := ⟨_, rfl⟩
  rw [hn]
  have hnt : n.twin b = { l.twin b with state := twinStateOf (k.book b) (k.twin b).failed } := by
    rw [← hn, Library.setTwin_twin, if_pos rfl, hkt]
  have hnb : n.book b = { l.book b with twinMark := m } := hn ▸ hkb
  split
  · intro r hr
    have htw : ((n.askWindow e b).wantTwinWrite e b s).twin b = (n.askWindow e b).twin b := by
      unfold Library.wantTwinWrite
      dsimp only
      split <;> rfl
    rw [htw] at hr
    obtain ⟨-, h2⟩ := askWindow_rereads e n b
    rcases h2 r hr with h2 | ⟨h2, h3⟩
    · rw [hnt] at h2; exact .inl h2
    · rw [hnt] at h2 h3
      rw [hnb] at h2
      obtain ⟨w1, w2⟩ := mem_rereadWindow h2
      exact .inr ⟨hp, hmark.trans w1, w2, h3⟩
  · intro r hr
    rw [rereads_nil (stopTwinWork_frames e n b)] at hr
    cases hr

end Rereads

section TwinItems

variable {e : Env} {l m : Library} {b c : Book}

/-- R96, R100: no twin item of a book stands on any list. -/
def Library.noTwinItems (l : Library) (b : Book) : Prop := ∀ i, ∀ x ∈ l.items i, x.kind ≠ .twinWrite b ∧ x.kind ≠ .twinReread b

theorem noTwinItems_of_lists (h : l.noTwinItems b) (hm : m.scheduler.lists = l.scheduler.lists) : m.noTwinItems b := fun i x hx => by
  have heq : m.items i = l.items i := congrArg (fun v : Vector (List Item) 128 => look v i) hm
  rw [heq] at hx
  exact h i x hx

theorem noTwinItems_place (h : l.noTwinItems b) (q : Side) (k : ItemKind) (h1 : k ≠ .twinWrite b) (h2 : k ≠ .twinReread b) :
    (l.place e q k).noTwinItems b := fun i x hx => by
  have hitems : (l.place e q k).items i = if q = i then joinItem ⟨k, e.now⟩ (l.items q) else l.items i := look_put ..
  rw [hitems] at hx
  split at hx
  · unfold joinItem at hx
    split at hx
    · exact h q x hx
    · rcases mem_insertItem.mp hx with rfl | hx
      · exact ⟨h1, h2⟩
      · exact h q x hx
  · exact h i x hx

theorem noTwinItems_withdraw (h : l.noTwinItems b) (q : Side) (k : ItemKind) : (l.withdraw q k).noTwinItems b := fun i x hx => by
  have hitems : (l.withdraw q k).items i = if q = i then (l.items q).filter (fun j => j.kind != k) else l.items i := Library.setItems_items ..
  rw [hitems] at hx
  split at hx
  · exact h q x (List.mem_filter.mp hx).1
  · exact h i x hx

theorem noTwinItems_syncReread (h : l.noTwinItems b) (hc : c ≠ b ∨ (l.twin c).rereads = []) : (l.syncReread e c).noTwinItems b := by
  unfold Library.syncReread
  split
  · split
    next hany =>
      refine noTwinItems_place h _ _ nofun fun hk => ?_
      rcases hc with hc | hc
      · exact hc (ItemKind.twinReread.inj hk)
      · rw [hc] at hany; cases hany
    next => exact noTwinItems_withdraw h _ _
  · exact h

/-- R52: the grants of other books' reservations bring no item of a book without records. -/
theorem noTwinItems_grantFrom : ∀ (xs : List (Book × Nat)) (l : Library), l.noTwinItems b → l.rereadFrames b = [] →
    (Library.grantFrom e xs l).noTwinItems b
  | [], _, h, _ => h
  | (c, f) :: rest, l, h, hr => by
    unfold Library.grantFrom
    split
    · exact noTwinItems_grantFrom rest l h hr
    next r hfind =>
      have hc : c ≠ b := by
        rintro rfl
        rw [rereads_nil hr] at hfind
        cases hfind
      split
      · refine noTwinItems_grantFrom rest _ (noTwinItems_syncReread (h := ?_) (.inl hc)) ?_
        · exact noTwinItems_of_lists h rfl
        · rw [rereadFrames_congr (twin_syncReread e _ c b)]
          refine (rereadFrames_congr ?_).trans hr
          rw [mapRereads_twin, if_neg hc]
      · exact h

/-- R96, R100, R102: a book whose twin work stops has no item and no record. -/
theorem stopTwinWork_noItems (e : Env) (l : Library) (b : Book) : (l.stopTwinWork e b).noTwinItems b := by
  have h0 : (l.withdrawAll fun k => k == .twinWrite b || k == .twinReread b).noTwinItems b := fun i x hx => by
    rw [withdrawAll_item] at hx
    have hk := (List.mem_filter.mp hx).2
    simp only [Bool.not_eq_true', Bool.or_eq_false_iff, beq_eq_false_iff_ne, ne_eq] at hk
    exact hk
  unfold Library.stopTwinWork
  revert h0
  generalize (l.withdrawAll fun k => k == .twinWrite b || k == .twinReread b) = m
  intro h0
  unfold Library.dropRereads
  dsimp only
  obtain ⟨n, hn⟩ : ∃ n, ({ (m.mapRereads b fun rs => rs.filter fun r => !(fun _ : Nat => true) r.frame).mapCommands (Command.orphanReread b fun _ => true) with
      buffer := { ((m.mapRereads b fun rs => rs.filter fun r => !(fun _ : Nat => true) r.frame).mapCommands (Command.orphanReread b fun _ => true)).buffer with
        rereadWait := ((m.mapRereads b fun rs => rs.filter fun r => !(fun _ : Nat => true) r.frame).mapCommands (Command.orphanReread b fun _ => true)).buffer.rereadWait.filter
          fun p => !(p.1 == b && (fun _ : Nat => true) p.2) } } : Library) = n := ⟨_, rfl⟩
  have hnl : n.scheduler.lists = m.scheduler.lists := by rw [← hn]; rfl
  have hnr : (n.twin b).rereads = [] := by
    have : n.twin b = (m.mapRereads b fun rs => rs.filter fun r => !(fun _ : Nat => true) r.frame).twin b := by rw [← hn]; rfl
    rw [this, mapRereads_twin, if_pos rfl]
    simp
  have hsync : (n.syncReread e b).noTwinItems b := noTwinItems_syncReread (noTwinItems_of_lists h0 hnl) (.inr hnr)
  have hframes : (n.syncReread e b).rereadFrames b = [] := by
    rw [rereadFrames_congr (twin_syncReread e n b b)]
    unfold Library.rereadFrames
    rw [hnr]; rfl
  rw [hn]
  exact noTwinItems_grantFrom _ _ hsync hframes

end TwinItems

end Sys2Proof.Machine
end

section
-- One declaration after the other: the stacks of the threads that wait for each other count against the check's memory limit.
set_option Elab.async false
/-! # A twin write that is verified -/

namespace Sys2Proof.Machine

section Wants

variable {e : Env} {l : Library} {b : Book} {s : Side}

theorem wantTwinWrite_twin (e : Env) (l : Library) (b : Book) (s : Side) (c : Book) : (l.wantTwinWrite e b s).twin c = l.twin c := by
  unfold Library.wantTwinWrite
  dsimp only
  split <;> rfl

/-- R95: the data of a frame for its twin write, by the hold list and the re-read records. -/
theorem twinData_congr {m : Library} (hh : m.buffer.hold = l.buffer.hold) (ht : m.twin b = l.twin b) (f : Nat) : m.twinData b f = l.twinData b f := by
  unfold Library.twinData Library.held
  rw [hh, ht]

/-- R95: what the want of a twin write leaves on the twin side's list. -/
theorem wantTwinWrite_lists (hfiled : (e.frame b (l.book b).twinMark).filed = true) (hdata : (l.twinData b (l.book b).twinMark).isSome = true)
    (hfree : (l.twin b).writing = none) : listed (.twinWrite b) ((l.wantTwinWrite e b s).items s) = true := by
  unfold Library.wantTwinWrite
  dsimp only
  rw [if_pos (by rw [hfiled, hdata, hfree]; rfl)]
  exact place_listed e l s _

/-- R95: the twin write item of a book that its examination leaves WORKING is placed when its data is there. -/
theorem examine_wants (h : (l.book b).twin = some s) (hp : (l.twin b).state ≠ .paused) (hfree : (l.twin b).writing = none)
    (hwork : ((l.examine e b).twin b).state = .working) (hfiled : (e.frame b ((l.examine e b).book b).twinMark).filed = true)
    (hdata : ((l.examine e b).twinData b ((l.examine e b).book b).twinMark).isSome = true) :
    listed (.twinWrite b) ((l.examine e b).items s) = true := by
  revert hwork hfiled hdata
  unfold Library.examine
  rw [h]
  dsimp only
  rw [if_neg hp]
  obtain ⟨-, ht⟩ := skipFrames_rest e b Config.framesPerBook l
  generalize Library.skipFrames e b Config.framesPerBook l = m at ht
  have hm : m.twin b = l.twin b := by unfold Library.twin; rw [ht]
  generalize hn : m.setTwin b { m.twin b with state := twinStateOf (m.book b) (m.twin b).failed } = n
  have hnb : n.twin b = { l.twin b with state := twinStateOf (m.book b) (l.twin b).failed } := by
    rw [← hn, Library.setTwin_twin, if_pos rfl, hm]
  split
  next hst =>
    intro _ hfiled hdata
    have hask := (sameTwins_askWindow e n b) b
    have hbook : ((n.askWindow e b).wantTwinWrite e b s).book b = (n.askWindow e b).book b :=
      congrArg (fun v : Vector BookEntry 127 => look v b) (books_wantTwinWrite e _ b s)
    have htwin := wantTwinWrite_twin e (n.askWindow e b) b s b
    rw [hbook] at hfiled hdata
    rw [twinData_congr (twinWork_wantTwinWrite e (n.askWindow e b) b s).hold htwin] at hdata
    exact wantTwinWrite_lists hfiled hdata (by rw [hask.2.1, hnb]; exact hfree)
  next hst =>
    intro hwork
    rw [(sameTwins_stopTwinWork e n b b).1, hnb, ← hm] at hwork
    exact absurd hwork hst

end Wants

section Verified

variable {e : Env} {l : Library} {b : Book} {f : Nat}

/-- R99: the mark, the record and the hold list of a verified twin write, before the re-read record goes and the book is examined. -/
def Library.twinLeft (l : Library) (b : Book) (f : Nat) : Library :=
  ((l.endTwinWrite b).passTwinMark b f).leaveHold fun h => h.book == b && h.frame == f

theorem Library.twinWritten_eq (e : Env) (l : Library) (b : Book) (f : Nat) :
    l.twinWritten e b f = ((l.twinLeft b f).dropRereads e b fun g => g == f).examine e b := rfl

theorem passTwinMark_eq (hm : (l.book b).twinMark = f) (hf : f < (l.book b).filing) :
    (l.endTwinWrite b).passTwinMark b f = (l.endTwinWrite b).setBook b { l.book b with twinMark := f + 1 } := if_pos ⟨hm, hf⟩

theorem twinLeft_book (hm : (l.book b).twinMark = f) (hf : f < (l.book b).filing) (c : Book) :
    (l.twinLeft b f).book c = if b = c then { l.book b with twinMark := f + 1 } else l.book c := by
  obtain ⟨-, -, h⟩ := leaveHold_rest ((l.endTwinWrite b).passTwinMark b f) fun h => h.book == b && h.frame == f
  rw [Library.twinLeft, h, passTwinMark_eq hm hf]
  exact Library.setBook_book ..

theorem twinLeft_twin (hm : (l.book b).twinMark = f) (hf : f < (l.book b).filing) : (l.twinLeft b f).twin b = { l.twin b with writing := none } := by
  obtain ⟨-, -, h⟩ := leaveHold_rest ((l.endTwinWrite b).passTwinMark b f) fun h => h.book == b && h.frame == f
  rw [Library.twinLeft, h, passTwinMark_eq hm hf]
  exact Library.setTwin_twin_same ..

theorem twinLeft_rest (hm : (l.book b).twinMark = f) (hf : f < (l.book b).filing) :
    (l.twinLeft b f).front = l.front ∧ (l.twinLeft b f).drives = l.drives ∧ (l.twinLeft b f).picker = l.picker
      ∧ (l.twinLeft b f).buffer.hold = l.buffer.hold.filter (fun x => !(x.book == b && x.frame == f)) ∧ EscalationTested l (l.twinLeft b f) := by
  obtain ⟨h1, h2, h3⟩ := leaveHold_rest ((l.endTwinWrite b).passTwinMark b f) fun h => h.book == b && h.frame == f
  rw [passTwinMark_eq hm hf] at h1 h2 h3
  unfold Library.twinLeft
  rw [passTwinMark_eq hm hf]
  exact ⟨by rw [h3]; rfl, by rw [h3]; rfl, by rw [h3]; rfl, h1, h2.congr rfl rfl rfl rfl rfl rfl⟩

theorem twinWork_twinWritten (e : Env) (l : Library) (b : Book) (f : Nat) : TwinWork (l.twinLeft b f) (l.twinWritten e b f) :=
  (twinWork_dropRereads e _ b _).trans (twinWork_examine e _ b)

/-- R99: what a verified twin write leaves of its frame: its twin mark is past it, and the list and the marks of the others stand. -/
structure TwinWritten (e : Env) (l a : Library) (b : Book) (f : Nat) : Prop where
  mark : f + 1 ≤ (a.book b).twinMark
  filing : ∀ c, (a.book c).filing = (l.book c).filing
  state : ∀ c, (a.book c).state = (l.book c).state
  entry : ∀ t, a.entry t = l.entry t
  drive : ∀ d, (l.drive d).KeptTo (a.drive d)
  picker : a.picker = l.picker
  hold : a.buffer.hold = l.buffer.hold.filter fun x => !(x.book == b && x.frame == f)
  tested : EscalationTested l a
  writing : (a.twin b).writing = none
  rereads : ∀ r ∈ (a.twin b).rereads, r.frame ≠ f

/-- R95: what the examination after a verified twin write makes of a book that is not PAUSED. -/
structure TwinExamined (e : Env) (l a : Library) (b : Book) (f : Nat) (s : Side) : Prop where
  passed : ∀ g, f + 1 ≤ g → g < (a.book b).twinMark → (e.frame b g).skipped = true
  stands : (a.book b).twinMark = (l.book b).filing ∨ (e.frame b (a.book b).twinMark).skipped = false
  state : (a.twin b).state = twinStateOf (a.book b) (l.twin b).failed
  item : (a.twin b).state = .working → (e.frame b (a.book b).twinMark).filed = true → (a.twinData b (a.book b).twinMark).isSome = true →
    listed (.twinWrite b) (a.items s) = true

variable {s : Side}

/-- R99: what the examination of a verified twin write finds: the mark past the frame, no write in progress and no record of the frame. -/
theorem twinDropped (e : Env) (ht : (l.book b).twin = some s) (hm : (l.book b).twinMark = f) (hf : f < (l.book b).filing) :
    let p := (l.twinLeft b f).dropRereads e b fun g => g == f
    p.book b = { l.book b with twinMark := f + 1 } ∧ (p.book b).twin = some s ∧ (p.twin b).writing = none ∧ (p.twin b).state = (l.twin b).state
      ∧ (p.twin b).failed = (l.twin b).failed ∧ ∀ r ∈ (p.twin b).rereads, r.frame ≠ f := by
  intro p
  have hbooks : p.books = (l.twinLeft b f).books := by
    show ((l.twinLeft b f).dropRereads e b fun g => g == f).books = _
    unfold Library.dropRereads
    exact (books_grantFrom e _ _).trans (books_syncReread e _ b)
  have hbook : p.book b = { l.book b with twinMark := f + 1 } :=
    (congrArg (fun v : Vector BookEntry 127 => look v b) hbooks).trans ((twinLeft_book hm hf b).trans (if_pos rfl))
  obtain ⟨h1, h2, h3⟩ := sameTwins_dropRereads e (l.twinLeft b f) b (fun g => g == f) b
  have htwin := twinLeft_twin hm hf
  rw [htwin] at h1 h2 h3
  refine ⟨hbook, by rw [hbook]; exact ht, h2, h1, h3, fun r hr hrf => ?_⟩
  have hmem := mem_rereadFrames hr
  rw [dropRereads_frames, if_pos rfl, hrf] at hmem
  simpa using (List.mem_filter.mp hmem).2

theorem twinWritten_leaves (e : Env) (ht : (l.book b).twin = some s) (hm : (l.book b).twinMark = f) (hf : f < (l.book b).filing) :
    TwinWritten e l (l.twinWritten e b f) b f := by
  have hw := twinWork_twinWritten e l b f
  obtain ⟨r1, r2, r3, r4, r5⟩ := twinLeft_rest hm hf
  have hbook := twinLeft_book hm hf
  obtain ⟨d1, d2, d3, d4, d5, d6⟩ := twinDropped e ht hm hf
  rw [Library.twinWritten_eq] at hw ⊢
  generalize hp : (l.twinLeft b f).dropRereads e b (fun g => g == f) = p at hw d1 d2 d3 d4 d5 d6 ⊢
  have hmark := (keptBut_examine e p b).twinMark b
  rw [d1] at hmark
  refine ⟨hmark, fun c => ?_, fun c => ?_, fun t => (hw.entry t).trans (congrArg (fun v : Front => look v.table t) r1), fun d => ?_, hw.picker.trans r3,
    hw.hold.trans r4, r5.congr rfl rfl hw.escalation hw.hold hw.copy hw.decisionDue, ?_, fun r hr hrf => ?_⟩
  · rw [hw.book, hbook]
    split
    next h => rw [h]
    next => rfl
  · rw [hw.book, hbook]
    split
    next h => rw [h]
    next => rfl
  · have hd : (l.twinLeft b f).drive d = l.drive d := congrArg (fun v : Vector DriveRecord 4 => look v d) r2
    exact hd ▸ hw.keptDrive d
  · rw [(examine_twin e p b d2).1, d3]
  · rcases examine_rereads d2 r hr with h | ⟨-, h, -⟩
    · exact d6 r h hrf
    · rw [d1, hrf] at h
      exact absurd h (Nat.not_succ_le_self f)

theorem twinWritten_examined (e : Env) (ht : (l.book b).twin = some s) (hm : (l.book b).twinMark = f) (hf : f < (l.book b).filing)
    (htop : (l.book b).filing ≤ 4096) (hp : (l.twin b).state ≠ .paused) : TwinExamined e l (l.twinWritten e b f) b f s := by
  obtain ⟨d1, d2, d3, d4, d5, -⟩ := twinDropped e ht hm hf
  rw [Library.twinWritten_eq]
  generalize hq : (l.twinLeft b f).dropRereads e b (fun g => g == f) = p at d1 d2 d3 d4 d5 ⊢
  have hpp : (p.twin b).state ≠ .paused := d4 ▸ hp
  obtain ⟨j1, j2, -⟩ := examine_judges e p b d2 hpp
  obtain ⟨m, k1, k2, k3, k4, k5⟩ := skipFrames_marks e p b Config.framesPerBook
  rw [d1] at k1 k2 k3 k4 k5
  dsimp only at k2 k3 k4 k5
  have hmark : ((p.examine e b).book b).twinMark = m := by
    have h := congrArg (fun v : Vector BookEntry 127 => (look v b).twinMark) j1
    rw [k1] at h
    exact h.trans (congrArg BookEntry.twinMark (Library.setBook_book_same ..))
  have hframes : Config.framesPerBook = 4096 := rfl
  refine ⟨fun g h1 h2 => k4 g h1 (hmark ▸ h2), ?_, j2.trans (by rw [d5]), fun h1 h2 h3 => examine_wants d2 hpp d3 h1 h2 h3⟩
  rw [hmark]
  rcases Nat.eq_or_lt_of_le (k3 hf) with h | h
  · exact .inl h
  · refine .inr (Bool.eq_false_iff.mpr fun hs => ?_)
    have := k5 h hs
    omega

end Verified

section VerifiedEvent

variable {s : State} {d : Drive} {v : InService} {b : Book} {f n : Nat} {h live : Bool}

theorem stillTwin_iff {l : Library} {i : Side} : l.stillTwin b i = true ↔ (l.book b).twin = some i := beq_iff_eq

theorem exec_twinWriteVerified (hv : Answered s d v) (hc : v.command = .twinWrite b f n h live) :
    exec (.twinWriteVerified d) s = .next (State.react { s.begin with
      lib := if (s.begin.finishCommand d).lib.stillTwin b v.side then (s.begin.finishCommand d).lib.twinWritten s.env b f
      else (s.begin.finishCommand d).lib.grantRereads s.env } s.begin.lib) := by
  show execTwinWriteVerified d s = _
  unfold execTwinWriteVerified
  rw [State.outcome_next _ hv.started hv.state hv.service hv.fresh]
  simp only [hc]
  rfl

theorem exec_twinWriteFail (hv : Answered s d v) (hc : v.command = .twinWrite b f n h live) :
    exec (.twinWriteFail d) s = .next (State.react { s.begin with
      lib := if ((s.begin.finishCommand d).lib.countWriteFail s.env v.side).stillTwin b v.side
      then ((s.begin.finishCommand d).lib.countWriteFail s.env v.side).twinFailed s.env b f v.side d
      else ((s.begin.finishCommand d).lib.countWriteFail s.env v.side).grantRereads s.env } s.begin.lib) := by
  show execTwinWriteFail d s = _
  unfold execTwinWriteFail
  rw [State.outcome_next _ hv.started hv.state hv.service hv.fresh]
  simp only [hc]
  rfl

end VerifiedEvent

end Sys2Proof.Machine
end

section
-- One declaration after the other: the stacks of the threads that wait for each other count against the check's memory limit.
set_option Elab.async false
/-! # A twin write that fails, and one whose twin has been removed -/

namespace Sys2Proof.Machine

section Failed

variable {s u : State} {d : Drive} {v : InService} {b : Book} {f n : Nat} {h live : Bool}

/-- R100: a failed twin write that has been counted and recorded, its book PAUSED, before its work stops. -/
def Library.twinPaused (l : Library) (e : Env) (b : Book) (f : Nat) (i : Side) (d : Drive) : Library :=
  ((l.faultWrite e b i f d none).endTwinWrite b).setTwin b { ((l.faultWrite e b i f d none).endTwinWrite b).twin b with state := .paused }

theorem Library.twinFailed_eq (e : Env) (l : Library) (b : Book) (f : Nat) (i : Side) (d : Drive) :
    l.twinFailed e b f i d = (l.twinPaused e b f i d).stopTwinWork e b := rfl

theorem twinPaused_twin (e : Env) (l : Library) (b : Book) (f : Nat) (i : Side) (d : Drive) :
    ((l.twinPaused e b f i d).twin b).state = .paused ∧ ((l.twinPaused e b f i d).twin b).writing = none := by
  have htwin : (l.twinPaused e b f i d).twin b = { ((l.faultWrite e b i f d none).endTwinWrite b).twin b with state := .paused } := Library.setTwin_twin_same ..
  have hend : ((l.faultWrite e b i f d none).endTwinWrite b).twin b = { (l.faultWrite e b i f d none).twin b with writing := none } := Library.setTwin_twin_same ..
  rw [htwin, hend]
  exact ⟨rfl, rfl⟩

/-- R100: what a failed twin write leaves of a library: the book is PAUSED without twin work, and only the record of the fault is added. -/
structure TwinFailed (l m a : Library) (b : Book) : Prop where
  state : (a.twin b).state = .paused
  writing : (a.twin b).writing = none
  rereads : (a.twin b).rereads = []
  items : a.noTwinItems b
  books : a.books = l.books
  hold : a.buffer.hold = l.buffer.hold
  roles : a.roles = l.roles
  care : a.care = l.care
  log : a.log = m.log
  entry : ∀ t, a.entry t = l.entry t
  picker : a.picker = l.picker

theorem twinFailed_leaves (e : Env) (l : Library) (b : Book) (f : Nat) (i : Side) (d : Drive) :
    TwinFailed l (l.faultWrite e b i f d none) (l.twinFailed e b f i d) b := by
  have hw := twinWork_stopTwinWork e (l.twinPaused e b f i d) b
  obtain ⟨h1, h2, -⟩ := sameTwins_stopTwinWork e (l.twinPaused e b f i d) b b
  obtain ⟨p1, p2⟩ := twinPaused_twin e l b f i d
  rw [Library.twinFailed_eq]
  exact ⟨h1.trans p1, h2.trans p2, rereads_nil (stopTwinWork_frames e _ b), stopTwinWork_noItems e _ b, books_stopTwinWork e _ b, hw.hold, hw.roles, hw.care,
    hw.log, hw.entry, hw.picker⟩

theorem twinWriteFail_outcome (hv : Answered s d v) (hc : v.command = .twinWrite b f n h live) (ht : (s.lib.book b).twin = some v.side) :
    let a := ((s.begin.finishCommand d).lib.countWriteFail s.env v.side).twinFailed s.env b f v.side d
    ∃ u, exec (.twinWriteFail d) s = .next u ∧ Reacted s u s.env s.fee a
      ∧ (a.twin b).state = .paused ∧ (a.twin b).writing = none ∧ (a.twin b).rereads = []
      ∧ (∀ i, ∀ x ∈ a.items i, x.kind ≠ .twinWrite b ∧ x.kind ≠ .twinReread b)
      ∧ a.books = s.lib.books ∧ a.buffer.hold = s.lib.buffer.hold ∧ a.roles = s.lib.roles
      ∧ (a.health v.side).uncorrectable = min 255 ((s.lib.health v.side).uncorrectable + 1)
      ∧ (∀ i, i ≠ v.side → a.health i = s.lib.health i)
      ∧ (s.lib.log.first = none → KindSet.has s.env.mask .writeFailed = false → s.lib.care.queue.length < 8 →
        u.lib.log.first = some ⟨.writeFailed, some b, some v.side, some f, some d, none, none, s.env.day⟩)
      ∧ (∀ t, a.entry t = s.lib.entry t) ∧ a.picker = s.lib.picker := by
  obtain ⟨hsame, hcare, hlog, -, -⟩ := s.finishCommand_same d
  obtain ⟨c1, -, c3, c4, -, -, c7⟩ := countWriteFail_counts s.env (s.begin.finishCommand d).lib v.side
  have hexec := exec_twinWriteFail hv hc
  generalize hl : (s.begin.finishCommand d).lib.countWriteFail s.env v.side = l at hexec c1 c3 c4 c7 ⊢
  have hall := hsame.trans c1
  rw [if_pos (stillTwin_iff.mpr ((congrArg BookEntry.twin (hall.book b)).trans ht))] at hexec
  have hf := twinFailed_leaves s.env l b f v.side d
  have hr : Reacted s _ s.env s.fee (l.twinFailed s.env b f v.side d) :=
    State.react_reacted (s := s) (u := { s.begin with lib := l.twinFailed s.env b f v.side d }) rfl
  have hhealth (i : Side) : (l.twinFailed s.env b f v.side d).health i = l.health i := congrArg (fun c : Care => look c.health i) hf.care
  have hhealth' (i : Side) : (s.begin.finishCommand d).lib.health i = s.lib.health i := congrArg (fun c : Care => look c.health i) hcare
  refine ⟨_, hexec, hr, hf.state, hf.writing, hf.rereads, hf.items, hf.books.trans hall.books, hf.hold.trans (congrArg Buffer.hold hall.buffer),
    hf.roles.trans hall.roles, ?_, fun i hi => ?_, fun hl0 hm hq => ?_, fun t => (hf.entry t).trans (hall.entry t), hf.picker.trans hall.picker⟩
  · rw [hhealth, c3, hhealth']
    rfl
  · rw [hhealth, c4 i hi, hhealth']
  · refine hr.lib.first _ ((congrArg FaultLog.first hf.log).trans (fault_first ?_ hm))
    rw [c7 (by rw [hcare]; exact hq), hlog]
    exact hl0

/-- R8: an outcome of a twin write whose twin has been removed. -/
theorem twinRemoved_outcome (hv : Answered s d v) (hc : v.command = .twinWrite b f n h live) (ht : (s.lib.book b).twin ≠ some v.side) (c : Instr) (l : Library)
    (hcl : (c = .twinWriteVerified d ∧ l = (s.begin.finishCommand d).lib)
      ∨ (c = .twinWriteFail d ∧ l = (s.begin.finishCommand d).lib.countWriteFail s.env v.side)) :
    ∃ u, exec c s = .next u ∧ Reacted s u s.env s.fee (l.grantRereads s.env)
      ∧ (l.grantRereads s.env).books = s.lib.books ∧ (l.grantRereads s.env).buffer.hold = s.lib.buffer.hold
      ∧ (l.grantRereads s.env).roles = s.lib.roles ∧ ∀ t, (l.grantRereads s.env).entry t = s.lib.entry t := by
  obtain ⟨hsame, -⟩ := s.finishCommand_same d
  have hstep : exec c s = .next (State.react { s.begin with lib := l.grantRereads s.env } s.begin.lib) ∧ SameButCounts s.begin.lib l := by
    rcases hcl with ⟨rfl, rfl⟩ | ⟨rfl, rfl⟩
    · refine ⟨(exec_twinWriteVerified hv hc).trans ?_, hsame⟩
      rw [if_neg fun hst => ht ((congrArg BookEntry.twin (hsame.book b)).symm.trans (stillTwin_iff.mp hst))]
    · obtain ⟨c1, -⟩ := countWriteFail_counts s.env (s.begin.finishCommand d).lib v.side
      refine ⟨(exec_twinWriteFail hv hc).trans ?_, hsame.trans c1⟩
      rw [if_neg fun hst => ht ((congrArg BookEntry.twin ((hsame.trans c1).book b)).symm.trans (stillTwin_iff.mp hst))]
  obtain ⟨hexec, hall⟩ := hstep
  have hw := twinWork_grantFrom s.env l.buffer.rereadWait l
  exact ⟨_, hexec, State.react_reacted (s := s) (u := { s.begin with lib := l.grantRereads s.env }) rfl, (books_grantFrom s.env _ l).trans hall.books,
    hw.hold.trans (congrArg Buffer.hold hall.buffer), hw.roles.trans hall.roles, fun t => (hw.entry t).trans (hall.entry t)⟩

end Failed

section Verified

variable {s : State} {d : Drive} {v : InService} {b : Book} {f n : Nat} {h live : Bool}

theorem twinWriteVerified_outcome (hv : Answered s d v) (hc : v.command = .twinWrite b f n h live) (ht : (s.lib.book b).twin = some v.side)
    (hm : (s.lib.book b).twinMark = f) (hf : f < (s.lib.book b).filing) (htop : (s.lib.book b).filing ≤ 4096) :
    let a := (s.begin.finishCommand d).lib.twinWritten s.env b f
    let mark := (a.book b).twinMark
    ∃ u, exec (.twinWriteVerified d) s = .next u ∧ Reacted s u s.env s.fee a
      ∧ f + 1 ≤ (u.lib.book b).twinMark
      ∧ u.lib.buffer.hold = s.lib.buffer.hold.filter (fun e => !(e.book == b && e.frame == f))
      ∧ u.lib.buffer.escalation = escalationAfter s.lib.buffer.escalation (u.lib.buffer.hold.map fun e => e.data.length).sum
      ∧ EscalationTested s.lib a ∧ u.lib.buffer.escalation = a.buffer.escalation ∧ u.lib.scheduler.escalation = a.scheduler.escalation
      ∧ (∀ c, (u.lib.book c).filing = (s.lib.book c).filing ∧ (u.lib.book c).state = (s.lib.book c).state)
      ∧ (∀ t x, s.lib.entry t = some x → ∃ y, u.lib.entry t = some y ∧ x.KeptTo y)
      ∧ (∀ d', d' ≠ d → (s.lib.drive d').KeptTo (u.lib.drive d')) ∧ u.lib.picker.locations = s.lib.picker.locations
      ∧ (u.lib.drive d).failures = 0 ∧ (u.lib.drive d).lastUse = s.env.now
      ∧ (a.twin b).writing = none ∧ (∀ r ∈ (a.twin b).rereads, r.frame ≠ f)
      ∧ ((s.lib.twin b).state ≠ .paused →
        (∀ g, f + 1 ≤ g → g < mark → (s.env.frame b g).skipped = true)
        ∧ (mark = (s.lib.book b).filing ∨ (s.env.frame b mark).skipped = false)
        ∧ (a.twin b).state = twinStateOf (a.book b) (s.lib.twin b).failed
        ∧ ((a.twin b).state = .working → (s.env.frame b mark).filed = true → (a.twinData b mark).isSome = true →
          listed (.twinWrite b) (a.items v.side) = true)) := by
  have hexec := exec_twinWriteVerified hv hc
  obtain ⟨hsame, hdrive, hdrives, -, -, hsched, -⟩ := finishCommand_ends s.env s.begin.lib d false
  change SameButCounts s.begin.lib (s.begin.finishCommand d).lib at hsame
  change (s.begin.finishCommand d).lib.drive d = (s.lib.drive d).after s.env.now at hdrive
  change ∀ d', d' ≠ d → (s.begin.finishCommand d).lib.drive d' = s.lib.drive d' at hdrives
  have hcopy := congrArg Scheduler.escalation hsched
  change (s.begin.finishCommand d).lib.scheduler.escalation = s.lib.scheduler.escalation at hcopy
  clear hsched
  generalize (s.begin.finishCommand d).lib = l at hexec hsame hdrive hdrives hcopy ⊢
  have hbook : l.book b = s.lib.book b := hsame.book b
  have htwin : l.twin b = s.lib.twin b := congrArg (fun v : Vector TwinRecord 127 => look v b) hsame.twins
  rw [if_pos (stillTwin_iff.mpr ((congrArg BookEntry.twin hbook).trans ht))] at hexec
  obtain ⟨htl, hml, hfl⟩ : (l.book b).twin = some v.side ∧ (l.book b).twinMark = f ∧ f < (l.book b).filing := by rw [hbook]; exact ⟨ht, hm, hf⟩
  have hw := twinWritten_leaves s.env htl hml hfl
  have hx := twinWritten_examined s.env htl hml hfl (by rw [hbook]; exact htop)
  generalize l.twinWritten s.env b f = a at hexec hw hx ⊢
  have hr : Reacted s _ s.env s.fee a := State.react_reacted (s := s) (u := { s.begin with lib := a }) rfl
  have hhold := hw.hold.trans (congrArg (fun x : Buffer => x.hold.filter fun e => !(e.book == b && e.frame == f)) hsame.buffer)
  have htest : EscalationTested s.lib a := hw.tested.congr (congrArg Buffer.escalation hsame.buffer).symm hcopy.symm rfl rfl rfl rfl
  have hd := (hw.drive d).trans (hr.lib.drive d)
  rw [hdrive] at hd
  refine ⟨_, hexec, hr, hw.mark.trans (hr.lib.twinMark b), hr.lib.hold.trans hhold, ?_, htest, hr.lib.escalation, hr.lib.escalationCopy, fun c => ?_,
    fun t x hx => hr.lib.entry t x ((hw.entry t).trans ((hsame.entry t).trans hx)), fun d' hd' => hdrives d' hd' ▸ (hw.drive d').trans (hr.lib.drive d'),
    hr.lib.locations.trans (congrArg Picker.locations (hw.picker.trans hsame.picker)), hd.failures, hd.lastUse, hw.writing, hw.rereads, fun hp => ?_⟩
  · rw [hr.lib.escalation, hr.lib.hold]
    exact htest.flag
  · rw [hr.lib.filing, hr.lib.state, hw.filing, hw.state, hsame.book]
    exact ⟨rfl, rfl⟩
  · have hx := hx (by rw [htwin]; exact hp)
    have h2 := hx.stands
    have h3 := hx.state
    rw [hbook] at h2
    rw [htwin] at h3
    exact ⟨hx.passed, h2, h3, hx.item⟩

end Verified

end Sys2Proof.Machine
end

section
-- One declaration after the other: the stacks of the threads that wait for each other count against the check's memory limit.
set_option Elab.async false
/-! # The outcome of a re-read, and the reservations of the re-read half -/

namespace Sys2Proof.Machine

section Outcome

variable {e : Env} {l : Library} {b : Book} {f : Nat} {i : Side} {rs : List ReadResult}

theorem mapM_resultData_some {rs : List ReadResult} {data : List Sector} (h : rs.map resultData = data.map some) : rs.mapM resultData = some data := by
  induction rs generalizing data with
  | nil => cases data with
    | nil => rfl
    | cons x data => cases h
  | cons r rs ih => cases data with
    | nil => cases h
    | cons x data =>
      rw [List.map_cons, List.map_cons] at h
      obtain ⟨h1, h2⟩ := List.cons.inj h
      rw [List.mapM_cons, h1, ih h2]
      simp

theorem mapM_resultData_none : ∀ {rs : List ReadResult}, (∃ r ∈ rs, r = .uncorrectable ∨ r = .blank) → rs.mapM resultData = none
  | [], ⟨_, h, _⟩ => absurd h List.not_mem_nil
  | q :: rs, ⟨r, hr, hk⟩ => by
    rw [List.mapM_cons]
    rcases List.mem_cons.mp hr with rfl | hr
    · rcases hk with rfl | rfl <;> rfl
    · rw [mapM_resultData_none ⟨r, hr, hk⟩]
      cases resultData q <;> rfl

theorem examine_paused (h : (l.book b).twin = some i) (hp : (l.twin b).state = .paused) : l.examine e b = l := by
  unfold Library.examine
  rw [h]
  exact if_pos hp

/-- R94: the examination of a book with a twin keeps its failed frame. -/
theorem examine_failed (h : (l.book b).twin = some i) : ((l.examine e b).twin b).failed = (l.twin b).failed := by
  by_cases hp : (l.twin b).state = .paused
  · rw [examine_paused h hp]
  · exact (examine_judges e l b h hp).2.2

theorem books_dropRereads (e : Env) (l : Library) (b : Book) (gone : Nat → Bool) : (l.dropRereads e b gone).books = l.books := by
  unfold Library.dropRereads
  exact (books_grantFrom e _ _).trans (books_syncReread e _ b)

/-- R97: the failed frame that a failed re-read leaves. -/
def TwinRecord.lowest (t : TwinRecord) (f : Nat) : Nat := min f (t.failed.getD f)

/-- R97: the records that a failed re-read leaves, before the book is examined. -/
def Library.rereadsCut (l : Library) (e : Env) (b : Book) (f : Nat) : Library :=
  (l.setTwin b { l.twin b with failed := some ((l.twin b).lowest f) }).dropRereads e b fun g => g == f || Decidable.decide ((l.twin b).lowest f < g)

theorem Library.rereadFailed_eq (e : Env) (l : Library) (b : Book) (f : Nat) : l.rereadFailed e b f = (l.rereadsCut e b f).examine e b := rfl

theorem rereadsCut_twin (e : Env) (l : Library) (b : Book) (f : Nat) :
    ((l.rereadsCut e b f).twin b).state = (l.twin b).state ∧ ((l.rereadsCut e b f).twin b).failed = some ((l.twin b).lowest f)
      ∧ ∀ r ∈ ((l.rereadsCut e b f).twin b).rereads, r.frame ≠ f ∧ r.frame ≤ (l.twin b).lowest f := by
  have htwin : (l.setTwin b { l.twin b with failed := some ((l.twin b).lowest f) }).twin b = { l.twin b with failed := some ((l.twin b).lowest f) } :=
    Library.setTwin_twin_same ..
  obtain ⟨h1, -, h3⟩ := sameTwins_dropRereads e (l.setTwin b { l.twin b with failed := some ((l.twin b).lowest f) }) b
    (fun g => g == f || Decidable.decide ((l.twin b).lowest f < g)) b
  rw [htwin] at h1 h3
  refine ⟨h1, h3, fun r hr => ?_⟩
  have hmem := mem_rereadFrames hr
  rw [Library.rereadsCut, dropRereads_frames, if_pos rfl] at hmem
  simpa using (List.mem_filter.mp hmem).2

/-- R97: what a failed re-read leaves of a book with a twin. -/
theorem rereadFailed_leaves (e : Env) (f : Nat) (h : (l.book b).twin = some i) :
    ((l.rereadFailed e b f).twin b).failed = some ((l.twin b).lowest f)
      ∧ (∀ r ∈ ((l.rereadFailed e b f).twin b).rereads, r.frame ≠ f ∧ r.frame ≤ (l.twin b).lowest f)
      ∧ ((l.twin b).state ≠ .paused →
        ((l.rereadFailed e b f).twin b).state = twinStateOf ((l.rereadFailed e b f).book b) (some ((l.twin b).lowest f))) := by
  obtain ⟨h1, h2, h3⟩ := rereadsCut_twin e l b f
  have hbooks : (l.rereadsCut e b f).books = l.books := books_dropRereads ..
  have htwin : ((l.rereadsCut e b f).book b).twin = some i := (congrArg (fun v : Vector BookEntry 127 => (look v b).twin) hbooks).trans h
  have hle : (l.twin b).lowest f ≤ f := Nat.min_le_left ..
  rw [Library.rereadFailed_eq]
  refine ⟨(examine_failed htwin).trans h2, fun r hr => ?_, fun hp => ?_⟩
  · rcases examine_rereads htwin r hr with hr | ⟨-, -, hlow, -⟩
    · exact h3 r hr
    · have := hlow _ h2
      omega
  · rw [(examine_judges e _ b htwin (h1 ▸ hp)).2.1, h2]

/-- R97: the records that a re-read whose sectors were all read leaves, before the book is examined. -/
def Library.rereadRead (l : Library) (b : Book) (f : Nat) (data : List Sector) : Library :=
  l.mapRereads b fun rs => rs.map fun r => if r.frame = f then { r with state := .ready, data := data } else r

theorem Library.rereadDone_eq (e : Env) (l : Library) (b : Book) (f : Nat) (data : List Sector) :
    l.rereadDone e b f data = (l.rereadRead b f data).examine e b := rfl

theorem rereadRead_twin (l : Library) (b : Book) (f : Nat) (data : List Sector) :
    (l.rereadRead b f data).twin b = { l.twin b with
      rereads := (l.twin b).rereads.map fun r => if r.frame = f then { r with state := .ready, data := data } else r } := by
  unfold Library.rereadRead
  rw [mapRereads_twin, if_pos rfl]

/-- R97: what a re-read whose sectors were all read leaves. -/
theorem rereadDone_leaves (e : Env) (l : Library) (b : Book) (f : Nat) (data : List Sector) :
    ((l.book b).twin ≠ none → ((l.rereadDone e b f data).twin b).failed = (l.twin b).failed)
      ∧ ((∃ r ∈ (l.twin b).rereads, r.frame = f) → ∀ r ∈ ((l.rereadDone e b f data).twin b).rereads, r.frame = f → r.state = .ready ∧ r.data = data) := by
  have htwin := rereadRead_twin l b f data
  rw [Library.rereadDone_eq]
  cases ht : (l.book b).twin with
  | none =>
    refine ⟨fun h => absurd rfl h, fun _ r hr => ?_⟩
    rw [(examine_alone e (l.rereadRead b f data) b ht).2] at hr
    cases hr
  | some i =>
    have ht' : ((l.rereadRead b f data).book b).twin = some i := ht
    refine ⟨fun _ => by rw [examine_failed ht', htwin], fun ⟨q, hq, hqf⟩ r hr hrf => ?_⟩
    rcases examine_rereads ht' r hr with hr | ⟨-, -, -, hnew⟩
    · rw [htwin] at hr
      obtain ⟨p, -, rfl⟩ := List.mem_map.mp hr
      split at hrf
      next hp => rw [if_pos hp]; exact ⟨rfl, rfl⟩
      next hp => exact absurd hrf hp
    · have hmem : ({ q with state := .ready, data := data } : Reread) ∈ ((l.rereadRead b f data).twin b).rereads := by
        rw [htwin]
        exact List.mem_map.mpr ⟨q, hq, if_pos hqf⟩
      have hne := hnew _ hmem
      exact absurd (hqf.trans hrf.symm) hne

theorem twinWork_rereadOutcome (e : Env) (l : Library) (b : Book) (f : Nat) (rs : List ReadResult) :
    TwinWork l (l.rereadOutcome e b f rs) ∧ KeptBut e l (l.rereadOutcome e b f rs) := by
  unfold Library.rereadOutcome
  cases rs.mapM resultData with
  | some data => exact ⟨(twinWork_mapRereads l b _).trans (twinWork_examine e _ b), (kept_mapRereads e l b _).toKeptBut.trans (keptBut_examine e _ b)⟩
  | none =>
    exact ⟨((twinWork_setTwin l b _).trans (twinWork_dropRereads e _ b _)).trans (twinWork_examine e _ b),
      ((kept_setTwin e l b _).trans (kept_dropRereads e _ b _)).toKeptBut.trans (keptBut_examine e _ b)⟩

variable {s : State} {d : Drive} {v : InService} {n : Nat} {live : Bool}

/-- R97: what an outcome of a re-read leaves once it has been counted. -/
def Library.rereadEnds (l : Library) (e : Env) (b : Book) (f : Nat) (live : Bool) (rs : List ReadResult) : Library :=
  if live then l.rereadOutcome e b f rs else l.grantRereads e

theorem rereadEnds_keeps (e : Env) (l : Library) (b : Book) (f : Nat) (live : Bool) (rs : List ReadResult) :
    TwinWork l (l.rereadEnds e b f live rs) ∧ KeptBut e l (l.rereadEnds e b f live rs) := by
  cases live with
  | true => exact twinWork_rereadOutcome e l b f rs
  | false => exact ⟨twinWork_grantFrom e _ l, (kept_grantRereads e l).toKeptBut⟩

theorem exec_rereadOutcome (hv : Answered s d v) (hc : v.command = .reread b f n live) (hn : rs.length = n) :
    exec (.rereadOutcome d rs) s
      = .next (State.react { s.begin with lib := (s.counted d false v.side b f none rs).rereadEnds s.env b f live rs } s.begin.lib) := by
  show execRereadOutcome d rs s = _
  unfold execRereadOutcome
  rw [State.outcome_next _ hv.started hv.state hv.service hv.fresh]
  simp only [hc, hn, if_true]
  rfl

theorem rereadOutcome_counts (hv : Answered s d v) (hc : v.command = .reread b f n live) (hn : rs.length = n) :
    let l := (s.begin.finishCommand d).lib.countRead s.env d v.side b f none rs
    ∃ u, exec (.rereadOutcome d rs) s = .next u ∧ ReadCounted s u d v.side rs ∧ FailedReadLogged s u d v.side b f none rs
      ∧ u.lib.buffer.hold = s.lib.buffer.hold
      ∧ (live = false → Reacted s u s.env s.fee (l.grantRereads s.env))
      ∧ (live = true → (∃ r ∈ rs, r = .uncorrectable ∨ r = .blank) →
        let a := l.rereadFailed s.env b f
        let low := min f ((s.lib.twin b).failed.getD f)
        Reacted s u s.env s.fee a ∧ a.roles = s.lib.roles
          ∧ ((s.lib.book b).twin ≠ none → (a.twin b).failed = some low ∧ ∀ r ∈ (a.twin b).rereads, r.frame ≠ f ∧ r.frame ≤ low)
          ∧ ((s.lib.book b).twin ≠ none → (s.lib.twin b).state ≠ .paused → (a.twin b).state = twinStateOf (a.book b) (some low)))
      ∧ (live = true → ∀ data, rs.map resultData = data.map some →
        let a := l.rereadDone s.env b f data
        Reacted s u s.env s.fee a ∧ a.roles = s.lib.roles
          ∧ ((s.lib.book b).twin ≠ none → (a.twin b).failed = (s.lib.twin b).failed)
          ∧ ((∃ r ∈ (s.lib.twin b).rereads, r.frame = f) →
            ∀ r ∈ (a.twin b).rereads, r.frame = f → r.state = .ready ∧ r.data = data)) := by
  have hexec := exec_rereadOutcome hv hc hn
  have hsame := State.counted_same (s := s) (d := d) (patrol := false) (side := v.side) (b := b) (f := f) (t := none) (rs := rs)
  have hreads (u : State) := readCounted_of_keeps (s := s) (u := u) (d := d) (patrol := false) (side := v.side) (b := b) (f := f) (t := none) (rs := rs)
  have hlogs (u : State) := failedReadLogged_of_keeps (s := s) (u := u) (d := d) (patrol := false) (side := v.side) (b := b) (f := f) (t := none) (rs := rs)
  intro l
  have hl : s.counted d false v.side b f none rs = l := rfl
  clear_value l
  rw [hl] at hexec hsame
  simp only [hl] at hreads hlogs
  obtain ⟨hw, hk⟩ := rereadEnds_keeps s.env l b f live rs
  have hr : Reacted s (State.react { s.begin with lib := l.rereadEnds s.env b f live rs } s.begin.lib) s.env s.fee (l.rereadEnds s.env b f live rs) :=
    State.react_reacted rfl
  generalize State.react { s.begin with lib := l.rereadEnds s.env b f live rs } s.begin.lib = u at hexec hr
  have hkeep := hk.keepsCounts.trans hr.lib.keepsCounts
  have hbook : l.book b = s.lib.book b := hsame.book b
  have htwin : l.twin b = s.lib.twin b := congrArg (fun v : Vector TwinRecord 127 => look v b) hsame.twins
  have hroles := hw.roles.trans hsame.roles
  refine ⟨_, hexec, hreads _ hkeep, hlogs _ hkeep, hr.lib.hold.trans (hw.hold.trans (congrArg Buffer.hold hsame.buffer)), fun hl => ?_, fun hl hbad => ?_,
    fun hl data hdata => ?_⟩
  · subst hl; exact hr
  · subst hl
    have heq : l.rereadEnds s.env b f true rs = l.rereadFailed s.env b f := by
      show l.rereadOutcome s.env b f rs = _
      unfold Library.rereadOutcome
      rw [mapM_resultData_none hbad]
    rw [heq] at hr hroles
    refine ⟨hr, hroles, fun ht => ?_, fun ht hp => ?_⟩
    · obtain ⟨i, hi⟩ := Option.ne_none_iff_exists'.mp ht
      obtain ⟨h1, h2, -⟩ := rereadFailed_leaves s.env f ((congrArg BookEntry.twin hbook).trans hi)
      rw [htwin] at h1 h2
      exact ⟨h1, h2⟩
    · obtain ⟨i, hi⟩ := Option.ne_none_iff_exists'.mp ht
      obtain ⟨-, -, h3⟩ := rereadFailed_leaves s.env f ((congrArg BookEntry.twin hbook).trans hi)
      rw [htwin] at h3
      exact h3 hp
  · subst hl
    have heq : l.rereadEnds s.env b f true rs = l.rereadDone s.env b f data := by
      show l.rereadOutcome s.env b f rs = _
      unfold Library.rereadOutcome
      rw [mapM_resultData_some hdata]
    rw [heq] at hr hroles
    obtain ⟨h1, h2⟩ := rereadDone_leaves s.env l b f data
    rw [hbook, htwin] at h1
    rw [htwin] at h2
    exact ⟨hr, hroles, h1, h2⟩

end Outcome

end Sys2Proof.Machine
end

section
-- One declaration after the other: the stacks of the threads that wait for each other count against the check's memory limit.
set_option Elab.async false
/-! # The re-read half (R52) -/

namespace Sys2Proof.Machine

section Reservations

variable {e : Env} {l : Library} {b : Book} {f len : Nat} {p : Side}

/-- R52: the library with another waiting list of reservations. -/
def Library.waiting (l : Library) (w : List (Book × Nat)) : Library := { l with buffer := { l.buffer with rereadWait := w } }

theorem syncReread_waiting (e : Env) (l : Library) (b : Book) (w : List (Book × Nat)) : (l.waiting w).syncReread e b = (l.syncReread e b).waiting w := by
  unfold Library.syncReread
  have hp : ((l.waiting w).book b).primary = (l.book b).primary := rfl
  have ht : (l.waiting w).twin b = l.twin b := rfl
  rw [hp, ht]
  cases (l.book b).primary with
  | none => rfl
  | some s =>
    dsimp only
    split <;> rfl

/-- R52: what is granted does not depend on the list that the half holds while it is granted. -/
theorem grantFrom_waiting (e : Env) (w : List (Book × Nat)) : ∀ (xs : List (Book × Nat)) (l : Library),
    Library.grantFrom e xs (l.waiting w) = Library.grantFrom e xs l
  | [], _ => rfl
  | (b, f) :: rest, l => by
    have ht : (l.waiting w).twin b = l.twin b := rfl
    have hfree : (l.waiting w).rereadFree = l.rereadFree := rfl
    unfold Library.grantFrom
    rw [ht, hfree]
    cases (l.twin b).rereads.find? fun r => r.frame == f with
    | none => exact grantFrom_waiting e w rest l
    | some r =>
      dsimp only
      by_cases h : r.len ≤ l.rereadFree
      · rw [if_pos h, if_pos h]
        exact (congrArg (Library.grantFrom e rest) (syncReread_waiting e (l.mapRereads b _) b w)).trans (grantFrom_waiting e w rest _)
      · rw [if_neg h, if_neg h]
        rfl

theorem grantRereads_waiting (e : Env) (l : Library) (w : List (Book × Nat)) : (l.waiting w).grantRereads e = Library.grantFrom e w l :=
  grantFrom_waiting e w w l

theorem grantFrom_gone {rest : List (Book × Nat)} (h : (l.twin b).rereads.find? (fun r => r.frame == f) = none) :
    Library.grantFrom e ((b, f) :: rest) l = Library.grantFrom e rest l := by
  rw [Library.grantFrom, h]

/-- R52: the re-read record of a frame is GRANTED. -/
def Library.granted (l : Library) (e : Env) (b : Book) (f : Nat) : Library :=
  (l.mapRereads b fun rs => rs.map fun q => if q.frame = f then { q with state := .granted } else q).syncReread e b

theorem grantFrom_head {rest : List (Book × Nat)} {r : Reread} (h : (l.twin b).rereads.find? (fun r => r.frame == f) = some r) :
    Library.grantFrom e ((b, f) :: rest) l
      = if r.len ≤ l.rereadFree then Library.grantFrom e rest (l.granted e b f) else l.waiting ((b, f) :: rest) := by
  rw [Library.grantFrom, h]
  rfl

/-- R97: the re-read item of a book with a GRANTED record stands on its primary's list. -/
theorem syncReread_lists (h : (l.book b).primary = some p) (hg : ∃ r ∈ (l.twin b).rereads, r.state = .granted) :
    listed (.twinReread b) ((l.syncReread e b).items p) = true := by
  obtain ⟨r, hr, hs⟩ := hg
  unfold Library.syncReread
  rw [h]
  dsimp only
  have hany : ((l.twin b).rereads.any fun r => r.state == .granted) = true := List.any_eq_true.mpr ⟨r, hr, beq_iff_eq.mpr hs⟩
  rw [if_pos hany]
  exact place_listed e l p _

theorem granted_lists {r : Reread} (hfind : (l.twin b).rereads.find? (fun r => r.frame == f) = some r) (h : (l.book b).primary = some p) :
    listed (.twinReread b) ((l.granted e b f).items p) = true := by
  refine syncReread_lists h ⟨{ r with state := .granted }, ?_, rfl⟩
  rw [mapRereads_twin, if_pos rfl]
  exact List.mem_map.mpr ⟨r, List.mem_of_find?_eq_some hfind, if_pos (by simpa using List.find?_some hfind)⟩

theorem askReread_fits (h : len ≤ l.rereadFree) :
    (l.askReread e b f len).buffer = l.buffer ∧ ∀ p, (l.book b).primary = some p → listed (.twinReread b) ((l.askReread e b f len).items p) = true := by
  unfold Library.askReread
  rw [if_pos h]
  refine ⟨?_, fun p hp => syncReread_lists hp ⟨⟨f, len, .granted, []⟩, ?_, rfl⟩⟩
  · unfold Library.syncReread
    (repeat' split) <;> rfl
  · rw [mapRereads_twin, if_pos rfl]
    exact mem_insertReread.mpr (.inl rfl)

theorem askReread_waits (h : l.rereadFree < len) : (l.askReread e b f len).buffer.rereadWait = l.buffer.rereadWait ++ [(b, f)]
    ∧ (l.askReread e b f len).scheduler = l.scheduler := by
  unfold Library.askReread
  rw [if_neg (Nat.not_le.mpr h)]
  exact ⟨rfl, rfl⟩

/-! ## The order of the waiting list -/

/-- R52: ascending book number, then ascending frame. -/
def reservedBefore (p q : Book × Nat) : Prop := p.1 < q.1 ∨ (p.1 = q.1 ∧ p.2 ≤ q.2)

theorem reservedBefore_trans {p q r : Book × Nat} (h : reservedBefore p q) (k : reservedBefore q r) : reservedBefore p r := by
  unfold reservedBefore at *
  rcases h with h | ⟨h, h'⟩ <;> rcases k with k | ⟨k, k'⟩
  · exact .inl (h.trans k)
  · exact .inl (k ▸ h)
  · exact .inl (h ▸ k)
  · exact .inr ⟨h.trans k, h'.trans k'⟩

theorem insertReservation_perm (p : Book × Nat) (xs : List (Book × Nat)) : (insertReservation p xs).Perm (p :: xs) := by
  induction xs with
  | nil => exact .refl _
  | cons q rest ih =>
    unfold insertReservation
    split
    · exact .refl _
    · exact (ih.cons q).trans (.swap p q rest)

theorem keyBefore_reserved (p q : Book × Nat) :
    (keyBefore [p.1.val, p.2] [q.1.val, q.2] = true → reservedBefore p q) ∧ (¬ keyBefore [p.1.val, p.2] [q.1.val, q.2] = true → reservedBefore q p) := by
  rw [keyBefore_cons, keyBefore_cons]
  unfold reservedBefore
  simp only [Fin.lt_def, Fin.ext_iff]
  constructor
  · intro h; simp [keyBefore] at h; omega
  · intro h; simp [keyBefore] at h; omega

theorem insertReservation_sorted {p : Book × Nat} {xs : List (Book × Nat)} (h : xs.Pairwise reservedBefore) :
    (insertReservation p xs).Pairwise reservedBefore := by
  induction xs with
  | nil => exact List.pairwise_singleton ..
  | cons q rest ih =>
    obtain ⟨hq, hrest⟩ := List.pairwise_cons.mp h
    obtain ⟨hlt, hge⟩ := keyBefore_reserved p q
    unfold insertReservation
    split
    next hk =>
      refine List.pairwise_cons.mpr ⟨fun r hr => ?_, h⟩
      rcases List.mem_cons.mp hr with rfl | hr
      · exact hlt hk
      · exact reservedBefore_trans (hlt hk) (hq r hr)
    next hk =>
      refine List.pairwise_cons.mpr ⟨fun r hr => ?_, ih hrest⟩
      rcases List.mem_cons.mp ((insertReservation_perm p rest).mem_iff.mp hr) with rfl | hr
      · exact hge hk
      · exact hq r hr

theorem insertReservations_orders (xs : List (Book × Nat)) :
    (xs.foldr insertReservation []).Perm xs ∧ (xs.foldr insertReservation []).Pairwise reservedBefore := by
  induction xs with
  | nil => exact ⟨.refl _, .nil⟩
  | cons p rest ih => exact ⟨(insertReservation_perm p _).trans (ih.1.cons p), insertReservation_sorted ih.2⟩

/-- R52: those that waited are the list's first part. -/
theorem waited_span {waited : Book × Nat → Bool} {old new : List (Book × Nat)} (hold : ∀ p ∈ old, waited p = true)
    (hnew : ∀ p, new.head? = some p → waited p = false) : (old ++ new).takeWhile waited = old ∧ (old ++ new).dropWhile waited = new := by
  rw [List.takeWhile_append_of_pos hold, List.dropWhile_append_of_pos hold]
  cases new with
  | nil => exact ⟨List.append_nil _, rfl⟩
  | cons p rest =>
    have hp := hnew p rfl
    rw [List.takeWhile_cons_of_neg (by rw [hp]; decide), List.dropWhile_cons_of_neg (by rw [hp]; decide)]
    exact ⟨List.append_nil _, rfl⟩

theorem orderReservations_orders (was l : Library) (old new : List (Book × Nat)) (h : l.buffer.rereadWait = old ++ new)
    (hold : ∀ p ∈ old, p ∈ was.buffer.rereadWait) (hnew : ∀ p, new.head? = some p → p ∉ was.buffer.rereadWait) :
    ∃ ordered, Library.orderReservations was l = l.waiting (old ++ ordered) ∧ ordered.Perm new ∧ ordered.Pairwise reservedBefore := by
  obtain ⟨h1, h2⟩ := waited_span (waited := was.buffer.rereadWait.contains) (fun p hp => List.contains_iff_mem.mpr (hold p hp))
    (fun p hp => by simpa using hnew p hp)
  refine ⟨new.foldr insertReservation [], ?_, insertReservations_orders new⟩
  unfold Library.orderReservations
  dsimp only
  rw [h, h1, h2]
  rfl

end Reservations

/-- Settles O19: the outcomes of twin writes and re-reads by their own steps, the re-read half by the grants from its waiting list. -/
theorem twinOutcomes : Obligations.TwinOutcomes := by
  refine ⟨fun s d v b f n h live hv hc ht hm hf htop => twinWriteVerified_outcome hv hc ht hm hf htop,
    fun s d v b f n h live hv hc ht => twinWriteFail_outcome hv hc ht,
    fun s d v b f n h live hv hc ht c l hcl => twinRemoved_outcome hv hc ht c l hcl,
    fun s d v b f n live rs hv hc hn => rereadOutcome_counts hv hc hn,
    fun e l b f len => ⟨fun hfits => ?_, fun hwaits => ?_, fun r hr => ?_, fun c hc => ?_⟩,
    fun e l b f rest hwait => ⟨fun hnone => ?_, fun r hr => ⟨fun hlt => ?_, fun hle => ?_⟩⟩,
    fun e l was => ⟨_, rfl⟩, fun was l old new h hold hnew => orderReservations_orders was l old new h hold hnew⟩
  · obtain ⟨h1, h2⟩ := askReread_fits (e := e) (b := b) (f := f) hfits
    refine ⟨?_, congrArg Buffer.rereadWait h1, h2⟩
    rw [askReread_twin, if_pos rfl, if_pos hfits]
    exact mem_insertReread.mpr (.inl rfl)
  · refine ⟨?_, askReread_waits hwaits⟩
    rw [askReread_twin, if_pos rfl, if_neg (Nat.not_le.mpr hwaits)]
    exact mem_insertReread.mpr (.inl rfl)
  · rw [askReread_twin, if_pos rfl]
    exact mem_insertReread.mpr (.inr hr)
  · rw [askReread_twin, if_neg (Ne.symm hc)]
  · refine Eq.trans ?_ (grantRereads_waiting e l rest).symm
    rw [Library.grantRereads, hwait]
    exact grantFrom_gone hnone
  · rw [Library.grantRereads, hwait, grantFrom_head hr, if_neg (Nat.not_le.mpr hlt), ← hwait]
    rfl
  · refine ⟨Eq.trans ?_ (grantRereads_waiting e (l.granted e b f) rest).symm, fun p hp => granted_lists hr hp⟩
    rw [Library.grantRereads, hwait, grantFrom_head hr, if_pos hle]

end Sys2Proof.Machine
end
